-- ==== Sys2Proof/Word.lean ====
section
/-! DEFINITION. The word types: 64-bit registers and addresses (R7, R8), bytes, and cell time in nanoseconds. -/

namespace Sys2Proof

/-- A 64-bit register, general register or memory word. -/
abbrev Word := BitVec 64

/-- One byte of memory. -/
abbrev Byte := BitVec 8

/-- An instant of cell time, counted in nanoseconds. -/
abbrev Time := Nat

end Sys2Proof
end

