-- ==== Sys2Proof/Syntax.lean ====
section
/-! DEFINITION. The commands of the block: one constructor per row of spec/opcode_table.json. A command names what
happens to the device: an Evpeal instruction that a core executes, a step of a pattern engine, an access by a host or a
core, a message that arrives, a pin event, an instant of cell time at which the device acts by itself. What the state
cannot know (levels read, instants, the content of a received message) is an operand. -/

namespace Sys2Proof

/-- A logic die, with the power die that it controls: LA with PD0, LB with PD1 (R3). -/
inductive Ch where
  | la | lb
  deriving DecidableEq, Repr

/-- 0 for LA, 1 for LB. -/
def Ch.num : Ch → Nat
  | .la => 0
  | .lb => 1

/-- What ECC found in the word that an access reads (R86): nothing; one bit, corrected in place; an uncorrectable word
whose second read succeeded; an uncorrectable word that stayed so. -/
inductive Ecc where
  | clean | corrected | reread | lasting
  deriving DecidableEq, Repr

/-- What ECC found in one word that is read (R86), and whether the word stood in a cache line (R311). -/
structure Finding where
  kind : Ecc
  cached : Bool
  deriving DecidableEq, Repr

/-- ECC found nothing. -/
def Finding.clean : Finding := ⟨.clean, false⟩

/-- The circumstances of one Evpeal instruction: the die and role that execute it, or the host core (R14), which runs in the companion
role of R73 to R136; the cell time, what ECC found at the
fetch and in each word that the instruction reads from memory, in order (words not listed read clean), and how many
single-bit errors of registers its reads correct (R290). -/
structure Ctx where
  die : Ch
  companion : Bool
  host : Option (Fin 4)
  now : Time
  fetch : Finding
  data : List Finding
  regs : Nat
  deriving DecidableEq, Repr

/-- What ECC found in word `k` that the instruction reads. -/
def Ctx.word (c : Ctx) (k : Nat) : Finding := c.data.getD k .clean

/-- A core that takes interrupts (R104): the companion core of a logic die, or a host core. -/
inductive IrqCore where
  | companion (d : Ch)
  | host (n : Fin 4)
  deriving DecidableEq, Repr

/-- Who writes or reads a register (R83, R466). -/
inductive Party where
  | foldTask | companion | hostReq | debug | boot | hostFirmware | hostBar
  deriving DecidableEq, Repr

/-- A log record (R438). `data` holds the 80 data bits. -/
structure LogRec where
  time : Nat
  fold : Nat
  code : Nat
  origin : Nat
  data : Nat
  seq : Nat
  deriving DecidableEq, Repr

/-- A fault note (R325). -/
structure FaultNote where
  time : Nat
  fold : Nat
  first : Nat
  csrc : Nat
  cls : Nat
  devsafe : Bool
  wire : Bool
  forced : Bool
  merged : Nat
  detail : Nat
  deriving DecidableEq, Repr

/-- One confirmed assertion at a fault collector (R297, R299): its source, its DETAIL, the default class that the
hardware supplies with it where the default depends on the event, and whether it is a WIRE event or forced (R304). -/
structure FcEvent where
  src : Nat
  detail : Nat
  dyn : Option Nat
  wire : Bool
  forced : Bool
  deriving DecidableEq, Repr

/-- The way of a fault note (R303, R325): between the logic dies, from the host die to a logic die, or back. -/
inductive NoteWay where
  | crosslink | fromHost | toHost
  deriving DecidableEq, Repr

/-- The blocks of a logic die that have a lock bit (R467). -/
inductive DieBlock where
  | fold | fc | pwr | si | tp | so | lmp | adc | vct | gt | bist | pd
  deriving DecidableEq, Repr

/-- The blocks of the host die that have a lock bit (R471). -/
inductive HostBlock where
  | fc | stl | bb | pwr
  deriving DecidableEq, Repr

/-- A block with a lock bit (R12). -/
inductive LockSel where
  | die (d : Ch) (b : DieBlock)
  | host (b : HostBlock)
  deriving DecidableEq, Repr

/-- What a register write brings in its cycle (R13): the value written, and the W1C bits of the register that hardware sets. -/
structure WriteData where
  v : Word
  hw : Word
  deriving DecidableEq, Repr

/-- A read of a register with RC fields (R13): its address, and whether a hardware event sets the field in the same cycle. -/
structure RcRead where
  addr : Nat
  coincides : Bool
  deriving DecidableEq, Repr

/-- What the checkpoint's reads corrected (R290, R295): in triad mode the one core that the majority corrects, and the single-bit errors
of registers. -/
structure CkptFound where
  minority : Option (Fin 3)
  corrected : Nat
  deriving DecidableEq, Repr

/-- What ECC found on the way of a rollback (R290, R293, R311). `entry`: the address of a journal entry that read uncorrectable, and whether
it stayed so; `store`: what was found in the checkpoint store; `corrected`: the single-bit errors. -/
structure RollFound where
  entry : Option (Nat × Bool)
  store : Ecc
  corrected : Nat
  deriving DecidableEq, Repr

/-- A dark sample (R178): when its window started, and what it read. -/
structure DarkRead where
  start : Time
  high : Bool
  deriving DecidableEq, Repr

/-- The current through a switch as each die reads its own copy of it (R208, R209). -/
structure Flows where
  la : Bool
  lb : Bool
  deriving DecidableEq, Repr

/-- The commands of the block, in the order of spec/opcode_table.json. -/
inductive Instr where
  /-- WRITE_ACCESS (R10). -/
  | writeAccess (dom : Option Ch) (party : Party) (addr width : Nat) (w : WriteData) (t : Time)
  /-- LOCK (R12). -/
  | lock (b : LockSel) (t : Time)
  /-- FOLD_LOCK (R41). -/
  | foldLock (d : Ch) (t : Time)
  /-- SI_LOCK (R177). -/
  | siLock (d : Ch) (t : Time)
  /-- GT_LOCK (R425). -/
  | gtLock (d : Ch) (t : Time)
  /-- RC_FIELD_READ (R292). -/
  | rcFieldRead (d : Ch) (party : Party) (r : RcRead) (t : Time)
  /-- STILE_MESSAGE_DISCARDED (R17). -/
  | stileMessageDiscarded (l : Ch) (atHost : Bool) (t : Time)
  /-- CONTROL_WORD (R316). -/
  | controlWord (l : Ch) (atHost : Bool) (t : Time)
  /-- CONTROL_WORD_SEND (R316). -/
  | controlWordSend (l : Ch) (fromHost : Bool) (t : Time)
  /-- STILE_RESEND (R318). -/
  | stileResend (l : Ch) (atHost : Bool) (t : Time)
  /-- CONTROL_WORD_SILENCE (R319). -/
  | controlWordSilence (l : Ch) (atHost : Bool) (t : Time)
  /-- LASTING_LINK_FAULT (R320). -/
  | lastingLinkFault (l : Ch) (atHost : Bool) (t : Time)
  /-- CROSSLINK_FRAME (R32). -/
  | crosslinkFrame (d : Ch) (slot : Fin 3) (t : Time)
  /-- CROSSLINK_RESEND (R34). -/
  | crosslinkResend (d : Ch) (slot : Fin 3) (t : Time)
  /-- LASTING_CROSSLINK_FAULT (R34). -/
  | lastingCrosslinkFault (d : Ch) (slot : Fin 3) (t : Time)
  /-- CONTROL_LINK_RESEND (R311). -/
  | controlLinkResend (d : Ch) (frame : Fin 65536) (t : Time)
  /-- CONTROL_LINK_FAULT (R311). -/
  | controlLinkFault (d : Ch) (link : Fin 3) (frame : Fin 65536) (t : Time)
  /-- LAMP_LINK_FAULT (R228). -/
  | lampLinkFault (frame : Nat) (t : Time)
  /-- LAMP_LINK_TIMEOUT (R228). -/
  | lampLinkTimeout (t : Time)
  /-- CROOK_IN_LOW (R219). -/
  | crookInLow (x : Ch) (t : Time)
  /-- FOLD_START (R38); `inA`, `inB`: CROOK_IN_A and CROOK_IN_B as the die reads them at the freeze, where a low that R218
  ignores is no low. -/
  | foldStart (d : Ch) (start : Time) (inA inB : Bool) (t : Time)
  /-- SLOT_TIMER_EXPIRY (R146). -/
  | slotTimerExpiry (d : Ch) (t : Time)
  /-- EXCHANGE (R49). -/
  | exchange (d : Ch) (t : Time)
  /-- EXCHANGE_FRAME (R49). -/
  | exchangeFrame (d : Ch) (t : Time)
  /-- CHECKPOINT (R42). -/
  | checkpoint (d : Ch) (differ : Option (Fin 4096)) (found : CkptFound) (t : Time)
  /-- BUDGET (R100). -/
  | budget (d : Ch) (t : Time)
  /-- LOCKSTEP_MISMATCH (R291). -/
  | lockstepMismatch (d : Ch) (t : Time)
  /-- WINDOW_COMPARE (R288). -/
  | windowCompare (d : Ch) (differ : Bool) (t : Time)
  /-- TRIAD_MINORITY (R294). -/
  | triadMinority (d : Ch) (core : Fin 3) (t : Time)
  /-- ROLLBACK (R109). -/
  | rollback (d : Ch) (found : RollFound) (t : Time)
  /-- MISSED_FOLD (R61). -/
  | missedFold (t : Time)
  /-- OUTPUT_AGREEMENT (R53). -/
  | outputAgreement (d : Ch) (t : Time)
  /-- OUTPUT_AGREEMENT_FRAME (R54). -/
  | outputAgreementFrame (d : Ch) (t : Time)
  /-- END_OF_Y (R53). -/
  | endOfY (d : Ch) (t : Time)
  /-- FOLD_DONE (R324). -/
  | foldDone (l : Ch) (master : Bool) (t : Time)
  /-- MIRROR_SLOT_COMPLETE (R344). -/
  | mirrorSlotComplete (t : Time)
  /-- TIME_SYNC (R326). -/
  | timeSync (d : Ch) (t : Time)
  /-- FOLD_SNAP_LEASE (R65). -/
  | foldSnapLease (t : Time)
  /-- FOLD_SNAP_RELEASE (R65). -/
  | foldSnapRelease (t : Time)
  /-- LEASE_EXPIRY (R65). -/
  | leaseExpiry (t : Time)
  /-- SNAPSHOT_READ (R64). -/
  | snapshotRead (ofs : Fin 1048576) (n : Fin 4097) (t : Time)
  /-- BAR2_WRITE (R329). -/
  | bar2Write (ofs : Fin 1048576) (t : Time)
  /-- BAR0_READ (R473). -/
  | bar0Read (ofs : Fin 16777216) (n : Fin 4097) (t : Time)
  /-- DOWNLOAD_WINDOW_WRITE (R329). -/
  | downloadWindowWrite (ofs : Fin 16777216) (data : List Byte) (t : Time)
  /-- ADD (R120). -/
  | iAdd (c : Ctx) (wd wa wb : Fin 32)
  /-- SUB (R120). -/
  | iSub (c : Ctx) (wd wa wb : Fin 32)
  /-- AND (R120). -/
  | iAnd (c : Ctx) (wd wa wb : Fin 32)
  /-- OR (R120). -/
  | iOr (c : Ctx) (wd wa wb : Fin 32)
  /-- XOR (R120). -/
  | iXor (c : Ctx) (wd wa wb : Fin 32)
  /-- NOR (R120). -/
  | iNor (c : Ctx) (wd wa wb : Fin 32)
  /-- ANDN (R120). -/
  | iAndn (c : Ctx) (wd wa wb : Fin 32)
  /-- SLL (R120). -/
  | iSll (c : Ctx) (wd wa wb : Fin 32)
  /-- SRL (R120). -/
  | iSrl (c : Ctx) (wd wa wb : Fin 32)
  /-- SRA (R120). -/
  | iSra (c : Ctx) (wd wa wb : Fin 32)
  /-- ROR (R120). -/
  | iRor (c : Ctx) (wd wa wb : Fin 32)
  /-- SEQ (R120). -/
  | iSeq (c : Ctx) (wd wa wb : Fin 32)
  /-- SNE (R120). -/
  | iSne (c : Ctx) (wd wa wb : Fin 32)
  /-- SLT (R120). -/
  | iSlt (c : Ctx) (wd wa wb : Fin 32)
  /-- SGE (R120). -/
  | iSge (c : Ctx) (wd wa wb : Fin 32)
  /-- SLTU (R120). -/
  | iSltu (c : Ctx) (wd wa wb : Fin 32)
  /-- SGEU (R120). -/
  | iSgeu (c : Ctx) (wd wa wb : Fin 32)
  /-- MIN (R120). -/
  | iMin (c : Ctx) (wd wa wb : Fin 32)
  /-- MAX (R120). -/
  | iMax (c : Ctx) (wd wa wb : Fin 32)
  /-- MINU (R120). -/
  | iMinu (c : Ctx) (wd wa wb : Fin 32)
  /-- MAXU (R120). -/
  | iMaxu (c : Ctx) (wd wa wb : Fin 32)
  /-- CLZ (R120). -/
  | iClz (c : Ctx) (wd wa : Fin 32)
  /-- POPC (R120). -/
  | iPopc (c : Ctx) (wd wa : Fin 32)
  /-- SEXTB (R120). -/
  | iSextb (c : Ctx) (wd wa : Fin 32)
  /-- SEXTH (R120). -/
  | iSexth (c : Ctx) (wd wa : Fin 32)
  /-- SEXTW (R120). -/
  | iSextw (c : Ctx) (wd wa : Fin 32)
  /-- BSWAP (R120). -/
  | iBswap (c : Ctx) (wd wa : Fin 32)
  /-- MUL (R120). -/
  | iMul (c : Ctx) (wd wa wb : Fin 32)
  /-- MULH (R120). -/
  | iMulh (c : Ctx) (wd wa wb : Fin 32)
  /-- MULHU (R120). -/
  | iMulhu (c : Ctx) (wd wa wb : Fin 32)
  /-- DIV (R121). -/
  | iDiv (c : Ctx) (wd wa wb : Fin 32)
  /-- DIVU (R121). -/
  | iDivu (c : Ctx) (wd wa wb : Fin 32)
  /-- REM (R121). -/
  | iRem (c : Ctx) (wd wa wb : Fin 32)
  /-- REMU (R121). -/
  | iRemu (c : Ctx) (wd wa wb : Fin 32)
  /-- ADDI (R122). -/
  | iAddi (c : Ctx) (wd wa : Fin 32) (imm : Fin 65536)
  /-- ANDI (R122). -/
  | iAndi (c : Ctx) (wd wa : Fin 32) (imm : Fin 65536)
  /-- ORI (R122). -/
  | iOri (c : Ctx) (wd wa : Fin 32) (imm : Fin 65536)
  /-- XORI (R122). -/
  | iXori (c : Ctx) (wd wa : Fin 32) (imm : Fin 65536)
  /-- SLTI (R122). -/
  | iSlti (c : Ctx) (wd wa : Fin 32) (imm : Fin 65536)
  /-- SLTIU (R122). -/
  | iSltiu (c : Ctx) (wd wa : Fin 32) (imm : Fin 65536)
  /-- MOVZ (R122). -/
  | iMovz (c : Ctx) (wd : Fin 32) (hw : Fin 4) (imm : Fin 65536)
  /-- MOVK (R122). -/
  | iMovk (c : Ctx) (wd : Fin 32) (hw : Fin 4) (imm : Fin 65536)
  /-- SHI (R122). -/
  | iShi (c : Ctx) (wd wa : Fin 32) (kind : Fin 4) (sh : Fin 64)
  /-- EXTU (R122). -/
  | iExtu (c : Ctx) (wd wa : Fin 32) (lsb w1 : Fin 64)
  /-- LDB (R123). -/
  | iLdb (c : Ctx) (wd wa : Fin 32) (off : Fin 65536)
  /-- LDH (R123). -/
  | iLdh (c : Ctx) (wd wa : Fin 32) (off : Fin 65536)
  /-- LDW (R123). -/
  | iLdw (c : Ctx) (wd wa : Fin 32) (off : Fin 65536)
  /-- LDD (R123). -/
  | iLdd (c : Ctx) (wd wa : Fin 32) (off : Fin 65536)
  /-- STB (R123). -/
  | iStb (c : Ctx) (ws wa : Fin 32) (off : Fin 65536)
  /-- STH (R123). -/
  | iSth (c : Ctx) (ws wa : Fin 32) (off : Fin 65536)
  /-- STW (R123). -/
  | iStw (c : Ctx) (ws wa : Fin 32) (off : Fin 65536)
  /-- STD (R123). -/
  | iStd (c : Ctx) (ws wa : Fin 32) (off : Fin 65536)
  /-- BEQ (R124). -/
  | iBeq (c : Ctx) (wa wb : Fin 32) (off : Fin 65536)
  /-- LOOPN (R125). -/
  | iLoopn (c : Ctx) (len : Fin 1024) (count : Fin 65536)
  /-- CALL (R124). -/
  | iCall (c : Ctx) (off : Fin 67108864)
  /-- RET (R124). -/
  | iRet (c : Ctx)
  /-- JR (R124). -/
  | iJr (c : Ctx) (wa : Fin 32)
  /-- CALLR (R124). -/
  | iCallr (c : Ctx) (wa : Fin 32)
  /-- IN (R126). -/
  | iIn (c : Ctx) (wd wa : Fin 32) (imm : Fin 128)
  /-- OUT (R126). -/
  | iOut (c : Ctx) (wd wa : Fin 32)
  /-- OUTC (R126). -/
  | iOutc (c : Ctx) (wd wa : Fin 32)
  /-- FOLD (R93). -/
  | iFold (c : Ctx)
  /-- ASPECT (R129). -/
  | iAspect (c : Ctx) (aspect : Fin 64)
  /-- APROOF (R129). -/
  | iAproof (c : Ctx) (wd : Fin 32) (aspect : Fin 64)
  /-- TSEND (R130). -/
  | iTsend (c : Ctx) (wd wa wb : Fin 32)
  /-- TRECV (R131). -/
  | iTrecv (c : Ctx) (wd wa wb : Fin 32)
  /-- MOVS (R132). -/
  | iMovs (c : Ctx) (wd : Fin 32) (index : Fin 4096)
  /-- MOVT (R132). -/
  | iMovt (c : Ctx) (wa : Fin 32) (index : Fin 4096)
  /-- RETE (R132). -/
  | iRete (c : Ctx)
  /-- WAITEV (R104). -/
  | iWaitev (c : Ctx)
  /-- INTERRUPT (R104). -/
  | interrupt (core : IrqCore) (t : Time)
  /-- CKIN (R133). -/
  | iCkin (c : Ctx) (unit : Fin 4) (b1 : Fin 8) (wa : Fin 32)
  /-- CKEND (R133). -/
  | iCkend (c : Ctx) (unit : Fin 4) (wd : Fin 32)
  /-- CKRD (R133). -/
  | iCkrd (c : Ctx) (unit : Fin 4) (wd : Fin 32)
  /-- LOG (R134). -/
  | iLog (c : Ctx) (wa wb : Fin 32) (code : Fin 65536)
  /-- GTRD (R135). -/
  | iGtrd (c : Ctx) (n : Fin 16) (wd : Fin 32)
  /-- GTSNAP (R135). -/
  | iGtsnap (c : Ctx) (n : Fin 16) (wd : Fin 32)
  /-- GTCMP0 (R135). -/
  | iGtcmp0 (c : Ctx) (n : Fin 16) (wa : Fin 32)
  /-- GTCMP1 (R135). -/
  | iGtcmp1 (c : Ctx) (n : Fin 16) (wa : Fin 32)
  /-- DOMAIN (R136). -/
  | iDomain (c : Ctx) (wd wa wb : Fin 32)
  /-- SAND (R139). -/
  | iSand (c : Ctx) (wd wa wb : Fin 32)
  /-- SOR (R139). -/
  | iSor (c : Ctx) (wd wa wb : Fin 32)
  /-- SANDN (R139). -/
  | iSandn (c : Ctx) (wd wa wb : Fin 32)
  /-- SNOT (R139). -/
  | iSnot (c : Ctx) (wd wa : Fin 32)
  /-- SALL (R139). -/
  | iSall (c : Ctx) (wd wa : Fin 32)
  /-- SANY (R139). -/
  | iSany (c : Ctx) (wd wa : Fin 32)
  /-- SCHK (R139). -/
  | iSchk (c : Ctx) (wd wa : Fin 32)
  /-- SCLR (R139). -/
  | iSclr (c : Ctx) (wd : Fin 32)
  /-- SBMOV (R140). -/
  | iSbmov (c : Ctx) (wd wa bd ba : Fin 32)
  /-- SBNOT (R140). -/
  | iSbnot (c : Ctx) (wd wa bd ba : Fin 32)
  /-- SBCAST (R140). -/
  | iSbcast (c : Ctx) (wd wa ba : Fin 32)
  /-- SPKLO (R141). -/
  | iSpklo (c : Ctx) (wd wa wb : Fin 32)
  /-- SPKHI (R141). -/
  | iSpkhi (c : Ctx) (wd wa wb : Fin 32)
  /-- SROT (R141). -/
  | iSrot (c : Ctx) (wd wa wb : Fin 32)
  /-- SFROMI (R141). -/
  | iSfromi (c : Ctx) (wd wa : Fin 32)
  /-- EQV (R154). -/
  | iEqv (c : Ctx) (wd wa : Fin 32) (slot : Fin 1024) (variant : Fin 64)
  /-- ANTV (R154). -/
  | iAntv (c : Ctx) (wd wa : Fin 32) (slot : Fin 1024) (variant : Fin 64)
  /-- TWOH (R155). -/
  | iTwoh (c : Ctx) (wd wa : Fin 32) (slot : Fin 1024) (variant : Fin 64)
  /-- RSTI (R156). -/
  | iRsti (c : Ctx) (wd wa : Fin 32) (slot : Fin 1024) (variant : Fin 64)
  /-- EDM (R157). -/
  | iEdm (c : Ctx) (wd wa : Fin 32) (slot : Fin 1024) (variant : Fin 64)
  /-- MUTE (R158). -/
  | iMute (c : Ctx) (wd wa : Fin 32) (slot : Fin 1024) (variant : Fin 64)
  /-- TON (R159). -/
  | iTon (c : Ctx) (wd wa : Fin 32) (slot : Fin 1024)
  /-- TOF (R159). -/
  | iTof (c : Ctx) (wd wa : Fin 32) (slot : Fin 1024)
  /-- LIMIT (R160). -/
  | iLimit (c : Ctx) (wd wa : Fin 32) (slot : Fin 1024) (variant : Fin 64)
  /-- ZONE (R161). -/
  | iZone (c : Ctx) (wd wa : Fin 32) (z : Fin 16)
  /-- ZONE_Q (R161). -/
  | iZoneQ (c : Ctx) (wd wa : Fin 32) (z : Fin 16)
  /-- SAMPLE_WINDOW (R175), of input `k` of group `g`. -/
  | sampleWindow (d : Ch) (g : Fin 12) (k : Fin 4) (start t : Time) (high : Bool)
  /-- DARK_SAMPLE (R178). -/
  | darkSample (d : Ch) (i : Fin 48) (seen : DarkRead) (t : Time)
  /-- FRONT_END_MISMATCH (R174). -/
  | frontEndMismatch (d : Ch) (g : Fin 12) (type wet : Bool) (t : Time)
  /-- READBACK_CHANGE (R181). -/
  | readbackChange (d : Ch) (j : Fin 8) (level : Bool) (t : Time)
  /-- BLANKING_END (R186). -/
  | blankingEnd (d : Ch) (j : Fin 8) (t : Time)
  /-- NO_VALID_SOURCE_PULSE (R186). -/
  | noValidSourcePulse (d : Ch) (i : Fin 48) (t : Time)
  /-- SHORTLOW (R183). -/
  | shortlow (d : Ch) (j : Fin 8) (t : Time)
  /-- STUCKHIGH (R183). -/
  | stuckhigh (d : Ch) (j : Fin 8) (t : Time)
  /-- BADWIDTH (R185). -/
  | badwidth (d : Ch) (j : Fin 8) (t : Time)
  /-- NOPULSE (R183). -/
  | nopulse (d : Ch) (j : Fin 8) (t : Time)
  /-- SOURCE_OVERHEAT (R180). -/
  | sourceOverheat (d : Ch) (j : Fin 8) (t : Time)
  /-- ANALOG_OVERCURRENT (R196). -/
  | analogOvercurrent (d : Ch) (n : Fin 8) (t : Time)
  /-- ANALOG_RECONNECT (R196). -/
  | analogReconnect (d : Ch) (n : Fin 8) (t : Time)
  /-- CURRENT_LIMIT_EXPIRY (R203). -/
  | currentLimitExpiry (n : Fin 32) (t : Time)
  /-- THERMAL_SHUTDOWN (R203). -/
  | thermalShutdown (sw : Ch) (n : Fin 32) (t : Time)
  /-- GROUP_OVERLOAD (R204). -/
  | groupOverload (d : Ch) (g : Fin 4) (curr vout : Fin 65536) (t : Time)
  /-- STAYON (R209). -/
  | stayon (d : Ch) (n : Fin 32) (flows : Bool) (t : Time)
  /-- NOON (R209). -/
  | noon (d : Ch) (n : Fin 32) (mid : Bool) (t : Time)
  /-- SHORT_CLEAR (R214). -/
  | shortClear (d : Ch) (n : Fin 32) (t : Time)
  /-- OFF_PULSE (R211). -/
  | offPulse (sw : Ch) (n : Fin 32) (t : Time)
  /-- OFF_PULSE_END (R211). -/
  | offPulseEnd (sw : Ch) (n : Fin 32) (nodeA midA nodeB midB : Bool) (flows : Flows) (t : Time)
  /-- ON_PULSE (R212). -/
  | onPulse (d : Ch) (n : Fin 32) (t : Time)
  /-- ON_PULSE_END (R212). -/
  | onPulseEnd (d : Ch) (n : Fin 32) (high mid : Bool) (lowBefore highDuring : BitVec 32) (t : Time)
  /-- CAPTURE_COMPLETE (R217). -/
  | captureComplete (d : Ch) (n : Fin 32) (points : List (BitVec 16)) (t : Time)
  /-- CROOK_PULSE (R221). -/
  | crookPulse (d : Ch) (low : Bool) (t : Time)
  /-- CROOK_PARTNER_CHECK (R221). -/
  | crookPartnerCheck (d : Ch) (high : Bool) (t : Time)
  /-- CROOK_OUTPUT_LOW (R221). -/
  | crookOutputLow (d : Ch) (t : Time)
  /-- DIMMING_PERIOD_START (R225). -/
  | dimmingPeriodStart (d : Ch) (n : Fin 48) (t : Time)
  /-- FLASH_EDGE (R232). -/
  | flashEdge (d : Ch) (f : Fin 8) (t : Time)
  /-- OPEN (R227). -/
  | stageOpen (n : Fin 48) (t : Time)
  /-- OCP (R227). -/
  | stageOcp (n : Fin 48) (t : Time)
  /-- LXFAIL (R227). -/
  | stageLxfail (n : Fin 48) (t : Time)
  /-- STAGE_OVT (R227). -/
  | stageOvt (n : Fin 48) (hot : Bool) (t : Time)
  /-- LAMP_CHECK_SAMPLE (R235). -/
  | lampCheckSample (n : Fin 48) (curr volt : Fin 65536) (t : Time)
  /-- NOTALIVE (R237). -/
  | notalive (n : Fin 48) (t : Time)
  /-- OPTICAL_WINDOW (R241). -/
  | opticalWindow (k : Fin 8) (result : Fin 65536) (start t : Time)
  /-- COLOUR_LOOP (R243). -/
  | colourLoop (k : Fin 8) (light : Fin 65536) (t : Time)
  /-- NEIGHBOUR_TEST (R244). -/
  | neighbourTest (volt : Fin 65536) (t : Time)
  /-- PE_TICK (R248). -/
  | peTick (t : Time)
  /-- SET (R249). -/
  | peSet (e : Fin 8) (k : Fin 16) (t : Time)
  /-- RAMP (R250). -/
  | peRamp (e : Fin 8) (k : Fin 16) (s1 : Fin 256) (t : Time)
  /-- MASK (R249). -/
  | peMask (e : Fin 8) (m : Fin 256) (t : Time)
  /-- SHIFT (R251). -/
  | peShift (e : Fin 8) (down link : Bool) (t : Time)
  /-- LDC (R249). -/
  | peLdc (e : Fin 8) (i : Fin 4) (n1 : Fin 256) (t : Time)
  /-- DJNZ (R249). -/
  | peDjnz (e : Fin 8) (i : Fin 4) (a : Fin 64) (t : Time)
  /-- JMP (R249). -/
  | peJmp (e : Fin 8) (a : Fin 64) (t : Time)
  /-- WAIT (R249). -/
  | peWait (e : Fin 8) (t1 : Fin 4096) (t : Time)
  /-- WAITF (R249). -/
  | peWaitf (e : Fin 8) (t : Time)
  /-- WAITP (R249). -/
  | peWaitp (e : Fin 8) (f : Fin 8) (t : Time)
  /-- HALT (R249). -/
  | peHalt (e : Fin 8) (t : Time)
  /-- SWAP (R255). -/
  | peSwap (e : Fin 8) (t : Time)
  /-- FSWAP (R256). -/
  | peFswap (e : Fin 8) (t : Time)
  /-- RUN (R258). -/
  | peRun (e : Fin 8) (on : Bool) (t : Time)
  /-- PAUSE (R258). -/
  | pePause (e : Fin 8) (on : Bool) (t : Time)
  /-- LAMP_DARKENING (R229). -/
  | lampDarkening (t : Time)
  /-- FRAME_START (R262). -/
  | frameStart (t : Time)
  /-- LINE_SLOT (R262). -/
  | lineSlot (l : Fin 16) (trip : Bool) (below : BitVec 32) (high : BitVec 16) (t : Time)
  /-- MATRIX_NEIGHBOUR_TEST (R266). -/
  | matrixNeighbourTest (volt : Fin 65536) (t : Time)
  /-- FLIP (R263). -/
  | mxFlip (t : Time)
  /-- MX_CFG_WRITE (R263). -/
  | mxCfgWrite (party : Party) (v : Word) (t : Time)
  /-- CONSTITUENT (R270). -/
  | constituent (d : Ch) (c : Fin 2) (g : Nat)
  /-- CONVERSION (R281). -/
  | conversion (d : Ch) (c : Fin 2) (slice : Fin 8) (late : Bool) (diff : Fin 65536) (t : Time)
  /-- RESULT (R277): the average is `code` and `frac` / 256; `at0`, `atFull`: a constituent converted at 0, at 65,535. -/
  | adcResult (d : Ch) (c : Fin 2) (e : Fin 16) (urg : Bool) (code : Fin 65536) (frac : Fin 256) (at0 atFull : Bool) (hold : Nat)
  /-- TRIGGER (R272). -/
  | adcTrigger (d : Ch) (src : Fin 4) (timer : Fin 16) (t : Time)
  /-- ADC_SWTRIG (R272). -/
  | adcSwtrig (d : Ch) (mask : Fin 4) (t : Time)
  /-- ADC_URG (R274). -/
  | adcUrg (d : Ch) (req0 : Bool) (e0 : Fin 16) (req1 : Bool) (e1 : Fin 16) (t : Time)
  /-- ADC_POP (R277). -/
  | adcPop (d : Ch) (c : Fin 2) (party : Party) (t : Time)
  /-- REFRDY (R279). -/
  | refrdy (d : Ch) (t : Time)
  /-- SHADOW_MOVE (R280). -/
  | shadowMove (d : Ch) (c : Fin 2) (t : Time)
  /-- SPARE_SELF_CHECK (R280). -/
  | spareSelfCheck (d : Ch) (c : Fin 2) (code : Fin 65536) (t : Time)
  /-- SLOWCAL (R280), of the `j`-th 100 ms. -/
  | slowcal (d : Ch) (c : Fin 2) (j : Nat) (t : Time)
  /-- ZERO (R284). -/
  | calZero (d : Ch) (c : Fin 2) (k : Fin 16) (party : Party) (t : Time)
  /-- FULL (R284). -/
  | calFull (d : Ch) (c : Fin 2) (k : Fin 16) (party : Party) (t : Time)
  /-- CLEAR (R284). -/
  | calClear (d : Ch) (c : Fin 2) (k : Fin 16) (party : Party) (t : Time)
  /-- CALIBRATION_DONE (R284). -/
  | calibrationDone (d : Ch) (c : Fin 2) (sum : Nat) (sat : Bool) (t : Time)
  /-- FAULT_EVENT (R301). -/
  | faultEvent (col : Option Ch) (events : List (Fin 512 × BitVec 48)) (released : List (Fin 512)) (t : Time)
  /-- WIRE (R298). -/
  | wire (col : Option Ch) (src : Fin 512) (detail : BitVec 48) (t : Time)
  /-- RECORD_CLOSE (R305). -/
  | recordClose (col : Option Ch) (t : Time)
  /-- RESUME_PROPOSAL (R306). -/
  | resumeProposal (d : Ch) (t : Time)
  /-- RESUMPTION (R306). -/
  | resumption (t : Time)
  /-- FC_FORCE (R304). -/
  | fcForce (col : Option Ch) (wire : Bool) (k : Fin 8) (v : Word) (party : Party) (t : Time)
  /-- FC_RECCNT_WRITE (R308). -/
  | fcReccntWrite (col : Option Ch) (v : Word) (withClose : Bool) (t : Time)
  /-- FAULT_NOTE (R325). -/
  | faultNote (way : NoteWay) (d : Ch) (t : Time)
  /-- HELLO (R327). -/
  | hello (l : Ch) (atHost : Bool) (t : Time)
  /-- AUTO_DOWNLOAD (R339). -/
  | autoDownload (t : Time)
  /-- IMAGE_BEGIN (R334). -/
  | imageBegin (d : Ch) (t : Time)
  /-- IMAGE_CHUNK (R334). -/
  | imageChunk (d : Ch) (t : Time)
  /-- IMAGE_END (R334). -/
  | imageEnd (d : Ch) (t : Time)
  /-- PARAM_WRITE (R334). -/
  | paramWrite (d : Ch) (t : Time)
  /-- FIELD_BOOT (R334). -/
  | fieldBoot (d : Ch) (stile : List (Fin 34)) (xl : List (Fin 101)) (t : Time)
  /-- DOWNLOAD_TIMEOUT (R334). -/
  | downloadTimeout (d : Ch) (t : Time)
  /-- CROSSLINK_TIMEOUT (R336). -/
  | crosslinkTimeout (d : Ch) (t : Time)
  /-- IMAGE_VERDICT (R336). -/
  | imageVerdict (l : Ch) (t : Time)
  /-- PARAM_ACK (R327). -/
  | paramAck (l : Ch) (t : Time)
  /-- HOST_REQ_READ (R340). -/
  | hostReqRead (d : Ch) (t : Time)
  /-- HOST_REQ_WRITE (R340). -/
  | hostReqWrite (d : Ch) (t : Time)
  /-- HOST_REQ_START (R341). -/
  | hostReqStart (d : Ch) (t : Time)
  /-- HOST_REQ_RESTART (R342). -/
  | hostReqRestart (d : Ch) (t : Time)
  /-- HOST_REQ_REPLY (R345). -/
  | hostReqReply (l : Ch) (t : Time)
  /-- STL_REQ_READ (R345). -/
  | stlReqRead (dies : Fin 4) (tag : Fin 65536) (party : Party) (t : Time)
  /-- STL_REQ_WRITE (R345). -/
  | stlReqWrite (dies : Fin 4) (tag : Fin 65536) (party : Party) (t : Time)
  /-- STL_REQ_START (R341). -/
  | stlReqStart (tag : Fin 65536) (party : Party) (t : Time)
  /-- STL_REQ_RESTART (R342). -/
  | stlReqRestart (tag : Fin 65536) (party : Party) (t : Time)
  /-- REQUEST_TIMEOUT (R345). -/
  | requestTimeout (l : Ch) (t : Time)
  /-- BOOT (R333). -/
  | boot (t : Time)
  /-- FIELD (R339). -/
  | field (party : Party) (t : Time)
  /-- RELEASE (R338). -/
  | release (t : Time)
  /-- READ_ID (R330). -/
  | readId (t : Time)
  /-- READ_STATUS (R330). -/
  | readStatus (t : Time)
  /-- WINDOW_WRITE (R330). -/
  | windowWrite (ofs : Fin 16777216) (data : List Byte) (crc : BitVec 32) (t : Time)
  /-- WINDOW_READ (R330). -/
  | windowRead (ofs : Fin 16777216) (n : Nat) (t : Time)
  /-- REGISTER_WRITE (R330). -/
  | registerWrite (ofs : Fin 16777216) (v : Word) (crc : BitVec 32) (t : Time)
  /-- REGISTER_READ (R330). -/
  | registerRead (ofs : Fin 16777216) (t : Time)
  /-- TRANSMIT_RING_ENTRY (R345). -/
  | transmitRingEntry (t : Time)
  /-- LOG_RECORD (R441). -/
  | logRecord (l : Ch) (t : Time)
  /-- LOG_RECORD_SEND (R440). -/
  | logRecordSend (d : Ch) (t : Time)
  /-- LOG_STREAM (R442). -/
  | logStream (master : Bool) (t : Time)
  /-- VCT_FRAME (R357). -/
  | vctFrame (port : Fin 2) (frame : List Byte) (rtag : Option (BitVec 16)) (t : Time)
  /-- VCT_TX (R356). -/
  | vctTx (l : Ch) (t : Time)
  /-- UNPAIRED (R356). -/
  | unpaired (t : Time)
  /-- VCT_RX (R358). -/
  | vctRx (d : Ch) (t : Time)
  /-- VCT_ANNOUNCEMENT (R359). -/
  | vctAnnouncement (d : Ch) (t : Time)
  /-- STOP_SUPERVISION (R362). -/
  | stopSupervision (d : Ch) (t : Time)
  /-- BELLWETHER_ROLE (R363). -/
  | bellwetherRole (t : Time)
  /-- CELL_FOLD_CLOSE (R363). -/
  | cellFoldClose (d : Ch) (t : Time)
  /-- BEACON (R363). -/
  | beacon (d : Ch) (t : Time)
  /-- FSCLR (R362). -/
  | fsclr (d : Ch) (t : Time)
  /-- TLARM (R365). -/
  | tlarm (d : Ch) (t : Time)
  /-- APPLY (R348). -/
  | apply (p : Fin 2) (t : Time)
  /-- GRANDMASTER_LOSS (R351). -/
  | grandmasterLoss (t : Time)
  /-- HOLDOVER_EXPIRY (R351). -/
  | holdoverExpiry (t : Time)
  /-- BRING_UP_STEP (R374). -/
  | bringUpStep (dom : Option Ch) (k : Fin 11) (slow : Nat) (t : Time)
  /-- FIXED_DELAY_EXPIRY (R376). -/
  | fixedDelayExpiry (dom : Option Ch) (k : Fin 11) (faulted : Bool) (slow : Nat) (t : Time)
  /-- TAKE_DOWN (R377). -/
  | takeDown (dom : Option Ch) (k : Fin 11) (t : Time)
  /-- PWR_HDOM_TARGET (R382). -/
  | pwrHdomTarget (k : Fin 6) (target : Fin 4) (party : Party) (t : Time)
  /-- PWR_PL_REQ (R387). -/
  | pwrPlReq (d : Ch) (pl : Fin 4) (party : Party) (t : Time)
  /-- LEVEL_READY (R387). -/
  | levelReady (d : Ch) (t : Time)
  /-- CLOCK_SWITCH (R387). -/
  | clockSwitch (t : Time)
  /-- LEVEL_ABANDON (R387). -/
  | levelAbandon (t : Time)
  /-- PWR_HPL_REQ (R388). -/
  | pwrHplReq (pl : Fin 4) (party : Party) (t : Time)
  /-- PWR_HWAKE_FIELD (R381). -/
  | pwrHwakeField (v : Word) (party : Party) (t : Time)
  /-- POWER_REQ_REQUEST (R381). -/
  | powerReqRequest (d : Ch) (t : Time)
  /-- POWER_REQ_STATE_REPORT (R379). -/
  | powerReqStateReport (l : Ch) (t : Time)
  /-- POWER_REQ_GRANT (R327). -/
  | powerReqGrant (l : Ch) (t : Time)
  /-- POWER_REQ_REFUSAL (R327). -/
  | powerReqRefusal (l : Ch) (t : Time)
  /-- WAKE (R385). -/
  | wake (d : Ch) (src : Fin 3) (i : Fin 48) (t : Time)
  /-- HOST_WAKE (R385). -/
  | hostWake (src : Fin 4) (rtc : BitVec 48) (t : Time)
  /-- VF24_LOW (R392). -/
  | vf24Low (mv10 : Fin 1900) (t : Time)
  /-- SAVE (R389). -/
  | save (dom : Option Ch) (k : Fin 6) (t : Time)
  /-- VF24_BROWNOUT (R393). -/
  | vf24Brownout (lost : Bool) (t : Time)
  /-- VF24_OVERVOLTAGE (R478). -/
  | vf24Overvoltage (mv10 : Fin 65536) (t : Time)
  /-- WARM_RETURN (R394). -/
  | warmReturn (failA failB : Bool) (slow : Nat) (t : Time)
  /-- FIELD_POWER_UP (R372). -/
  | fieldPowerUp (mv10 : Fin 65536) (t : Time)
  /-- FRST_ASSERT (R396). -/
  | frstAssert (t : Time)
  /-- FRST_RELEASE (R396). -/
  | frstRelease (t : Time)
  /-- NRST_H_ASSERT (R396). -/
  | nrstHAssert (t : Time)
  /-- NRST_H_RELEASE (R333). -/
  | nrstHRelease (lanes : List (Fin 68)) (t : Time)
  /-- PROGRAM_KEY_SLOT (R403). -/
  | programKeySlot (slot : Fin 4) (party : Party) (t : Time)
  /-- REVOKE_KEY_SLOT (R403). -/
  | revokeKeySlot (slot : Fin 4) (party : Party) (t : Time)
  /-- PROGRAM_IK (R403). -/
  | programIk (party : Party) (t : Time)
  /-- ADVANCE_LIFECYCLE (R403). -/
  | advanceLifecycle (lct : Fin 4) (party : Party) (t : Time)
  /-- RAISE_ARB (R403). -/
  | raiseArb (arbt : Fin 128) (party : Party) (t : Time)
  /-- CHREQ (R408). -/
  | chreq (party : Party) (t : Time)
  /-- CHALLENGE_READY (R408). -/
  | challengeReady (t : Time)
  /-- CHALLENGE_EXPIRY (R408). -/
  | challengeExpiry (t : Time)
  /-- VERIFY (R408). -/
  | verify (party : Party) (t : Time)
  /-- VERIFICATION (R408). -/
  | verification (t : Time)
  /-- CHREQ_REFUSAL_END (R409). -/
  | chreqRefusalEnd (t : Time)
  /-- CLOSE (R410). -/
  | close (party : Party) (t : Time)
  /-- OPENREQ (R407). -/
  | openreq (party : Party) (t : Time)
  /-- TTL_EXPIRY (R410). -/
  | ttlExpiry (t : Time)
  /-- DEBUG_OPEN (R412). -/
  | debugOpen (d : Ch) (t : Time)
  /-- DEBUG_CLOSE (R412). -/
  | debugClose (d : Ch) (t : Time)
  /-- DEBUG_READ (R413). -/
  | debugRead (d : Ch) (t : Time)
  /-- DEBUG_WRITE (R413). -/
  | debugWrite (d : Ch) (t : Time)
  /-- DEBUG_HALT (R414). -/
  | debugHalt (d : Ch) (t : Time)
  /-- RESUME (R413). -/
  | resume (d : Ch) (t : Time)
  /-- DEBUG_STEP (R413). -/
  | debugStep (d : Ch) (t : Time)
  /-- REGRD (R413). -/
  | regrd (d : Ch) (t : Time)
  /-- REGWR (R413). -/
  | regwr (d : Ch) (t : Time)
  /-- BKPT (R413). -/
  | bkpt (d : Ch) (t : Time)
  /-- BKCLR (R413). -/
  | bkclr (d : Ch) (t : Time)
  /-- BREAKPOINT_HIT (R414). -/
  | breakpointHit (d : Ch) (k : Fin 4) (c : Fin 3) (t : Time)
  /-- HOLD_NOTE (R414). -/
  | holdNote (d : Ch) (t : Time)
  /-- DEBUG_RSP (R413). -/
  | debugRsp (l : Ch) (t : Time)
  /-- IDCODE (R411). -/
  | idcode
  /-- BYPASS (R411). -/
  | bypass
  /-- SAMPLE_PRELOAD (R411). -/
  | samplePreload (levels : Nat)
  /-- EXTEST (R411). -/
  | extest (levels : Nat)
  /-- DAP (R411). -/
  | dap (addr : Fin 4194432) (write : Option Word)
  /-- TIMER_TICK (R424). -/
  | timerTick (d : Ch) (n : Fin 16) (t : Time)
  /-- GT_CMP_WRITE (R428). -/
  | gtCmpWrite (d : Ch) (n : Fin 16) (j : Fin 2) (v : BitVec 32) (t : Time)
  /-- GT_CNT_WRITE (R429). -/
  | gtCntWrite (d : Ch) (n : Fin 16) (v : BitVec 32) (withTick : Bool) (t : Time)
  /-- SNAP (R430). -/
  | snap (d : Ch) (n : Fin 16) (t : Time)
  /-- GT_CAP_READ (R431). -/
  | gtCapRead (d : Ch) (n : Fin 16) (party : Party) (t : Time)
  /-- CK_CLAIM (R435). -/
  | ckClaim (d : Ch) (u : Fin 4) (party : Party) (t : Time)
  /-- CK_RELEASE (R435). -/
  | ckRelease (d : Ch) (u : Fin 4) (party : Party) (t : Time)
  /-- GO (R437). -/
  | go (d : Ch) (u : Fin 4) (party : Party) (t : Time)
  /-- DMA_RUN_END (R437). -/
  | dmaRunEnd (d : Ch) (u : Fin 4) (ecc : Ecc) (at_ : Nat) (t : Time)
  /-- LANE (R449). -/
  | bistLane (d : Ch) (t : Time)
  /-- PIN (R449). -/
  | bistPin (d : Ch) (t : Time)
  /-- NEIGHBOUR (R449). -/
  | bistNeighbour (d : Ch) (t : Time)
  /-- SLICE (R449). -/
  | bistSlice (d : Ch) (t : Time)
  /-- FUSE (R461). -/
  | bistFuse (d : Ch) (t : Time)
  /-- TEST_END (R456). -/
  | testEnd (d : Ch) (fails transient pairs : Nat) (codes : List (Fin 256)) (t : Time)
  /-- BIST_RES (R451). -/
  | bistRes (l : Ch) (t : Time)
  /-- SOFT_REPAIR_WRITE (R459). -/
  | softRepairWrite (d : Ch) (seg : Fin 13) (k : Fin 12) (lane : Fin 256) (valid : Bool) (party : Party) (t : Time)
  /-- UNASSIGNED_ENCODING (R112). -/
  | unassigned (c : Ctx)
  /-- WAKE_NOTE (R385). -/
  | wakeNote (d : Ch) (t : Time)
  /-- LINK_RETURNED (R320). -/
  | linkReturned (l : Ch) (atHost : Bool) (t : Time)
  /-- TIME_SYNC_SEND (R326). -/
  | timeSyncSend (t : Time)
  /-- GRANDMASTER_SYNC (R351). -/
  | grandmasterSync (gm : Bool) (offset : BitVec 32) (t : Time)
  /-- BRIDGE_FRAME (R349). -/
  | bridgeFrame (port : Fin 3) (dmac smac : BitVec 48) (vid : Fin 4096) (pcp : Fin 8) (len : Fin 1523) (full : BitVec 3) (t : Time)
  /-- SOURCE_COOLED (R180). -/
  | sourceCooled (d : Ch) (j : Fin 8) (t : Time)
  /-- OTP_COMMAND_DONE (R403). -/
  | otpCommandDone (cut : Option Nat) (t : Time)
  /-- HOST_SUPPLY_LOW (R477). -/
  | hostSupplyLow (t : Time)
  /-- DOMAIN_FAILURE (R30). -/
  | domainFailure (d : Ch) (k : Fin 10) (t : Time)
  deriving DecidableEq, Repr

end Sys2Proof
end

