-- ==== Sys2Proof/Decode.lean ====
section
/-! DEFINITION. Decoding. spec/opcode_table.json gives no row bits, so no word spells a command of the block's own interface; the
instruction words of the Evpeal cores (R112 to R137, R139 to R142) do pick a row, and `decodeInstr` says which. -/

namespace Sys2Proof

/-- The command that a word of `nbits` bits spells by the table's bits: none, since no row of the table has bits. -/
def decodeTableWord (_nbits _w : Nat) : Option Instr := none

/-- The field of `w` that begins at bit `lo` and takes `n` values (R113). -/
def wordField (w : BitVec 32) (lo n : Nat) [NeZero n] : Fin n := Fin.ofNat n (w.toNat >>> lo)

/-- The major opcode, bits [31:26] (R112). -/
def majorOf (w : BitVec 32) : Nat := wordField w 26 64

/-- Bits [25:21]: wd, ws of a store, or wa of the B format (R113). -/
def wordD (w : BitVec 32) : Fin 32 := wordField w 21 32

/-- Bits [20:16]: wa, or wb of the B format (R113). -/
def wordA (w : BitVec 32) : Fin 32 := wordField w 16 32

/-- Bits [15:11]: wb of the A and S formats, index d of the SB format (R113). -/
def wordB (w : BitVec 32) : Fin 32 := wordField w 11 32

/-- Bits [15:0]: imm16 or the offset of the M and B formats (R113). -/
def wordI (w : BitVec 32) : Fin 65536 := wordField w 0 65536

/-- `i` where the bits that the tables mark as zero are 0 and the operand value is assigned; no instruction otherwise (R112). -/
def whereZero (zero : Bool) (i : Instr) : Option Instr := if zero then some i else none

/-- Majors 0x00 and 0x01: the register instructions of R120, A format. -/
def decodeInt (c : Ctx) (w : BitVec 32) : Option Instr :=
  let d := wordD w
  let a := wordA w
  let b := wordB w
  match majorOf w, (wordField w 0 2048).val with
  | 0, 0x001 => some (.iAdd c d a b)
  | 0, 0x002 => some (.iSub c d a b)
  | 0, 0x003 => some (.iAnd c d a b)
  | 0, 0x004 => some (.iOr c d a b)
  | 0, 0x005 => some (.iXor c d a b)
  | 0, 0x006 => some (.iNor c d a b)
  | 0, 0x007 => some (.iAndn c d a b)
  | 0, 0x008 => some (.iSll c d a b)
  | 0, 0x009 => some (.iSrl c d a b)
  | 0, 0x00A => some (.iSra c d a b)
  | 0, 0x00B => some (.iRor c d a b)
  | 0, 0x010 => some (.iSeq c d a b)
  | 0, 0x011 => some (.iSne c d a b)
  | 0, 0x012 => some (.iSlt c d a b)
  | 0, 0x013 => some (.iSge c d a b)
  | 0, 0x014 => some (.iSltu c d a b)
  | 0, 0x015 => some (.iSgeu c d a b)
  | 0, 0x016 => some (.iMin c d a b)
  | 0, 0x017 => some (.iMax c d a b)
  | 0, 0x018 => some (.iMinu c d a b)
  | 0, 0x019 => some (.iMaxu c d a b)
  | 0, 0x020 => whereZero (b == 0) (.iClz c d a)
  | 0, 0x021 => whereZero (b == 0) (.iPopc c d a)
  | 0, 0x022 => whereZero (b == 0) (.iSextb c d a)
  | 0, 0x023 => whereZero (b == 0) (.iSexth c d a)
  | 0, 0x024 => whereZero (b == 0) (.iSextw c d a)
  | 0, 0x025 => whereZero (b == 0) (.iBswap c d a)
  | 1, 0x001 => some (.iMul c d a b)
  | 1, 0x002 => some (.iMulh c d a b)
  | 1, 0x003 => some (.iMulhu c d a b)
  | 1, 0x004 => some (.iDiv c d a b)
  | 1, 0x005 => some (.iDivu c d a b)
  | 1, 0x006 => some (.iRem c d a b)
  | 1, 0x007 => some (.iRemu c d a b)
  | _, _ => none

/-- Majors 0x1B, 0x29, 0x2A, 0x2E and 0x2F: the A-format rows of R124, R126 and R129. -/
def decodeFlow (c : Ctx) (w : BitVec 32) : Option Instr :=
  let d := wordD w
  let a := wordA w
  let b := wordB w
  match majorOf w, (wordField w 0 2048).val with
  | 0x1B, 1 => whereZero (d == 0 && a == 0 && b == 0) (.iRet c)
  | 0x1B, 2 => whereZero (d == 0 && b == 0) (.iJr c a)
  | 0x1B, 3 => whereZero (d == 0 && b == 0) (.iCallr c a)
  | 0x29, 1 => whereZero (b == 0) (.iOut c d a)
  | 0x29, 2 => whereZero (b == 0) (.iOutc c d a)
  | 0x2A, 0 => whereZero (d == 0 && a == 0 && b == 0) (.iFold c)
  | 0x2E, 0 => some (.iTsend c d a b)
  | 0x2F, 0 => some (.iTrecv c d a b)
  | _, _ => none

/-- Majors 0x1C and 0x1E: the S format of R139 and R141, with the function in [10:5] and [4:0] zero; major 0x1D: the SB format of
R140. -/
def decodeSafe (c : Ctx) (w : BitVec 32) : Option Instr :=
  let d := wordD w
  let a := wordA w
  let b := wordB w
  let low : Bool := wordField w 0 32 == 0
  match majorOf w, (wordField w 5 64).val, (wordField w 0 64).val with
  | 0x1C, 1, _ => whereZero low (.iSand c d a b)
  | 0x1C, 2, _ => whereZero low (.iSor c d a b)
  | 0x1C, 3, _ => whereZero low (.iSandn c d a b)
  | 0x1C, 4, _ => whereZero (low && b == 0) (.iSnot c d a)
  | 0x1C, 5, _ => whereZero (low && b == 0) (.iSall c d a)
  | 0x1C, 6, _ => whereZero (low && b == 0) (.iSany c d a)
  | 0x1C, 7, _ => whereZero (low && b == 0) (.iSchk c d a)
  | 0x1C, 8, _ => whereZero (low && a == 0 && b == 0) (.iSclr c d)
  | 0x1D, _, 1 => some (.iSbmov c d a b (wordField w 6 32))
  | 0x1D, _, 2 => some (.iSbnot c d a b (wordField w 6 32))
  | 0x1D, _, 3 => whereZero (b == 0) (.iSbcast c d a (wordField w 6 32))
  | 0x1E, 1, _ => whereZero low (.iSpklo c d a b)
  | 0x1E, 2, _ => whereZero low (.iSpkhi c d a b)
  | 0x1E, 3, _ => whereZero low (.iSrot c d a b)
  | 0x1E, 4, _ => whereZero (low && b == 0) (.iSfromi c d a)
  | _, _, _ => none

/-- Majors 0x1F to 0x27: the safety functions of R142, with the slot or zone and the variant in imm16. The checks of the slot's TYPE,
the variant and a zero wa of R142 need the slot and stand in the meanings. -/
def decodeFunction (c : Ctx) (w : BitVec 32) : Option Instr :=
  let d := wordD w
  let a := wordA w
  let slot := wordField w 0 1024
  let variant := wordField w 10 64
  match majorOf w, variant.val with
  | 0x1F, 0 => whereZero (wordField w 4 64 == 0) (.iZone c d a (wordField w 0 16))
  | 0x1F, 1 => whereZero (wordField w 4 64 == 0) (.iZoneQ c d a (wordField w 0 16))
  | 0x20, _ => some (.iEqv c d a slot variant)
  | 0x21, _ => some (.iAntv c d a slot variant)
  | 0x22, _ => some (.iTwoh c d a slot variant)
  | 0x23, _ => some (.iRsti c d a slot variant)
  | 0x24, _ => some (.iEdm c d a slot variant)
  | 0x25, _ => some (.iMute c d a slot variant)
  | 0x26, 0 => some (.iTon c d a slot)
  | 0x26, 1 => some (.iTof c d a slot)
  | 0x27, _ => some (.iLimit c d a slot variant)
  | _, _ => none

/-- Majors 0x30, 0x31 and 0x33: the system instructions of R132 (X format), the check-value instructions of R133 and the timer
instructions of R135 and R136 (A format). -/
def decodeSys (c : Ctx) (w : BitVec 32) : Option Instr :=
  let d := wordD w
  let a := wordA w
  let b := wordB w
  let index := wordField w 4 4096
  let unit := wordField w 0 4
  let n := wordField w 0 16
  match majorOf w, (wordField w 0 16).val, (wordField w 5 64).val, (wordField w 4 128).val with
  | 0x30, 0, _, _ => whereZero (a == 0) (.iMovs c d index)
  | 0x30, 1, _, _ => whereZero (d == 0) (.iMovt c a index)
  | 0x30, 2, _, _ => whereZero (d == 0 && a == 0 && index == 0) (.iRete c)
  | 0x30, 3, _, _ => whereZero (d == 0 && a == 0 && index == 0) (.iWaitev c)
  | 0x31, _, 1, _ => whereZero (d == 0 && b == 0) (.iCkin c unit (wordField w 2 8) a)
  | 0x31, _, 2, _ => whereZero (a == 0 && b == 0 && wordField w 2 8 == 0) (.iCkend c unit d)
  | 0x31, _, 3, _ => whereZero (a == 0 && b == 0 && wordField w 2 8 == 0) (.iCkrd c unit d)
  | 0x33, _, _, 1 => whereZero (a == 0 && b == 0) (.iGtrd c n d)
  | 0x33, _, _, 2 => whereZero (a == 0 && b == 0 && n.val % 2 == 0) (.iGtsnap c n d)
  | 0x33, _, _, 3 => whereZero (d == 0 && b == 0) (.iGtcmp0 c n a)
  | 0x33, _, _, 4 => whereZero (d == 0 && b == 0) (.iGtcmp1 c n a)
  | 0x33, 0, _, 0x10 => some (.iDomain c d a b)
  | _, _, _, _ => none

/-- The instruction that a 32-bit word encodes, by its major opcode (R112, R115) and the fields of its format (R113): every word has one
meaning, and a word with a bit set that the tables mark as zero, with a major or function code that they do not list, or with an operand
value that they call unassigned picks none: it is an unassigned encoding, which the command UNASSIGNED executes and which traps ILLEGAL. The checks of an operand value that stand in a meaning
(R122, R134, R142) take the same trap there. -/
def decodeInstr (c : Ctx) (w : BitVec 32) : Option Instr :=
  let d := wordD w
  let a := wordA w
  let imm := wordI w
  match majorOf w with
  | 0x00 => decodeInt c w
  | 0x01 => decodeInt c w
  | 0x04 => some (.iAddi c d a imm)
  | 0x05 => some (.iAndi c d a imm)
  | 0x06 => some (.iOri c d a imm)
  | 0x07 => some (.iXori c d a imm)
  | 0x08 => some (.iSlti c d a imm)
  | 0x09 => some (.iSltiu c d a imm)
  | 0x0A => whereZero (a.val / 4 == 0) (.iMovz c d (wordField w 16 4) imm)
  | 0x0B => whereZero (a.val / 4 == 0) (.iMovk c d (wordField w 16 4) imm)
  | 0x0C => whereZero (imm.val / 256 == 0) (.iShi c d a (wordField w 6 4) (wordField w 0 64))
  | 0x0D => whereZero (imm.val / 4096 == 0 && (wordField w 0 64).val + (wordField w 6 64).val + 1 ≤ 64)
      (.iExtu c d a (wordField w 0 64) (wordField w 6 64))
  | 0x10 => some (.iLdb c d a imm)
  | 0x11 => some (.iLdh c d a imm)
  | 0x12 => some (.iLdw c d a imm)
  | 0x13 => some (.iLdd c d a imm)
  | 0x14 => some (.iStb c d a imm)
  | 0x15 => some (.iSth c d a imm)
  | 0x16 => some (.iStw c d a imm)
  | 0x17 => some (.iStd c d a imm)
  | 0x18 => some (.iBeq c d a imm)
  | 0x19 => whereZero (wordField w 16 1024 != 0) (.iLoopn c (wordField w 16 1024) imm)
  | 0x1A => some (.iCall c (wordField w 0 67108864))
  | 0x1B => decodeFlow c w
  | 0x1C => decodeSafe c w
  | 0x1D => decodeSafe c w
  | 0x1E => decodeSafe c w
  | 0x1F => decodeFunction c w
  | 0x20 => decodeFunction c w
  | 0x21 => decodeFunction c w
  | 0x22 => decodeFunction c w
  | 0x23 => decodeFunction c w
  | 0x24 => decodeFunction c w
  | 0x25 => decodeFunction c w
  | 0x26 => decodeFunction c w
  | 0x27 => decodeFunction c w
  | 0x28 => whereZero (imm.val / 128 == 0) (.iIn c d a (wordField w 0 128))
  | 0x29 => decodeFlow c w
  | 0x2A => decodeFlow c w
  | 0x2C => whereZero (d == 0 && a == 0 && imm.val / 64 == 0) (.iAspect c (wordField w 0 64))
  | 0x2D => whereZero (a == 0 && imm.val / 64 == 0) (.iAproof c d (wordField w 0 64))
  | 0x2E => decodeFlow c w
  | 0x2F => decodeFlow c w
  | 0x30 => decodeSys c w
  | 0x31 => decodeSys c w
  | 0x32 => whereZero (32768 ≤ imm.val) (.iLog c a d imm)
  | 0x33 => decodeSys c w
  | _ => none

end Sys2Proof
end

