-- ==== Sys2Proof/Config.lean ====
section
/-! DEFINITION. What an implementation fixes and the spec leaves open: opaque constants and functions without a body, so
that no proof can rest on a value of one. -/

namespace Sys2Proof

/-- A value that the spec leaves open; the state's counter `fresh` picks a new one each time. -/
opaque Config.freeValue : Nat → BitVec 64

/-- The way that LA's pseudo-LRU replacement evicts from a full set (R21 names no variant): from the order in which the four ways were
last used, which of the three that were not used last. -/
opaque Config.pseudoLru : List Nat → Nat

/-- SHA-384 of a byte string, as a number of 384 bits (R331, R403); a hash function that the spec names and does not define. -/
opaque Config.sha384 : List Nat → Nat

/-- ECDSA P-384 verification under a public key (R331): the signed bytes and the signature bytes. -/
opaque Config.verifySig : (key : List Nat) → (message : List Nat) → (signature : List Nat) → Bool

/-- AES-GCM decryption of an image under the image key IK (R406): the plain bytes, or nothing where the tag fails. -/
opaque Config.decryptImage : (ik : Nat) → (cipher : List Nat) → Option (List Nat)

/-- The security block's random 64-byte challenge number `n` (R408). -/
opaque Config.challenge : Nat → List Nat

/-- Where the sequence number stands in the 8-byte header of a crosslink frame, modulo 5, and what the header holds beside it (R32): per
byte, number and slot. -/
opaque Config.crosslinkSeqAt : Nat

opaque Config.crosslinkHeader : (byte seq slot : Nat) → Nat

/-- SHA-384 of the failure-analysis key in the boot ROM (R405). -/
opaque Config.analysisKey : Nat

/-- The boot ROM version that a die names in HELLO (R327): 0 the host die, 1 LA, 2 LB. -/
opaque Config.bootRomVersion : Nat → Nat

/-- The revision of a die (R327, R468): 0 the host die, 1 LA, 2 LB, 3 PD0, 4 PD1. -/
opaque Config.dieRevision : Nat → Nat

/-- What a register shows of the world outside at an instant, where no command of the table brings it (a supply voltage, a current, a
link's state): per die (0 LA, 1 LB, 2 the host die), register number, index and instant. -/
opaque Config.measured : (die reg index instant : Nat) → BitVec 64

/-- What a host core reads of a system register whose content the spec gives for the cores of a logic die only (R80): per core, index
and instant. -/
opaque Config.hostSystem : (core index instant : Nat) → BitVec 64

/-- Where host cores HC1 to HC3 start when HC0 releases them (R333 names no address): per core and instant. -/
opaque Config.hostCoreStart : (core instant : Nat) → Nat

/-- The factory coefficient of a converter (R468), per logic die and register index. -/
opaque Config.factoryCoefficient : (die index : Nat) → BitVec 64

/-- The log record of a source that the power-down sequence kept from being raised (R392, R439): per source, which of the codes 0x0200 to
0x0202 it has, and its data. -/
opaque Config.suppressedRecord : (source : Nat) → Nat

/-- How long FRST is high before the comparators act on it, in ns above 1.0 µs, modulo 501 (R395). -/
opaque Config.frstFilter : Nat

/-- The rounding of the seconds of TTL left (R420): per instant. -/
opaque Config.ttlRounding : (instant : Nat) → Nat

/-- The DETAIL of an event of the host collector (R312 gives none): per source, what raised it, and instant. -/
opaque Config.hostDetail : (source argument instant : Nat) → Nat

end Sys2Proof
end

