-- ==== Sys2Proof/Machine/Bits.lean ====
section
/-! DEFINITION. Bit fields and byte order: fields of registers and words (R7), little-endian and big-endian byte
sequences (R8), sign extension, saturating counts. -/

namespace Sys2Proof.Machine

/-- Bits hi..lo of a number. -/
def bitsOf (v hi lo : Nat) : Nat := (v / 2 ^ lo) % 2 ^ (hi + 1 - lo)

/-- Bit i of a number. -/
def bitAt (v i : Nat) : Bool := v.testBit i

/-- 1 for true, 0 for false. -/
def b2n (b : Bool) : Nat := if b then 1 else 0

/-- A number with bits hi..lo replaced by `n` (cut to the field's width). -/
def setBits (v hi lo n : Nat) : Nat :=
  v - bitsOf v hi lo * 2 ^ lo + (n % 2 ^ (hi + 1 - lo)) * 2 ^ lo

/-- A word with bits hi..lo replaced by `n`. -/
def Word.setBits (v : Word) (hi lo n : Nat) : Word := BitVec.ofNat 64 (Machine.setBits v.toNat hi lo n)

/-- Bits hi..lo of a word. -/
def Word.bits (v : Word) (hi lo : Nat) : Nat := bitsOf v.toNat hi lo

/-- The mask of bits hi..lo. -/
def maskBits (hi lo : Nat) : Nat := (2 ^ (hi + 1 - lo) - 1) * 2 ^ lo

/-- A number with bit i set. -/
def setBit (v i : Nat) : Nat := setBits v i i 1

/-- A number with bit i clear. -/
def clrBit (v i : Nat) : Nat := setBits v i i 0

/-- A count that stops at its largest value. -/
def satAdd (width v n : Nat) : Nat := min (v + n) (2 ^ width - 1)

/-- The low `n` bits of `v` sign-extended to 64 bits. -/
def sext (n : Nat) (v : Nat) : Word := (BitVec.ofNat n v).signExtend 64

/-- The `n` little-endian bytes of a number. -/
def bytesLE : Nat → Nat → List Nat
  | 0, _ => []
  | n + 1, v => v % 256 :: bytesLE n (v / 256)

/-- The number that little-endian bytes spell. -/
def ofBytesLE : List Nat → Nat
  | [] => 0
  | b :: bs => b % 256 + 256 * ofBytesLE bs

/-- The `n` bytes of a number, most significant first. -/
def bytesBE (n v : Nat) : List Nat := (bytesLE n v).reverse

/-- The number that bytes spell, most significant first. -/
def ofBytesBE (bs : List Nat) : Nat := ofBytesLE bs.reverse

/-- The bits of a byte, least significant first, as a number with the order reversed (8 bits). -/
def rev8 (b : Nat) : Nat :=
  (List.range 8).foldl (fun r i => 2 * r + b2n (b.testBit i)) 0

/-- The low `n` bits of a number in reverse order. -/
def revBits (n v : Nat) : Nat :=
  (List.range n).foldl (fun r i => 2 * r + b2n (v.testBit i)) 0

/-- One step of a CRC of width `w`, most significant bit first: shift one input byte in. -/
def crcByte (w poly : Nat) (reg byte : Nat) : Nat :=
  (List.range 8).foldl
    (fun r i =>
      let top := r.testBit (w - 1) != byte.testBit (7 - i)
      let s := (r * 2) % 2 ^ w
      if top then Nat.xor s poly else s) reg

/-- A CRC register after feeding bytes in order. -/
def crcFeed (w poly : Nat) (reg : Nat) (bytes : List Nat) : Nat := bytes.foldl (crcByte w poly) reg

/-- CRC-64/ECMA-182: polynomial 0x42F0E1EBA9EA3693, initial value 0, no reflection, no final XOR. -/
def crc64 (bytes : List Nat) : Nat := crcFeed 64 0x42F0E1EBA9EA3693 0 bytes

/-- A CRC with reflected input and output, all-ones initial value and final XOR (CRC-32 and CRC-32C). -/
def crcRefl32 (poly init : Nat) (bytes : List Nat) : Nat :=
  Nat.xor (revBits 32 (crcFeed 32 poly init (bytes.map rev8))) 0xFFFFFFFF

/-- CRC-32C of bytes: the check code of the stile, of the crosslink and of save regions (R32, R322, R389). -/
def crc32c (bs : List Nat) : Nat := crcRefl32 0x1EDC6F41 0xFFFFFFFF bs

/-- The smallest element of a list of numbers, or `d` for the empty list. -/
def minOr (d : Nat) : List Nat → Nat
  | [] => d
  | a :: l => l.foldl min a

/-- The largest element of a list of numbers, 0 for the empty list. -/
def maxOr0 (l : List Nat) : Nat := l.foldl max 0

/-- The absolute difference of two numbers. -/
def absDiff (a b : Nat) : Nat := if a ≤ b then b - a else a - b

end Sys2Proof.Machine
end

