-- ==== Sys2Proof/Machine/Reg.lean ====
section
/-! DEFINITION. The registers of the device: one name per register family of the spec's register tables, where each
family lies (R464-R471), and its fields with their access types and reset values (R9). Written from the register
tables of spec/02, 06-18. An instance of a family is a register name and an index; a family with two or three indices
(LMP_ASPa_w, PE_PROGe_b_w) counts them in one, the last index fastest. -/

namespace Sys2Proof.Machine

/-- Access types of register fields (R9). -/
inductive Acc where
  | rw | ro | w1c | w1s | wo | rc | rwf | rwl
  deriving DecidableEq, Repr

/-- Which die's address space holds a register: a logic die's own blocks, the region of the power die that it
controls, or the host die's BAR0. -/
inductive Place where
  | logic | power | host
  deriving DecidableEq, Repr

/-- One field of a register: bits hi..lo, its access type and its reset value. -/
structure FieldDef where
  hi : Nat
  lo : Nat
  acc : Acc
  reset : Nat
  deriving DecidableEq, Repr

/-- Where a register family lies and what it holds. `dims` lists (count, stride in bytes) of each index. -/
structure Layout where
  place : Place
  base : Nat
  dims : List (Nat × Nat)
  fields : List FieldDef
  deriving DecidableEq, Repr

/-- Every register family of the two logic dies, the power dies and the host die. Names are the spec's, without the
index letters; HFC_, HSTL_, HDBG_ and HBIST_ are the host die's blocks of those names. -/
inductive Reg where
  | FOLD_CTRL
  | FOLD_PERIOD
  | FOLD_OFFSET
  | FOLD_BUDGET
  | FOLD_MISS_TOL
  | FOLD_NUMBER
  | FOLD_STATUS
  | FOLD_EXEC
  | FOLD_COUNTS
  | FOLD_PAIR_PEND
  | FOLD_PAIR_DISC
  | FOLD_ALIGN_ERR
  | FOLD_SNAP_LEASE
  | FOLD_SNAP_CHECK
  | FOLD_SNAP_RELEASE
  | FOLD_SNAP_CFG
  | FOLD_SNAP_STATUS
  | FOLD_SNAP_LAST
  | SI_CTRL
  | SI_FILT
  | SI_RAW
  | SI_CHG
  | SI_IRQEN
  | SI_WAKE
  | SI_TSUM
  | SI_FEMIS
  | SI_GRP
  | SI_AICFG
  | SI_CFG
  | SI_STAT
  | SI_TPCHK
  | SI_CNT
  | TP_CTRL
  | TP_SUM
  | TP_CFG
  | TP_PER
  | TP_STAT
  | TP_CNT
  | SO_CTRL
  | SO_TCFG
  | SO_CMD
  | SO_SUM
  | SO_SHORT
  | SO_HELD
  | SO_CROOK
  | SO_CROOKCNT
  | SO_GRP
  | SO_CFG
  | SO_STAT
  | SO_CNT
  | SO_SIGCFG
  | SO_SIGSTAT
  | LMP_CTRL
  | LMP_DISP
  | LMP_PROOF
  | LMP_SUM
  | LMP_NBSHORT
  | LMP_TCFG
  | LMP_ADEF
  | LMP_FLASH
  | LMP_GRP
  | LMP_CFG
  | LMP_LIM
  | LMP_STAT
  | LMP_MEAS
  | LMP_OSCFG
  | LMP_OSLIM
  | LMP_OSSTAT
  | LMP_ASP
  | PE_CTRL
  | PE_LVL
  | PE_CFG
  | PE_STAT
  | PE_VECLO
  | PE_VECHI
  | PE_PROG
  | MX_CTRL
  | MX_CFG
  | MX_STAT
  | MX_NBSHORT
  | MX_FRAME
  | MX_FB
  | ADC_CTRL
  | ADC_SWTRIG
  | ADC_URG
  | ADC_CALCMD
  | ADC_CALSTAT
  | ADC_CFG
  | ADC_STAT
  | ADC_QSTAT
  | ADC_POP
  | ADC_SLCNT
  | ADC_SEQ
  | ADC_LAST
  | ADC_CAL
  | ADC_COEF
  | FC_CTRL
  | FC_LSCFG
  | FC_QUIET
  | FC_RECCFG
  | FC_RECCNT
  | FC_RECLAST
  | FC_LSCNT
  | FC_ECCCNT
  | FC_RECS
  | FC_RECA
  | FC_RECB
  | FC_RECT
  | FC_RECN
  | FC_ACT
  | FC_SEEN
  | FC_FORCE
  | FC_FORCEW
  | FC_CLASS
  | HSTL_CTRL
  | HSTL_CFG
  | HSTL_STAT
  | HSTL_CNT
  | HSTL_DL_IMG
  | HSTL_DL_PAR
  | HSTL_DL_CMD
  | HSTL_DL_STAT
  | HSTL_TALLY
  | HSTL_VERDA
  | HSTL_VERDB
  | HSTL_REQ_CMD
  | HSTL_REQ_ADDR
  | HSTL_REQ_DATA
  | HSTL_REQ_STAT
  | HSTL_RSPD_A
  | HSTL_RSPD_B
  | HSTL_RXRING
  | HSTL_RXPTR
  | HSTL_TXRING
  | HSTL_TXPTR
  | HSTL_MIR_BASE
  | HSTL_MIR_CFG
  | HSTL_MIR_HEAD
  | HSTL_MIR_STAT
  | BB_CTRL
  | BB_CFG
  | BB_VCT
  | BB_CELLMAC
  | BB_CELLPER
  | BB_AS
  | BB_ASSTAT
  | BB_CNT
  | BB_PORT
  | BB_QBV
  | BB_PCNT
  | BB_GCL
  | BB_PSF
  | BB_PSM
  | BB_TXC
  | BB_TXMAC
  | BB_RXC
  | VCT_CTRL
  | VCT_CFG
  | VCT_CELL
  | VCT_POL
  | VCT_CSEED
  | VCT_STAT
  | VCT_CFOLD
  | VCT_LATE
  | VCT_LOST
  | VCT_TMIS
  | VCT_CNT
  | VCT_EVT
  | VCT_PEER
  | VCT_TLIST
  | VCT_TXC
  | VCT_RXC
  | VCT_RXT
  | VCT_RXZ
  | VCT_RXS
  | PWR_CTRL
  | PWR_STAT
  | PWR_PL
  | PWR_WAKE
  | PWR_SAVE
  | PWR_RST
  | PWR_CNT
  | PWR_DOM
  | PWR_HCTRL
  | PWR_HSTAT
  | PWR_HPL
  | PWR_HWAKE
  | PWR_HWAKET
  | PWR_HRTC
  | PWR_FREP
  | PWR_HDOM
  | SEC_LC
  | SEC_KREV
  | SEC_ARB
  | SEC_UID
  | SEC_OTPCMD
  | SEC_OTPSTAT
  | SEC_KSTAGE
  | SEC_KEY
  | HDBG_CTRL
  | HDBG_STAT
  | HDBG_SCOPEREQ
  | HDBG_CHAL
  | HDBG_RESP
  | GT_CTRL
  | GT_TBASE
  | GT_IEN
  | GT_CFG
  | GT_CNT
  | GT_CMP0
  | GT_CMP1
  | GT_TOP
  | GT_STAT
  | GT_SNAP
  | GT_CAP
  | CK_OWN
  | CK_CFG
  | CK_POLY
  | CK_INIT
  | CK_XOR
  | CK_EXP
  | CK_RES
  | CK_STAT
  | CK_DMA
  | LOG_STAT
  | LOG_HCTRL
  | LOG_HBASE
  | LOG_HSIZE
  | LOG_HHEAD
  | LOG_HTAIL
  | LOG_HTHR
  | LOG_HSTAT
  | BIST_CTRL
  | BIST_STAT
  | BIST_LAST
  | BIST_LTIME
  | BIST_CNT
  | BIST_SLFUSE
  | BIST_REP
  | BIST_FUSE
  | STL_STAT
  | STL_CNT
  | STL_VERD
  | STL_TALLY
  | DBG_STAT
  | DBG_BKPT
  | HFC_CTRL
  | HFC_QUIET
  | HFC_RECCNT
  | HFC_ECCCNT
  | HFC_RECS
  | HFC_RECA
  | HFC_RECB
  | HFC_RECT
  | HFC_RECN
  | HFC_ACT
  | HFC_SEEN
  | HFC_FORCE
  | HFC_FORCEW
  | HFC_CLASS
  | BIST_HSTAT
  | HBIST_REP
  | PWR_PDCTRL
  | PWR_PDID
  | PWR_PDSTAT
  | PWR_PDDOM
  | SI_FE
  | SI_CPL
  | TP_DRV
  | SO_SW
  | SO_SENS
  | SO_CROOKPD
  | LMP_STG
  | LMP_STS
  | LMP_OSAFE
  | LMP_OSR
  | MX_LINE
  | MX_COL
  | MX_DRVSTAT
  | ADC_AFE
  | ADC_AIFLT
  | ADC_FACT
  | BIST_PDSTAT
  | BIST_PDSLF
  | BIST_PDREP
  | BIST_PDFUSE
  deriving DecidableEq, Repr

/-- A named field of a register family. -/
structure Fld where
  reg : Reg
  hi : Nat
  lo : Nat
  deriving DecidableEq, Repr

/-- All register families, in the order of their numbers. -/
def regList0 : List Reg := [.FOLD_CTRL, .FOLD_PERIOD, .FOLD_OFFSET, .FOLD_BUDGET, .FOLD_MISS_TOL, .FOLD_NUMBER, .FOLD_STATUS, .FOLD_EXEC, .FOLD_COUNTS, .FOLD_PAIR_PEND, .FOLD_PAIR_DISC, .FOLD_ALIGN_ERR, .FOLD_SNAP_LEASE, .FOLD_SNAP_CHECK, .FOLD_SNAP_RELEASE, .FOLD_SNAP_CFG, .FOLD_SNAP_STATUS, .FOLD_SNAP_LAST, .SI_CTRL, .SI_FILT, .SI_RAW, .SI_CHG, .SI_IRQEN, .SI_WAKE, .SI_TSUM, .SI_FEMIS, .SI_GRP, .SI_AICFG, .SI_CFG, .SI_STAT, .SI_TPCHK, .SI_CNT, .TP_CTRL, .TP_SUM, .TP_CFG, .TP_PER, .TP_STAT, .TP_CNT, .SO_CTRL, .SO_TCFG]
def regList1 : List Reg := [.SO_CMD, .SO_SUM, .SO_SHORT, .SO_HELD, .SO_CROOK, .SO_CROOKCNT, .SO_GRP, .SO_CFG, .SO_STAT, .SO_CNT, .SO_SIGCFG, .SO_SIGSTAT, .LMP_CTRL, .LMP_DISP, .LMP_PROOF, .LMP_SUM, .LMP_NBSHORT, .LMP_TCFG, .LMP_ADEF, .LMP_FLASH, .LMP_GRP, .LMP_CFG, .LMP_LIM, .LMP_STAT, .LMP_MEAS, .LMP_OSCFG, .LMP_OSLIM, .LMP_OSSTAT, .LMP_ASP, .PE_CTRL, .PE_LVL, .PE_CFG, .PE_STAT, .PE_VECLO, .PE_VECHI, .PE_PROG, .MX_CTRL, .MX_CFG, .MX_STAT, .MX_NBSHORT]
def regList2 : List Reg := [.MX_FRAME, .MX_FB, .ADC_CTRL, .ADC_SWTRIG, .ADC_URG, .ADC_CALCMD, .ADC_CALSTAT, .ADC_CFG, .ADC_STAT, .ADC_QSTAT, .ADC_POP, .ADC_SLCNT, .ADC_SEQ, .ADC_LAST, .ADC_CAL, .ADC_COEF, .FC_CTRL, .FC_LSCFG, .FC_QUIET, .FC_RECCFG, .FC_RECCNT, .FC_RECLAST, .FC_LSCNT, .FC_ECCCNT, .FC_RECS, .FC_RECA, .FC_RECB, .FC_RECT, .FC_RECN, .FC_ACT, .FC_SEEN, .FC_FORCE, .FC_FORCEW, .FC_CLASS, .HSTL_CTRL, .HSTL_CFG, .HSTL_STAT, .HSTL_CNT, .HSTL_DL_IMG, .HSTL_DL_PAR]
def regList3 : List Reg := [.HSTL_DL_CMD, .HSTL_DL_STAT, .HSTL_TALLY, .HSTL_VERDA, .HSTL_VERDB, .HSTL_REQ_CMD, .HSTL_REQ_ADDR, .HSTL_REQ_DATA, .HSTL_REQ_STAT, .HSTL_RSPD_A, .HSTL_RSPD_B, .HSTL_RXRING, .HSTL_RXPTR, .HSTL_TXRING, .HSTL_TXPTR, .HSTL_MIR_BASE, .HSTL_MIR_CFG, .HSTL_MIR_HEAD, .HSTL_MIR_STAT, .BB_CTRL, .BB_CFG, .BB_VCT, .BB_CELLMAC, .BB_CELLPER, .BB_AS, .BB_ASSTAT, .BB_CNT, .BB_PORT, .BB_QBV, .BB_PCNT, .BB_GCL, .BB_PSF, .BB_PSM, .BB_TXC, .BB_TXMAC, .BB_RXC, .VCT_CTRL, .VCT_CFG, .VCT_CELL, .VCT_POL]
def regList4 : List Reg := [.VCT_CSEED, .VCT_STAT, .VCT_CFOLD, .VCT_LATE, .VCT_LOST, .VCT_TMIS, .VCT_CNT, .VCT_EVT, .VCT_PEER, .VCT_TLIST, .VCT_TXC, .VCT_RXC, .VCT_RXT, .VCT_RXZ, .VCT_RXS, .PWR_CTRL, .PWR_STAT, .PWR_PL, .PWR_WAKE, .PWR_SAVE, .PWR_RST, .PWR_CNT, .PWR_DOM, .PWR_HCTRL, .PWR_HSTAT, .PWR_HPL, .PWR_HWAKE, .PWR_HWAKET, .PWR_HRTC, .PWR_FREP, .PWR_HDOM, .SEC_LC, .SEC_KREV, .SEC_ARB, .SEC_UID, .SEC_OTPCMD, .SEC_OTPSTAT, .SEC_KSTAGE, .SEC_KEY, .HDBG_CTRL]
def regList5 : List Reg := [.HDBG_STAT, .HDBG_SCOPEREQ, .HDBG_CHAL, .HDBG_RESP, .GT_CTRL, .GT_TBASE, .GT_IEN, .GT_CFG, .GT_CNT, .GT_CMP0, .GT_CMP1, .GT_TOP, .GT_STAT, .GT_SNAP, .GT_CAP, .CK_OWN, .CK_CFG, .CK_POLY, .CK_INIT, .CK_XOR, .CK_EXP, .CK_RES, .CK_STAT, .CK_DMA, .LOG_STAT, .LOG_HCTRL, .LOG_HBASE, .LOG_HSIZE, .LOG_HHEAD, .LOG_HTAIL, .LOG_HTHR, .LOG_HSTAT, .BIST_CTRL, .BIST_STAT, .BIST_LAST, .BIST_LTIME, .BIST_CNT, .BIST_SLFUSE, .BIST_REP, .BIST_FUSE]
def regList6 : List Reg := [.STL_STAT, .STL_CNT, .STL_VERD, .STL_TALLY, .DBG_STAT, .DBG_BKPT, .HFC_CTRL, .HFC_QUIET, .HFC_RECCNT, .HFC_ECCCNT, .HFC_RECS, .HFC_RECA, .HFC_RECB, .HFC_RECT, .HFC_RECN, .HFC_ACT, .HFC_SEEN, .HFC_FORCE, .HFC_FORCEW, .HFC_CLASS, .BIST_HSTAT, .HBIST_REP, .PWR_PDCTRL, .PWR_PDID, .PWR_PDSTAT, .PWR_PDDOM, .SI_FE, .SI_CPL, .TP_DRV, .SO_SW, .SO_SENS, .SO_CROOKPD, .LMP_STG, .LMP_STS, .LMP_OSAFE, .LMP_OSR, .MX_LINE, .MX_COL, .MX_DRVSTAT, .ADC_AFE]
def regList7 : List Reg := [.ADC_AIFLT, .ADC_FACT, .BIST_PDSTAT, .BIST_PDSLF, .BIST_PDREP, .BIST_PDFUSE]
def regList : List Reg := regList0 ++ regList1 ++ regList2 ++ regList3 ++ regList4 ++ regList5 ++ regList6 ++ regList7

/-- Where a register family lies and what its fields are. -/
def Reg.layout : Reg → Layout
  -- FOLD_CTRL, spec/02, R69/R70
  | .FOLD_CTRL => ⟨.logic, 0x40002000, [],
      [⟨0, 0, .w1s, 0x0⟩, ⟨1, 1, .w1s, 0x0⟩]⟩
  -- FOLD_PERIOD, spec/02, R69/R70
  | .FOLD_PERIOD => ⟨.logic, 0x40002008, [],
      [⟨13, 0, .rwl, 0x3E8⟩]⟩
  -- FOLD_OFFSET, spec/02, R69/R70
  | .FOLD_OFFSET => ⟨.logic, 0x40002010, [],
      [⟨13, 0, .rwl, 0x0⟩]⟩
  -- FOLD_BUDGET, spec/02, R69/R70
  | .FOLD_BUDGET => ⟨.logic, 0x40002018, [],
      [⟨23, 0, .rwl, 0x0⟩, ⟨44, 32, .rwl, 0x1000⟩]⟩
  -- FOLD_MISS_TOL, spec/02, R69/R70
  | .FOLD_MISS_TOL => ⟨.logic, 0x40002020, [],
      [⟨15, 0, .rwl, 0x0⟩]⟩
  -- FOLD_NUMBER, spec/02, R69/R70
  | .FOLD_NUMBER => ⟨.logic, 0x40002028, [],
      [⟨63, 0, .ro, 0x0⟩]⟩
  -- FOLD_STATUS, spec/02, R69/R70
  | .FOLD_STATUS => ⟨.logic, 0x40002030, [],
      [⟨0, 0, .ro, 0x0⟩, ⟨1, 1, .ro, 0x0⟩, ⟨2, 2, .ro, 0x0⟩, ⟨3, 3, .ro, 0x0⟩, ⟨4, 4, .w1c, 0x0⟩, ⟨5, 5, .ro, 0x0⟩, ⟨6, 6, .w1c, 0x0⟩, ⟨7, 7, .ro, 0x0⟩, ⟨11, 8, .ro, 0x1⟩, ⟨12, 12, .ro, 0x0⟩]⟩
  -- FOLD_EXEC, spec/02, R69/R70
  | .FOLD_EXEC => ⟨.logic, 0x40002038, [],
      [⟨23, 0, .ro, 0x0⟩, ⟨55, 32, .rc, 0x0⟩]⟩
  -- FOLD_COUNTS, spec/02, R69/R70
  | .FOLD_COUNTS => ⟨.logic, 0x40002040, [],
      [⟨31, 0, .ro, 0x0⟩, ⟨63, 32, .ro, 0x0⟩]⟩
  -- FOLD_PAIR_PEND, spec/02, R69/R70
  | .FOLD_PAIR_PEND => ⟨.logic, 0x40002048, [],
      [⟨47, 0, .ro, 0x0⟩]⟩
  -- FOLD_PAIR_DISC, spec/02, R69/R70
  | .FOLD_PAIR_DISC => ⟨.logic, 0x40002050, [],
      [⟨47, 0, .ro, 0x0⟩]⟩
  -- FOLD_ALIGN_ERR, spec/02, R69/R70
  | .FOLD_ALIGN_ERR => ⟨.logic, 0x40002058, [],
      [⟨31, 0, .ro, 0x0⟩, ⟨32, 32, .ro, 0x0⟩]⟩
  -- FOLD_SNAP_LEASE, spec/02, R69/R70
  | .FOLD_SNAP_LEASE => ⟨.host, 0x10000, [],
      [⟨15, 0, .ro, 0x0⟩]⟩
  -- FOLD_SNAP_CHECK, spec/02, R69/R70
  | .FOLD_SNAP_CHECK => ⟨.host, 0x10008, [],
      [⟨15, 0, .ro, 0x0⟩]⟩
  -- FOLD_SNAP_RELEASE, spec/02, R69/R70
  | .FOLD_SNAP_RELEASE => ⟨.host, 0x10010, [],
      [⟨0, 0, .wo, 0x0⟩]⟩
  -- FOLD_SNAP_CFG, spec/02, R69/R70
  | .FOLD_SNAP_CFG => ⟨.host, 0x10018, [],
      [⟨9, 0, .rw, 0x3E8⟩]⟩
  -- FOLD_SNAP_STATUS, spec/02, R69/R70
  | .FOLD_SNAP_STATUS => ⟨.host, 0x10020, [],
      [⟨0, 0, .w1c, 0x0⟩, ⟨1, 1, .w1c, 0x0⟩]⟩
  -- FOLD_SNAP_LAST, spec/02, R69/R70
  | .FOLD_SNAP_LAST => ⟨.host, 0x10028, [],
      [⟨63, 0, .ro, 0x0⟩]⟩
  -- SI_CTRL, spec/06, R198/R199
  | .SI_CTRL => ⟨.logic, 0x40010000, [],
      [⟨0, 0, .w1s, 0x0⟩, ⟨1, 1, .ro, 0x0⟩]⟩
  -- SI_FILT, spec/06, R198/R199
  | .SI_FILT => ⟨.logic, 0x40010008, [],
      [⟨47, 0, .ro, 0x0⟩]⟩
  -- SI_RAW, spec/06, R198/R199
  | .SI_RAW => ⟨.logic, 0x40010010, [],
      [⟨47, 0, .ro, 0x0⟩]⟩
  -- SI_CHG, spec/06, R198/R199
  | .SI_CHG => ⟨.logic, 0x40010018, [],
      [⟨47, 0, .w1c, 0x0⟩]⟩
  -- SI_IRQEN, spec/06, R198/R199
  | .SI_IRQEN => ⟨.logic, 0x40010020, [],
      [⟨47, 0, .rw, 0x0⟩]⟩
  -- SI_WAKE, spec/06, R198/R199
  | .SI_WAKE => ⟨.logic, 0x40010028, [],
      [⟨47, 0, .rwl, 0x0⟩]⟩
  -- SI_TSUM, spec/06, R198/R199
  | .SI_TSUM => ⟨.logic, 0x40010030, [],
      [⟨47, 0, .ro, 0x0⟩]⟩
  -- SI_FEMIS, spec/06, R198/R199
  | .SI_FEMIS => ⟨.logic, 0x40010038, [],
      [⟨11, 0, .w1c, 0x0⟩]⟩
  -- SI_GRPn, spec/06, R198/R199
  | .SI_GRP => ⟨.logic, 0x40010100, [(12, 0x8)],
      [⟨15, 0, .rwl, 0x32⟩, ⟨21, 16, .rwl, 0x6⟩, ⟨24, 24, .rwl, 0x0⟩, ⟨25, 25, .rwl, 0x0⟩]⟩
  -- SI_AICFGn, spec/06, R198/R199
  | .SI_AICFG => ⟨.logic, 0x40010200, [(8, 0x8)],
      [⟨0, 0, .rwl, 0x0⟩, ⟨1, 1, .rwl, 0x0⟩, ⟨5, 2, .rwl, 0x0⟩, ⟨27, 8, .rwl, 0x0⟩, ⟨28, 28, .ro, 0x0⟩, ⟨29, 29, .ro, 0x0⟩]⟩
  -- SI_CFGi, spec/06, R198/R199
  | .SI_CFG => ⟨.logic, 0x40010400, [(48, 0x20)],
      [⟨9, 0, .rwl, 0x1⟩, ⟨10, 10, .rwl, 0x0⟩, ⟨11, 11, .rwl, 0x0⟩, ⟨14, 12, .rwl, 0x0⟩, ⟨16, 16, .rwl, 0x0⟩, ⟨18, 17, .rwl, 0x0⟩, ⟨23, 20, .rwl, 0x0⟩]⟩
  -- SI_STATi, spec/06, R198/R199
  | .SI_STAT => ⟨.logic, 0x40010408, [(48, 0x20)],
      [⟨0, 0, .ro, 0x0⟩, ⟨1, 1, .ro, 0x0⟩, ⟨11, 2, .ro, 0x0⟩, ⟨14, 12, .ro, 0x0⟩, ⟨15, 15, .ro, 0x0⟩, ⟨16, 16, .ro, 0x0⟩]⟩
  -- SI_TPCHKi, spec/06, R198/R199
  | .SI_TPCHK => ⟨.logic, 0x40010410, [(48, 0x20)],
      [⟨9, 0, .rwl, 0x0⟩, ⟨39, 16, .rwl, 0x0⟩]⟩
  -- SI_CNTi, spec/06, R198/R199
  | .SI_CNT => ⟨.logic, 0x40010418, [(48, 0x20)],
      [⟨15, 0, .ro, 0x0⟩, ⟨31, 16, .ro, 0x0⟩, ⟨47, 32, .ro, 0x0⟩]⟩
  -- TP_CTRL, spec/06, R198/R199
  | .TP_CTRL => ⟨.logic, 0x40018000, [],
      [⟨7, 0, .rwl, 0x0⟩, ⟨8, 8, .w1s, 0x0⟩, ⟨16, 16, .ro, 0x0⟩]⟩
  -- TP_SUM, spec/06, R198/R199
  | .TP_SUM => ⟨.logic, 0x40018008, [],
      [⟨7, 0, .ro, 0x0⟩]⟩
  -- TP_CFGj, spec/06, R198/R199
  | .TP_CFG => ⟨.logic, 0x40018100, [(8, 0x20)],
      [⟨15, 0, .rwl, 0x0⟩, ⟨31, 16, .rwl, 0x0⟩, ⟨39, 32, .rwl, 0x0⟩]⟩
  -- TP_PERj, spec/06, R198/R199
  | .TP_PER => ⟨.logic, 0x40018108, [(8, 0x20)],
      [⟨23, 0, .rwl, 0x0⟩]⟩
  -- TP_STATj, spec/06, R198/R199
  | .TP_STAT => ⟨.logic, 0x40018110, [(8, 0x20)],
      [⟨0, 0, .ro, 0x0⟩, ⟨1, 1, .ro, 0x0⟩, ⟨2, 2, .w1c, 0x0⟩, ⟨3, 3, .w1c, 0x0⟩, ⟨4, 4, .w1c, 0x0⟩, ⟨5, 5, .w1c, 0x0⟩, ⟨6, 6, .ro, 0x0⟩]⟩
  -- TP_CNTj, spec/06, R198/R199
  | .TP_CNT => ⟨.logic, 0x40018118, [(8, 0x20)],
      [⟨31, 0, .ro, 0x0⟩, ⟨47, 32, .ro, 0x0⟩]⟩
  -- SO_CTRL, spec/07, R222
  | .SO_CTRL => ⟨.logic, 0x40020000, [],
      [⟨0, 0, .w1s, 0x0⟩, ⟨1, 1, .ro, 0x0⟩]⟩
  -- SO_TCFG, spec/07, R222
  | .SO_TCFG => ⟨.logic, 0x40020008, [],
      [⟨19, 0, .rwl, 0x4E20⟩]⟩
  -- SO_CMD, spec/07, R222
  | .SO_CMD => ⟨.logic, 0x40020010, [],
      [⟨31, 0, .ro, 0x0⟩, ⟨63, 32, .ro, 0x0⟩]⟩
  -- SO_SUM, spec/07, R222
  | .SO_SUM => ⟨.logic, 0x40020018, [],
      [⟨31, 0, .ro, 0x0⟩]⟩
  -- SO_SHORT, spec/07, R222
  | .SO_SHORT => ⟨.logic, 0x40020020, [],
      [⟨31, 0, .ro, 0x0⟩]⟩
  -- SO_HELD, spec/07, R222
  | .SO_HELD => ⟨.logic, 0x40020028, [],
      [⟨31, 0, .ro, 0x0⟩]⟩
  -- SO_CROOK, spec/07, R222
  | .SO_CROOK => ⟨.logic, 0x40020030, [],
      [⟨0, 0, .ro, 0x0⟩, ⟨1, 1, .ro, 0x0⟩, ⟨2, 2, .ro, 0x0⟩, ⟨3, 3, .ro, 0x0⟩, ⟨4, 4, .ro, 0x0⟩, ⟨5, 5, .rwl, 0x1⟩, ⟨6, 6, .ro, 0x0⟩, ⟨7, 7, .w1c, 0x0⟩, ⟨8, 8, .w1c, 0x0⟩]⟩
  -- SO_CROOKCNT, spec/07, R222
  | .SO_CROOKCNT => ⟨.logic, 0x40020038, [],
      [⟨15, 0, .ro, 0x0⟩, ⟨31, 16, .ro, 0x0⟩]⟩
  -- SO_GRPg, spec/07, R222
  | .SO_GRP => ⟨.logic, 0x40020040, [(4, 0x8)],
      [⟨15, 0, .ro, 0x0⟩, ⟨16, 16, .w1c, 0x0⟩, ⟨17, 17, .ro, 0x0⟩, ⟨47, 32, .ro, 0x0⟩]⟩
  -- SO_CFGn, spec/07, R222
  | .SO_CFG => ⟨.logic, 0x40020100, [(32, 0x20)],
      [⟨8, 0, .rwl, 0x64⟩, ⟨9, 9, .rwl, 0x1⟩, ⟨10, 10, .rwl, 0x0⟩, ⟨21, 16, .rwl, 0x14⟩, ⟨37, 24, .rwl, 0x64⟩, ⟨53, 40, .rwl, 0x64⟩]⟩
  -- SO_STATn, spec/07, R222
  | .SO_STAT => ⟨.logic, 0x40020108, [(32, 0x20)],
      [⟨0, 0, .ro, 0x0⟩, ⟨1, 1, .ro, 0x0⟩, ⟨2, 2, .ro, 0x0⟩, ⟨3, 3, .ro, 0x0⟩, ⟨4, 4, .w1c, 0x0⟩, ⟨6, 5, .ro, 0x0⟩, ⟨7, 7, .w1c, 0x0⟩, ⟨8, 8, .w1c, 0x0⟩, ⟨9, 9, .w1c, 0x0⟩, ⟨10, 10, .w1c, 0x0⟩, ⟨11, 11, .ro, 0x0⟩, ⟨17, 12, .ro, 0x3F⟩]⟩
  -- SO_CNTn, spec/07, R222
  | .SO_CNT => ⟨.logic, 0x40020110, [(32, 0x20)],
      [⟨31, 0, .ro, 0x0⟩, ⟨47, 32, .ro, 0x0⟩, ⟨63, 48, .ro, 0x0⟩]⟩
  -- SO_SIGCFGn, spec/07, R222
  | .SO_SIGCFG => ⟨.logic, 0x40020118, [(32, 0x20)],
      [⟨0, 0, .rw, 0x0⟩, ⟨1, 1, .w1s, 0x0⟩, ⟨13, 2, .rw, 0x0⟩, ⟨31, 16, .rw, 0x0⟩, ⟨63, 32, .rw, 0xFFFFFFFF⟩]⟩
  -- SO_SIGSTATn, spec/07, R222
  | .SO_SIGSTAT => ⟨.logic, 0x40020800, [(32, 0x8)],
      [⟨31, 0, .ro, 0x0⟩, ⟨32, 32, .ro, 0x0⟩, ⟨33, 33, .ro, 0x0⟩, ⟨34, 34, .w1c, 0x0⟩, ⟨35, 35, .w1c, 0x0⟩, ⟨36, 36, .w1c, 0x0⟩]⟩
  -- LMP_CTRL, spec/08, R245
  | .LMP_CTRL => ⟨.logic, 0x40030000, [],
      [⟨0, 0, .w1s, 0x0⟩, ⟨1, 1, .ro, 0x0⟩]⟩
  -- LMP_DISP, spec/08, R245
  | .LMP_DISP => ⟨.logic, 0x40030008, [],
      [⟨5, 0, .ro, 0x0⟩, ⟨6, 6, .ro, 0x0⟩]⟩
  -- LMP_PROOF, spec/08, R245
  | .LMP_PROOF => ⟨.logic, 0x40030010, [],
      [⟨5, 0, .ro, 0x0⟩, ⟨6, 6, .ro, 0x0⟩, ⟨7, 7, .ro, 0x0⟩, ⟨11, 8, .ro, 0x0⟩, ⟨17, 12, .ro, 0x3F⟩]⟩
  -- LMP_SUM, spec/08, R245
  | .LMP_SUM => ⟨.logic, 0x40030018, [],
      [⟨47, 0, .ro, 0x0⟩]⟩
  -- LMP_NBSHORT, spec/08, R245
  | .LMP_NBSHORT => ⟨.logic, 0x40030020, [],
      [⟨45, 0, .ro, 0x0⟩]⟩
  -- LMP_TCFG, spec/08, R245
  | .LMP_TCFG => ⟨.logic, 0x40030028, [],
      [⟨4, 0, .rwl, 0xA⟩, ⟨23, 8, .rwl, 0x3E8⟩]⟩
  -- LMP_ADEF, spec/08, R245
  | .LMP_ADEF => ⟨.logic, 0x40030030, [],
      [⟨63, 0, .rwl, 0x0⟩]⟩
  -- LMP_FLASHf, spec/08, R245
  | .LMP_FLASH => ⟨.logic, 0x40030040, [(8, 0x8)],
      [⟨15, 0, .rwl, 0x0⟩, ⟨31, 16, .rwl, 0x0⟩, ⟨47, 32, .rwl, 0x0⟩]⟩
  -- LMP_GRPg, spec/08, R245
  | .LMP_GRP => ⟨.logic, 0x40030080, [(6, 0x8)],
      [⟨15, 0, .ro, 0x0⟩, ⟨16, 16, .ro, 0x0⟩, ⟨17, 17, .ro, 0x0⟩]⟩
  -- LMP_CFGn, spec/08, R245
  | .LMP_CFG => ⟨.logic, 0x40030100, [(48, 0x20)],
      [⟨0, 0, .rwl, 0x0⟩, ⟨11, 4, .rwl, 0x1A⟩, ⟨31, 16, .rwl, 0xC8⟩, ⟨47, 32, .rwl, 0x0⟩, ⟨63, 48, .rwl, 0xFA0⟩]⟩
  -- LMP_LIMn, spec/08, R245
  | .LMP_LIM => ⟨.logic, 0x40030108, [(48, 0x20)],
      [⟨15, 0, .rwl, 0x32⟩, ⟨31, 16, .rwl, 0xC8⟩, ⟨36, 32, .rwl, 0xA⟩]⟩
  -- LMP_STATn, spec/08, R245
  | .LMP_STAT => ⟨.logic, 0x40030110, [(48, 0x20)],
      [⟨0, 0, .ro, 0x0⟩, ⟨1, 1, .ro, 0x0⟩, ⟨3, 2, .ro, 0x0⟩, ⟨4, 4, .ro, 0x0⟩, ⟨5, 5, .w1c, 0x0⟩, ⟨6, 6, .w1c, 0x0⟩, ⟨7, 7, .w1c, 0x0⟩, ⟨8, 8, .w1c, 0x0⟩, ⟨9, 9, .w1c, 0x0⟩, ⟨10, 10, .w1c, 0x0⟩, ⟨11, 11, .w1c, 0x0⟩, ⟨12, 12, .w1c, 0x0⟩, ⟨13, 13, .ro, 0x0⟩, ⟨31, 16, .ro, 0x0⟩]⟩
  -- LMP_MEASn, spec/08, R245
  | .LMP_MEAS => ⟨.logic, 0x40030118, [(48, 0x20)],
      [⟨15, 0, .ro, 0x0⟩, ⟨31, 16, .ro, 0x0⟩, ⟨47, 32, .ro, 0x0⟩]⟩
  -- LMP_OSCFGk, spec/08, R245
  | .LMP_OSCFG => ⟨.logic, 0x40030800, [(8, 0x20)],
      [⟨0, 0, .rwl, 0x0⟩, ⟨1, 1, .rwl, 0x0⟩, ⟨3, 2, .rwl, 0x0⟩, ⟨13, 8, .rwl, 0x3F⟩, ⟨21, 16, .rwl, 0x3F⟩, ⟨29, 24, .rwl, 0x3F⟩, ⟨36, 32, .rwl, 0x0⟩, ⟨47, 40, .rwl, 0x40⟩]⟩
  -- LMP_OSLIMk, spec/08, R245
  | .LMP_OSLIM => ⟨.logic, 0x40030808, [(8, 0x20)],
      [⟨15, 0, .rwl, 0x0⟩, ⟨31, 16, .rwl, 0xFFFF⟩]⟩
  -- LMP_OSSTATk, spec/08, R245
  | .LMP_OSSTAT => ⟨.logic, 0x40030810, [(8, 0x20)],
      [⟨15, 0, .ro, 0x0⟩, ⟨31, 16, .ro, 0x0⟩, ⟨32, 32, .ro, 0x0⟩, ⟨33, 33, .w1c, 0x0⟩, ⟨34, 34, .w1c, 0x0⟩, ⟨35, 35, .w1c, 0x0⟩]⟩
  -- LMP_ASPa_w, spec/08, R245
  | .LMP_ASP => ⟨.logic, 0x40031000, [(64, 0xC0), (24, 0x8)],
      [⟨31, 0, .rwl, 0x0⟩, ⟨63, 32, .rwl, 0x0⟩]⟩
  -- PE_CTRL, spec/09, R267/R268
  | .PE_CTRL => ⟨.logic, 0x40038000, [],
      [⟨7, 0, .rw, 0x0⟩, ⟨15, 8, .rw, 0x0⟩, ⟨23, 16, .w1s, 0x0⟩, ⟨31, 24, .w1s, 0x0⟩]⟩
  -- PE_LVLk, spec/09, R267/R268
  | .PE_LVL => ⟨.logic, 0x40038040, [(16, 0x8)],
      [⟨15, 0, .rw, 0x0⟩]⟩
  -- PE_CFGe, spec/09, R267/R268
  | .PE_CFG => ⟨.logic, 0x40038100, [(8, 0x20)],
      [⟨15, 0, .rw, 0x13⟩, ⟨18, 16, .rw, 0x0⟩, ⟨22, 20, .rw, 0x0⟩]⟩
  -- PE_STATe, spec/09, R267/R268
  | .PE_STAT => ⟨.logic, 0x40038108, [(8, 0x20)],
      [⟨0, 0, .ro, 0x0⟩, ⟨6, 1, .ro, 0x0⟩, ⟨9, 7, .ro, 0x0⟩, ⟨10, 10, .w1c, 0x0⟩, ⟨11, 11, .w1c, 0x0⟩, ⟨31, 16, .ro, 0x0⟩]⟩
  -- PE_VECLOe, spec/09, R267/R268
  | .PE_VECLO => ⟨.logic, 0x40038110, [(8, 0x20)],
      [⟨15, 0, .ro, 0x0⟩, ⟨31, 16, .ro, 0x0⟩, ⟨47, 32, .ro, 0x0⟩, ⟨63, 48, .ro, 0x0⟩]⟩
  -- PE_VECHIe, spec/09, R267/R268
  | .PE_VECHI => ⟨.logic, 0x40038118, [(8, 0x20)],
      [⟨15, 0, .ro, 0x0⟩, ⟨31, 16, .ro, 0x0⟩, ⟨47, 32, .ro, 0x0⟩, ⟨63, 48, .ro, 0x0⟩]⟩
  -- PE_PROGe_b_w, spec/09, R267/R268
  | .PE_PROG => ⟨.logic, 0x40038800, [(8, 0x100), (2, 0x80), (16, 0x8)],
      [⟨15, 0, .rw, 0x0⟩, ⟨31, 16, .rw, 0x0⟩, ⟨47, 32, .rw, 0x0⟩, ⟨63, 48, .rw, 0x0⟩]⟩
  -- MX_CTRL, spec/09, R267/R268
  | .MX_CTRL => ⟨.logic, 0x40040000, [],
      [⟨0, 0, .rw, 0x0⟩, ⟨1, 1, .w1s, 0x0⟩, ⟨2, 2, .ro, 0x0⟩, ⟨3, 3, .ro, 0x1⟩]⟩
  -- MX_CFG, spec/09, R267/R268
  | .MX_CFG => ⟨.logic, 0x40040008, [],
      [⟨13, 0, .rw, 0x3E8⟩, ⟨17, 14, .rw, 0xF⟩, ⟨25, 18, .rw, 0x28⟩, ⟨31, 26, .rw, 0x14⟩, ⟨39, 32, .rw, 0x0⟩, ⟨40, 40, .rw, 0x1⟩]⟩
  -- MX_STAT, spec/09, R267/R268
  | .MX_STAT => ⟨.logic, 0x40040010, [],
      [⟨15, 0, .w1c, 0x0⟩, ⟨47, 16, .w1c, 0x0⟩, ⟨63, 48, .w1c, 0x0⟩]⟩
  -- MX_NBSHORT, spec/09, R267/R268
  | .MX_NBSHORT => ⟨.logic, 0x40040018, [],
      [⟨45, 0, .ro, 0x0⟩]⟩
  -- MX_FRAME, spec/09, R267/R268
  | .MX_FRAME => ⟨.logic, 0x40040020, [],
      [⟨31, 0, .ro, 0x0⟩]⟩
  -- MX_FBb_w, spec/09, R267/R268
  | .MX_FB => ⟨.logic, 0x40041000, [(2, 0x200), (64, 0x8)],
      [⟨63, 0, .rw, 0x0⟩]⟩
  -- ADC_CTRL, spec/10, R285
  | .ADC_CTRL => ⟨.logic, 0x40050000, [],
      [⟨0, 0, .w1s, 0x0⟩, ⟨1, 1, .rw, 0x0⟩, ⟨2, 2, .ro, 0x0⟩, ⟨3, 3, .rwl, 0x0⟩]⟩
  -- ADC_SWTRIG, spec/10, R285
  | .ADC_SWTRIG => ⟨.logic, 0x40050008, [],
      [⟨1, 0, .wo, 0x0⟩]⟩
  -- ADC_URG, spec/10, R285
  | .ADC_URG => ⟨.logic, 0x40050010, [],
      [⟨3, 0, .wo, 0x0⟩, ⟨4, 4, .wo, 0x0⟩, ⟨11, 8, .wo, 0x0⟩, ⟨12, 12, .wo, 0x0⟩]⟩
  -- ADC_CALCMD, spec/10, R285
  | .ADC_CALCMD => ⟨.logic, 0x40050018, [],
      [⟨0, 0, .wo, 0x0⟩, ⟨4, 1, .wo, 0x0⟩, ⟨6, 5, .wo, 0x0⟩]⟩
  -- ADC_CALSTAT, spec/10, R285
  | .ADC_CALSTAT => ⟨.logic, 0x40050020, [],
      [⟨0, 0, .ro, 0x0⟩, ⟨1, 1, .w1c, 0x0⟩, ⟨3, 2, .ro, 0x0⟩, ⟨4, 4, .ro, 0x0⟩, ⟨8, 5, .ro, 0x0⟩]⟩
  -- ADC_CFGc, spec/10, R285
  | .ADC_CFG => ⟨.logic, 0x40051000, [(2, 0x1000)],
      [⟨1, 0, .rwl, 0x0⟩, ⟨4, 2, .rwl, 0x0⟩, ⟨8, 5, .rwl, 0x0⟩, ⟨12, 9, .rwl, 0x0⟩, ⟨23, 16, .rwl, 0x0⟩, ⟨31, 24, .rwl, 0x40⟩, ⟨35, 32, .rwl, 0xF⟩]⟩
  -- ADC_STATc, spec/10, R285
  | .ADC_STAT => ⟨.logic, 0x40051008, [(2, 0x1000)],
      [⟨0, 0, .ro, 0x0⟩, ⟨1, 1, .ro, 0x0⟩, ⟨5, 2, .ro, 0xF⟩, ⟨6, 6, .ro, 0x0⟩, ⟨7, 7, .ro, 0x0⟩, ⟨8, 8, .ro, 0x0⟩, ⟨9, 9, .w1c, 0x0⟩, ⟨10, 10, .w1c, 0x0⟩, ⟨11, 11, .ro, 0x0⟩, ⟨12, 12, .ro, 0x0⟩, ⟨13, 13, .w1c, 0x0⟩, ⟨31, 16, .ro, 0x0⟩]⟩
  -- ADC_QSTATc, spec/10, R285
  | .ADC_QSTAT => ⟨.logic, 0x40051010, [(2, 0x1000)],
      [⟨8, 0, .ro, 0x0⟩, ⟨9, 9, .w1c, 0x0⟩, ⟨10, 10, .w1c, 0x0⟩, ⟨31, 16, .ro, 0x0⟩]⟩
  -- ADC_POPc, spec/10, R285
  | .ADC_POP => ⟨.logic, 0x40051018, [(2, 0x1000)],
      [⟨63, 0, .ro, 0x0⟩]⟩
  -- ADC_SLCNTc, spec/10, R285
  | .ADC_SLCNT => ⟨.logic, 0x40051020, [(2, 0x1000)],
      [⟨31, 0, .ro, 0x0⟩, ⟨47, 32, .ro, 0x0⟩]⟩
  -- ADC_SEQc_e, spec/10, R285
  | .ADC_SEQ => ⟨.logic, 0x40051100, [(2, 0x1000), (16, 0x8)],
      [⟨5, 0, .rwl, 0x0⟩, ⟨17, 6, .rwl, 0x0⟩, ⟨20, 18, .rwl, 0x0⟩, ⟨24, 21, .rwl, 0x0⟩, ⟨25, 25, .rwl, 0x0⟩]⟩
  -- ADC_LASTc_e, spec/10, R285
  | .ADC_LAST => ⟨.logic, 0x40051200, [(2, 0x1000), (16, 0x8)],
      [⟨63, 0, .ro, 0x0⟩]⟩
  -- ADC_CALc_k, spec/10, R285
  | .ADC_CAL => ⟨.logic, 0x40051300, [(2, 0x1000), (16, 0x10)],
      [⟨5, 0, .rwl, 0x0⟩, ⟨8, 6, .rwl, 0x0⟩, ⟨9, 9, .rwl, 0x0⟩, ⟨31, 16, .rwl, 0x0⟩, ⟨47, 32, .rwl, 0x0⟩]⟩
  -- ADC_COEFc_k, spec/10, R285
  | .ADC_COEF => ⟨.logic, 0x40051308, [(2, 0x1000), (16, 0x10)],
      [⟨31, 0, .rwl, 0x1000000⟩, ⟨63, 32, .rwl, 0x0⟩]⟩
  -- FC_CTRL, spec/11, R313/R314
  | .FC_CTRL => ⟨.logic, 0x40008000, [],
      [⟨0, 0, .w1s, 0x0⟩, ⟨1, 1, .ro, 0x0⟩, ⟨2, 2, .ro, 0x0⟩, ⟨3, 3, .ro, 0x0⟩, ⟨4, 4, .ro, 0x0⟩, ⟨5, 5, .ro, 0x0⟩]⟩
  -- FC_LSCFG, spec/11, R313/R314
  | .FC_LSCFG => ⟨.logic, 0x40008008, [],
      [⟨0, 0, .rwl, 0x0⟩, ⟨32, 16, .rwl, 0x400⟩]⟩
  -- FC_QUIET, spec/11, R313/R314
  | .FC_QUIET => ⟨.logic, 0x40008010, [],
      [⟨15, 0, .rwl, 0x3E8⟩]⟩
  -- FC_RECCFG, spec/11, R313/R314
  | .FC_RECCFG => ⟨.logic, 0x40008018, [],
      [⟨3, 0, .rwl, 0x3⟩, ⟨5, 4, .rwl, 0x2⟩, ⟨31, 16, .rwl, 0xE10⟩]⟩
  -- FC_RECCNT, spec/11, R313/R314
  | .FC_RECCNT => ⟨.logic, 0x40008020, [],
      [⟨31, 0, .rw, 0x0⟩, ⟨32, 32, .w1c, 0x0⟩]⟩
  -- FC_RECLAST, spec/11, R313/R314
  | .FC_RECLAST => ⟨.logic, 0x40008028, [],
      [⟨63, 0, .ro, 0x0⟩]⟩
  -- FC_LSCNT, spec/11, R313/R314
  | .FC_LSCNT => ⟨.logic, 0x40008030, [],
      [⟨31, 0, .ro, 0x0⟩, ⟨47, 32, .ro, 0x0⟩]⟩
  -- FC_ECCCNT, spec/11, R313/R314
  | .FC_ECCCNT => ⟨.logic, 0x40008038, [],
      [⟨31, 0, .ro, 0x0⟩, ⟨47, 32, .ro, 0x0⟩]⟩
  -- FC_RECS, spec/11, R313/R314
  | .FC_RECS => ⟨.logic, 0x40008040, [],
      [⟨0, 0, .ro, 0x0⟩, ⟨2, 1, .ro, 0x0⟩, ⟨3, 3, .ro, 0x0⟩, ⟨4, 4, .ro, 0x0⟩, ⟨31, 16, .ro, 0x0⟩]⟩
  -- FC_RECA, spec/11, R313/R314
  | .FC_RECA => ⟨.logic, 0x40008048, [],
      [⟨8, 0, .ro, 0x0⟩, ⟨9, 9, .ro, 0x0⟩, ⟨10, 10, .ro, 0x0⟩, ⟨63, 16, .ro, 0x0⟩]⟩
  -- FC_RECB, spec/11, R313/R314
  | .FC_RECB => ⟨.logic, 0x40008050, [],
      [⟨8, 0, .ro, 0x0⟩, ⟨9, 9, .ro, 0x0⟩, ⟨10, 10, .ro, 0x0⟩, ⟨63, 16, .ro, 0x0⟩]⟩
  -- FC_RECT, spec/11, R313/R314
  | .FC_RECT => ⟨.logic, 0x40008058, [],
      [⟨63, 0, .ro, 0x0⟩]⟩
  -- FC_RECN, spec/11, R313/R314
  | .FC_RECN => ⟨.logic, 0x40008060, [],
      [⟨63, 0, .ro, 0x0⟩]⟩
  -- FC_ACTk, spec/11, R313/R314
  | .FC_ACT => ⟨.logic, 0x40008100, [(8, 0x8)],
      [⟨63, 0, .ro, 0x0⟩]⟩
  -- FC_SEENk, spec/11, R313/R314
  | .FC_SEEN => ⟨.logic, 0x40008140, [(8, 0x8)],
      [⟨63, 0, .w1c, 0x0⟩]⟩
  -- FC_FORCEk, spec/11, R313/R314
  | .FC_FORCE => ⟨.logic, 0x40008180, [(8, 0x8)],
      [⟨63, 0, .rw, 0x0⟩]⟩
  -- FC_FORCEWk, spec/11, R313/R314
  | .FC_FORCEW => ⟨.logic, 0x400081C0, [(8, 0x8)],
      [⟨63, 0, .rw, 0x0⟩]⟩
  -- FC_CLASSk, spec/11, R313/R314
  | .FC_CLASS => ⟨.logic, 0x40008200, [(16, 0x8)],
      [⟨63, 0, .rwl, 0x0⟩]⟩
  -- STL_CTRL, spec/12, R345/R346
  | .HSTL_CTRL => ⟨.host, 0x30000, [],
      [⟨0, 0, .w1s, 0x0⟩]⟩
  -- STL_CFG, spec/12, R345/R346
  | .HSTL_CFG => ⟨.host, 0x30008, [],
      [⟨0, 0, .rwl, 0x0⟩, ⟨15, 8, .rwl, 0xA⟩]⟩
  -- STL_STAT, spec/12, R345/R346
  | .HSTL_STAT => ⟨.host, 0x30010, [],
      [⟨0, 0, .ro, 0x0⟩, ⟨1, 1, .ro, 0x0⟩, ⟨2, 2, .ro, 0x0⟩, ⟨3, 3, .ro, 0x0⟩, ⟨4, 4, .ro, 0x0⟩, ⟨5, 5, .ro, 0x0⟩, ⟨6, 6, .w1c, 0x0⟩]⟩
  -- STL_CNT, spec/12, R345/R346
  | .HSTL_CNT => ⟨.host, 0x30018, [],
      [⟨31, 0, .ro, 0x0⟩, ⟨47, 32, .ro, 0x0⟩, ⟨63, 48, .ro, 0x0⟩]⟩
  -- STL_DL_IMG, spec/12, R345/R346
  | .HSTL_DL_IMG => ⟨.host, 0x30020, [],
      [⟨23, 0, .rw, 0x0⟩, ⟨56, 32, .rw, 0x0⟩]⟩
  -- STL_DL_PAR, spec/12, R345/R346
  | .HSTL_DL_PAR => ⟨.host, 0x30028, [],
      [⟨23, 0, .rw, 0x0⟩, ⟨56, 32, .rw, 0x0⟩]⟩
  -- STL_DL_CMD, spec/12, R345/R346
  | .HSTL_DL_CMD => ⟨.host, 0x30030, [],
      [⟨0, 0, .wo, 0x0⟩, ⟨1, 1, .wo, 0x0⟩, ⟨2, 2, .wo, 0x0⟩]⟩
  -- STL_DL_STAT, spec/12, R345/R346
  | .HSTL_DL_STAT => ⟨.host, 0x30038, [],
      [⟨0, 0, .ro, 0x0⟩, ⟨1, 1, .ro, 0x0⟩, ⟨2, 2, .w1c, 0x0⟩, ⟨15, 8, .ro, 0x0⟩]⟩
  -- STL_TALLY, spec/12, R345/R346
  | .HSTL_TALLY => ⟨.host, 0x30040, [],
      [⟨63, 0, .ro, 0x0⟩]⟩
  -- STL_VERDA, spec/12, R345/R346
  | .HSTL_VERDA => ⟨.host, 0x30048, [],
      [⟨0, 0, .ro, 0x0⟩, ⟨1, 1, .ro, 0x0⟩, ⟨15, 8, .ro, 0x0⟩, ⟨63, 16, .ro, 0x0⟩]⟩
  -- STL_VERDB, spec/12, R345/R346
  | .HSTL_VERDB => ⟨.host, 0x30050, [],
      [⟨0, 0, .ro, 0x0⟩, ⟨1, 1, .ro, 0x0⟩, ⟨15, 8, .ro, 0x0⟩, ⟨63, 16, .ro, 0x0⟩]⟩
  -- STL_REQ_CMD, spec/12, R345/R346
  | .HSTL_REQ_CMD => ⟨.host, 0x30058, [],
      [⟨2, 0, .rw, 0x0⟩, ⟨4, 3, .rw, 0x0⟩, ⟨31, 16, .rw, 0x0⟩, ⟨32, 32, .w1s, 0x0⟩, ⟨33, 33, .ro, 0x0⟩]⟩
  -- STL_REQ_ADDR, spec/12, R345/R346
  | .HSTL_REQ_ADDR => ⟨.host, 0x30060, [],
      [⟨63, 0, .rw, 0x0⟩]⟩
  -- STL_REQ_DATA, spec/12, R345/R346
  | .HSTL_REQ_DATA => ⟨.host, 0x30068, [],
      [⟨63, 0, .rw, 0x0⟩]⟩
  -- STL_REQ_STAT, spec/12, R345/R346
  | .HSTL_REQ_STAT => ⟨.host, 0x30070, [],
      [⟨3, 0, .ro, 0x0⟩, ⟨7, 4, .ro, 0x0⟩, ⟨8, 8, .w1c, 0x0⟩, ⟨9, 9, .w1c, 0x0⟩, ⟨10, 10, .w1c, 0x0⟩]⟩
  -- STL_RSPD_A, spec/12, R345/R346
  | .HSTL_RSPD_A => ⟨.host, 0x30078, [],
      [⟨63, 0, .ro, 0x0⟩]⟩
  -- STL_RSPD_B, spec/12, R345/R346
  | .HSTL_RSPD_B => ⟨.host, 0x30080, [],
      [⟨63, 0, .ro, 0x0⟩]⟩
  -- STL_RXRING, spec/12, R345/R346
  | .HSTL_RXRING => ⟨.host, 0x30088, [],
      [⟨23, 12, .rw, 0x0⟩]⟩
  -- STL_RXPTR, spec/12, R345/R346
  | .HSTL_RXPTR => ⟨.host, 0x30090, [],
      [⟨5, 0, .ro, 0x0⟩, ⟨13, 8, .rw, 0x0⟩, ⟨16, 16, .w1c, 0x0⟩]⟩
  -- STL_TXRING, spec/12, R345/R346
  | .HSTL_TXRING => ⟨.host, 0x30098, [],
      [⟨23, 12, .rw, 0x0⟩]⟩
  -- STL_TXPTR, spec/12, R345/R346
  | .HSTL_TXPTR => ⟨.host, 0x300A0, [],
      [⟨5, 0, .rw, 0x0⟩, ⟨13, 8, .ro, 0x0⟩, ⟨16, 16, .w1c, 0x0⟩]⟩
  -- STL_MIR_BASE, spec/12, R345/R346
  | .HSTL_MIR_BASE => ⟨.host, 0x300A8, [],
      [⟨47, 12, .rw, 0x0⟩]⟩
  -- STL_MIR_CFG, spec/12, R345/R346
  | .HSTL_MIR_CFG => ⟨.host, 0x300B0, [],
      [⟨0, 0, .rw, 0x0⟩, ⟨1, 1, .rw, 0x0⟩, ⟨31, 16, .rw, 0x0⟩, ⟨47, 32, .rw, 0x1⟩]⟩
  -- STL_MIR_HEAD, spec/12, R345/R346
  | .HSTL_MIR_HEAD => ⟨.host, 0x300B8, [],
      [⟨63, 0, .ro, 0x0⟩]⟩
  -- STL_MIR_STAT, spec/12, R345/R346
  | .HSTL_MIR_STAT => ⟨.host, 0x300C0, [],
      [⟨15, 0, .ro, 0xFFFF⟩, ⟨31, 16, .ro, 0x0⟩, ⟨47, 32, .ro, 0x0⟩]⟩
  -- BB_CTRL, spec/13, R369/R370
  | .BB_CTRL => ⟨.host, 0x40000, [],
      [⟨0, 0, .w1s, 0x0⟩, ⟨1, 1, .rw, 0x0⟩, ⟨2, 2, .rw, 0x0⟩]⟩
  -- BB_CFG, spec/13, R369/R370
  | .BB_CFG => ⟨.host, 0x40008, [],
      [⟨47, 0, .rwl, 0x0⟩, ⟨53, 48, .rwl, 0x0⟩]⟩
  -- BB_VCT, spec/13, R369/R370
  | .BB_VCT => ⟨.host, 0x40010, [],
      [⟨15, 0, .rwl, 0x88B5⟩, ⟨27, 16, .rwl, 0x1⟩]⟩
  -- BB_CELLMAC, spec/13, R369/R370
  | .BB_CELLMAC => ⟨.host, 0x40018, [],
      [⟨47, 0, .rwl, 0x0⟩]⟩
  -- BB_CELLPER, spec/13, R369/R370
  | .BB_CELLPER => ⟨.host, 0x40020, [],
      [⟨23, 0, .rw, 0x0⟩]⟩
  -- BB_AS, spec/13, R369/R370
  | .BB_AS => ⟨.host, 0x40028, [],
      [⟨1, 0, .rwl, 0x0⟩, ⟨15, 8, .rwl, 0x80⟩, ⟨23, 16, .rwl, 0x80⟩, ⟨39, 24, .rwl, 0x3C⟩]⟩
  -- BB_ASSTAT, spec/13, R369/R370
  | .BB_ASSTAT => ⟨.host, 0x40030, [],
      [⟨0, 0, .ro, 0x0⟩, ⟨1, 1, .ro, 0x0⟩, ⟨2, 2, .ro, 0x0⟩, ⟨63, 32, .ro, 0x0⟩]⟩
  -- BB_CNT, spec/13, R369/R370
  | .BB_CNT => ⟨.host, 0x40038, [],
      [⟨15, 0, .ro, 0x0⟩, ⟨31, 16, .ro, 0x0⟩, ⟨47, 32, .ro, 0x0⟩, ⟨63, 48, .ro, 0x0⟩]⟩
  -- BB_PORTp, spec/13, R369/R370
  | .BB_PORT => ⟨.host, 0x40100, [(3, 0x20)],
      [⟨1, 0, .rw, 0x0⟩, ⟨2, 2, .rw, 0x0⟩, ⟨15, 8, .rw, 0xC0⟩, ⟨16, 16, .ro, 0x0⟩, ⟨17, 17, .ro, 0x0⟩]⟩
  -- BB_QBVp, spec/13, R369/R370
  | .BB_QBV => ⟨.host, 0x40108, [(2, 0x20)],
      [⟨23, 0, .rw, 0x2710⟩, ⟨29, 24, .rw, 0x0⟩, ⟨30, 30, .w1s, 0x0⟩, ⟨31, 31, .w1c, 0x0⟩, ⟨63, 32, .rw, 0x0⟩]⟩
  -- BB_PCNTp, spec/13, R369/R370
  | .BB_PCNT => ⟨.host, 0x40110, [(3, 0x20)],
      [⟨31, 0, .ro, 0x0⟩, ⟨47, 32, .ro, 0x0⟩, ⟨63, 48, .ro, 0x0⟩]⟩
  -- BB_GCLp_k, spec/13, R369/R370
  | .BB_GCL => ⟨.host, 0x41000, [(2, 0x200), (64, 0x8)],
      [⟨7, 0, .rw, 0xFF⟩, ⟨31, 8, .rw, 0x2710⟩]⟩
  -- BB_PSFs, spec/13, R369/R370
  | .BB_PSF => ⟨.host, 0x42000, [(64, 0x10)],
      [⟨47, 0, .rw, 0x0⟩, ⟨59, 48, .rw, 0x0⟩, ⟨62, 60, .rw, 0x0⟩, ⟨63, 63, .rw, 0x0⟩]⟩
  -- BB_PSMs, spec/13, R369/R370
  | .BB_PSM => ⟨.host, 0x42008, [(64, 0x10)],
      [⟨15, 0, .rw, 0x0⟩, ⟨31, 16, .rw, 0x0⟩, ⟨47, 32, .ro, 0x0⟩]⟩
  -- BB_TXCn, spec/13, R369/R370
  | .BB_TXC => ⟨.host, 0x43000, [(252, 0x10)],
      [⟨0, 0, .rw, 0x0⟩, ⟨3, 1, .rw, 0x0⟩, ⟨15, 8, .rw, 0x0⟩, ⟨31, 16, .rw, 0x0⟩, ⟨63, 32, .ro, 0x0⟩]⟩
  -- BB_TXMACn, spec/13, R369/R370
  | .BB_TXMAC => ⟨.host, 0x43008, [(252, 0x10)],
      [⟨47, 0, .rw, 0x0⟩]⟩
  -- BB_RXCn, spec/13, R369/R370
  | .BB_RXC => ⟨.host, 0x44000, [(252, 0x8)],
      [⟨0, 0, .rw, 0x0⟩, ⟨3, 1, .rw, 0x0⟩, ⟨15, 8, .rw, 0x0⟩, ⟨23, 16, .rw, 0x0⟩]⟩
  -- VCT_CTRL, spec/13, R369/R370
  | .VCT_CTRL => ⟨.logic, 0x40060000, [],
      [⟨0, 0, .w1s, 0x0⟩, ⟨1, 1, .w1s, 0x0⟩, ⟨2, 2, .ro, 0x0⟩, ⟨3, 3, .w1s, 0x0⟩]⟩
  -- VCT_CFG, spec/13, R369/R370
  | .VCT_CFG => ⟨.logic, 0x40060008, [],
      [⟨5, 0, .rwl, 0x0⟩, ⟨15, 8, .rwl, 0x0⟩, ⟨31, 16, .rwl, 0x19⟩, ⟨39, 32, .rwl, 0x3⟩, ⟨47, 40, .rwl, 0x3⟩, ⟨63, 48, .rwl, 0x32⟩]⟩
  -- VCT_CELL, spec/13, R369/R370
  | .VCT_CELL => ⟨.logic, 0x40060010, [],
      [⟨23, 0, .rwl, 0x3E8⟩, ⟨47, 24, .rwl, 0x1F4⟩]⟩
  -- VCT_POL, spec/13, R369/R370
  | .VCT_POL => ⟨.logic, 0x40060018, [],
      [⟨15, 0, .rwl, 0xFFFF⟩, ⟨31, 16, .rwl, 0xFFFF⟩, ⟨47, 32, .rwl, 0xFFFF⟩, ⟨63, 48, .rwl, 0xFFFF⟩]⟩
  -- VCT_CSEED, spec/13, R369/R370
  | .VCT_CSEED => ⟨.logic, 0x40060020, [],
      [⟨31, 0, .rwl, 0x0⟩]⟩
  -- VCT_STAT, spec/13, R369/R370
  | .VCT_STAT => ⟨.logic, 0x40060028, [],
      [⟨0, 0, .ro, 0x0⟩, ⟨1, 1, .ro, 0x0⟩, ⟨2, 2, .ro, 0x0⟩, ⟨3, 3, .ro, 0x1⟩, ⟨4, 4, .ro, 0x0⟩, ⟨15, 8, .ro, 0x0⟩, ⟨21, 16, .ro, 0x0⟩, ⟨47, 32, .ro, 0x0⟩]⟩
  -- VCT_CFOLD, spec/13, R369/R370
  | .VCT_CFOLD => ⟨.logic, 0x40060030, [],
      [⟨63, 0, .ro, 0x0⟩]⟩
  -- VCT_LATE, spec/13, R369/R370
  | .VCT_LATE => ⟨.logic, 0x40060038, [],
      [⟨63, 0, .ro, 0x0⟩]⟩
  -- VCT_LOST, spec/13, R369/R370
  | .VCT_LOST => ⟨.logic, 0x40060040, [],
      [⟨63, 0, .ro, 0x0⟩]⟩
  -- VCT_TMIS, spec/13, R369/R370
  | .VCT_TMIS => ⟨.logic, 0x40060048, [],
      [⟨63, 0, .ro, 0x0⟩]⟩
  -- VCT_CNT, spec/13, R369/R370
  | .VCT_CNT => ⟨.logic, 0x40060050, [],
      [⟨15, 0, .ro, 0x0⟩, ⟨31, 16, .ro, 0x0⟩, ⟨47, 32, .ro, 0x0⟩, ⟨63, 48, .ro, 0x0⟩]⟩
  -- VCT_EVT, spec/13, R369/R370
  | .VCT_EVT => ⟨.logic, 0x40060058, [],
      [⟨6, 0, .w1c, 0x0⟩]⟩
  -- VCT_PEERd, spec/13, R369/R370
  | .VCT_PEER => ⟨.logic, 0x40060800, [(64, 0x10)],
      [⟨0, 0, .rwl, 0x0⟩, ⟨15, 8, .rwl, 0x0⟩, ⟨31, 16, .rwl, 0x0⟩]⟩
  -- VCT_TLISTd, spec/13, R369/R370
  | .VCT_TLIST => ⟨.logic, 0x40060808, [(64, 0x10)],
      [⟨63, 0, .rw, 0x0⟩]⟩
  -- VCT_TXCn, spec/13, R369/R370
  | .VCT_TXC => ⟨.logic, 0x40061000, [(252, 0x8)],
      [⟨0, 0, .rwl, 0x0⟩, ⟨3, 1, .rwl, 0x0⟩, ⟨15, 8, .rwl, 0x0⟩, ⟨31, 16, .rwl, 0x0⟩, ⟨63, 32, .rwl, 0x0⟩]⟩
  -- VCT_RXCn, spec/13, R369/R370
  | .VCT_RXC => ⟨.logic, 0x40062000, [(252, 0x20)],
      [⟨0, 0, .rwl, 0x0⟩, ⟨3, 1, .rwl, 0x0⟩, ⟨15, 8, .rwl, 0x0⟩, ⟨23, 16, .rwl, 0x0⟩, ⟨63, 32, .rwl, 0x0⟩]⟩
  -- VCT_RXTn, spec/13, R369/R370
  | .VCT_RXT => ⟨.logic, 0x40062008, [(252, 0x20)],
      [⟨23, 0, .rwl, 0x2710⟩]⟩
  -- VCT_RXZn, spec/13, R369/R370
  | .VCT_RXZ => ⟨.logic, 0x40062010, [(252, 0x20)],
      [⟨15, 0, .rwl, 0x0⟩, ⟨31, 16, .rwl, 0x0⟩]⟩
  -- VCT_RXSn, spec/13, R369/R370
  | .VCT_RXS => ⟨.logic, 0x40062018, [(256, 0x20)],
      [⟨31, 0, .ro, 0x0⟩, ⟨32, 32, .ro, 0x0⟩, ⟨33, 33, .ro, 0x0⟩]⟩
  -- PWR_CTRL, spec/14, R397/R398
  | .PWR_CTRL => ⟨.logic, 0x4000C000, [],
      [⟨0, 0, .w1s, 0x0⟩]⟩
  -- PWR_STAT, spec/14, R397/R398
  | .PWR_STAT => ⟨.logic, 0x4000C008, [],
      [⟨0, 0, .ro, 0x0⟩, ⟨1, 1, .ro, 0x0⟩, ⟨2, 2, .ro, 0x0⟩, ⟨3, 3, .ro, 0x0⟩, ⟨7, 4, .ro, 0x0⟩]⟩
  -- PWR_PL, spec/14, R397/R398
  | .PWR_PL => ⟨.logic, 0x4000C010, [],
      [⟨1, 0, .rwf, 0x1⟩, ⟨5, 4, .ro, 0x1⟩, ⟨8, 8, .ro, 0x0⟩, ⟨9, 9, .w1c, 0x0⟩]⟩
  -- PWR_WAKE, spec/14, R397/R398
  | .PWR_WAKE => ⟨.logic, 0x4000C018, [],
      [⟨0, 0, .rwl, 0x0⟩, ⟨1, 1, .rwl, 0x0⟩, ⟨2, 2, .rwl, 0x1⟩, ⟨3, 3, .rwl, 0x0⟩, ⟨19, 16, .ro, 0x0⟩, ⟨47, 32, .rwl, 0x0⟩]⟩
  -- PWR_SAVE, spec/14, R397/R398
  | .PWR_SAVE => ⟨.logic, 0x4000C020, [],
      [⟨4, 0, .ro, 0x0⟩, ⟨8, 8, .ro, 0x0⟩, ⟨63, 32, .ro, 0x0⟩]⟩
  -- PWR_RST, spec/14, R397/R398
  | .PWR_RST => ⟨.logic, 0x4000C028, [],
      [⟨0, 0, .w1c, 0x0⟩, ⟨31, 16, .ro, 0x0⟩, ⟨47, 32, .ro, 0x0⟩]⟩
  -- PWR_CNT, spec/14, R397/R398
  | .PWR_CNT => ⟨.logic, 0x4000C030, [],
      [⟨15, 0, .ro, 0x0⟩, ⟨31, 16, .ro, 0x0⟩, ⟨47, 32, .ro, 0x0⟩, ⟨63, 48, .ro, 0x0⟩]⟩
  -- PWR_DOMk, spec/14, R397/R398
  | .PWR_DOM => ⟨.logic, 0x4000C100, [(11, 0x8)],
      [⟨1, 0, .ro, 0x2⟩, ⟨3, 2, .ro, 0x2⟩, ⟨6, 4, .ro, 0x0⟩, ⟨7, 7, .w1c, 0x0⟩, ⟨11, 8, .ro, 0x0⟩, ⟨12, 12, .w1c, 0x0⟩]⟩
  -- PWR_HCTRL, spec/14, R397/R398
  | .PWR_HCTRL => ⟨.host, 0x50000, [],
      [⟨0, 0, .w1s, 0x0⟩]⟩
  -- PWR_HSTAT, spec/14, R397/R398
  | .PWR_HSTAT => ⟨.host, 0x50008, [],
      [⟨0, 0, .w1c, 0x0⟩, ⟨31, 16, .ro, 0x0⟩, ⟨47, 32, .ro, 0x0⟩]⟩
  -- PWR_HPL, spec/14, R397/R398
  | .PWR_HPL => ⟨.host, 0x50010, [],
      [⟨1, 0, .rw, 0x1⟩, ⟨5, 4, .ro, 0x1⟩, ⟨8, 8, .ro, 0x0⟩, ⟨9, 9, .w1c, 0x0⟩]⟩
  -- PWR_HWAKE, spec/14, R397/R398
  | .PWR_HWAKE => ⟨.host, 0x50018, [],
      [⟨0, 0, .rw, 0x1⟩, ⟨1, 1, .rw, 0x1⟩, ⟨2, 2, .rw, 0x0⟩, ⟨3, 3, .rw, 0x1⟩, ⟨13, 8, .rw, 0x3E⟩, ⟨19, 16, .ro, 0x0⟩]⟩
  -- PWR_HWAKET, spec/14, R397/R398
  | .PWR_HWAKET => ⟨.host, 0x50020, [],
      [⟨47, 0, .rw, 0x0⟩]⟩
  -- PWR_HRTC, spec/14, R397/R398
  | .PWR_HRTC => ⟨.host, 0x50028, [],
      [⟨47, 0, .ro, 0x0⟩]⟩
  -- PWR_FREP, spec/14, R397/R398
  | .PWR_FREP => ⟨.host, 0x50030, [],
      [⟨9, 0, .ro, 0x0⟩, ⟨25, 16, .ro, 0x0⟩, ⟨32, 32, .ro, 0x0⟩, ⟨33, 33, .ro, 0x0⟩]⟩
  -- PWR_HDOMk, spec/14, R397/R398
  | .PWR_HDOM => ⟨.host, 0x50100, [(6, 0x8)],
      [⟨1, 0, .ro, 0x2⟩, ⟨3, 2, .rw, 0x2⟩, ⟨6, 4, .ro, 0x0⟩, ⟨7, 7, .w1c, 0x0⟩, ⟨11, 8, .ro, 0x0⟩, ⟨12, 12, .w1c, 0x0⟩]⟩
  -- SEC_LC, spec/15, R419/R420/R421
  | .SEC_LC => ⟨.host, 0x60000, [],
      [⟨1, 0, .ro, 0x0⟩, ⟨3, 2, .ro, 0x0⟩, ⟨4, 4, .ro, 0x0⟩, ⟨5, 5, .ro, 0x0⟩]⟩
  -- SEC_KREV, spec/15, R419/R420/R421
  | .SEC_KREV => ⟨.host, 0x60008, [],
      [⟨3, 0, .ro, 0x0⟩, ⟨7, 4, .ro, 0x0⟩]⟩
  -- SEC_ARB, spec/15, R419/R420/R421
  | .SEC_ARB => ⟨.host, 0x60010, [],
      [⟨6, 0, .ro, 0x0⟩]⟩
  -- SEC_UID, spec/15, R419/R420/R421
  | .SEC_UID => ⟨.host, 0x60018, [],
      [⟨63, 0, .ro, 0x0⟩]⟩
  -- SEC_OTPCMD, spec/15, R419/R420/R421
  | .SEC_OTPCMD => ⟨.host, 0x60020, [],
      [⟨3, 0, .wo, 0x0⟩, ⟨5, 4, .wo, 0x0⟩, ⟨7, 6, .wo, 0x0⟩, ⟨14, 8, .wo, 0x0⟩]⟩
  -- SEC_OTPSTAT, spec/15, R419/R420/R421
  | .SEC_OTPSTAT => ⟨.host, 0x60028, [],
      [⟨0, 0, .ro, 0x0⟩, ⟨1, 1, .w1c, 0x0⟩, ⟨3, 2, .ro, 0x0⟩]⟩
  -- SEC_KSTAGEw, spec/15, R419/R420/R421
  | .SEC_KSTAGE => ⟨.host, 0x60040, [(6, 0x8)],
      [⟨63, 0, .wo, 0x0⟩]⟩
  -- SEC_KEYn_w, spec/15, R419/R420/R421
  | .SEC_KEY => ⟨.host, 0x60100, [(4, 0x40), (6, 0x8)],
      [⟨63, 0, .ro, 0x0⟩]⟩
  -- DBG_CTRL, spec/15, R419/R420/R421
  | .HDBG_CTRL => ⟨.host, 0x70000, [],
      [⟨0, 0, .w1s, 0x0⟩, ⟨1, 1, .w1s, 0x0⟩, ⟨2, 2, .w1s, 0x0⟩, ⟨3, 3, .w1s, 0x0⟩]⟩
  -- DBG_STAT, spec/15, R419/R420/R421
  | .HDBG_STAT => ⟨.host, 0x70008, [],
      [⟨1, 0, .ro, 0x0⟩, ⟨2, 2, .ro, 0x0⟩, ⟨3, 3, .ro, 0x0⟩, ⟨4, 4, .w1c, 0x0⟩, ⟨5, 5, .ro, 0x0⟩, ⟨9, 6, .ro, 0x0⟩, ⟨15, 10, .ro, 0x0⟩, ⟨31, 16, .ro, 0x0⟩, ⟨63, 32, .ro, 0x0⟩]⟩
  -- DBG_SCOPEREQ, spec/15, R419/R420/R421
  | .HDBG_SCOPEREQ => ⟨.host, 0x70010, [],
      [⟨5, 0, .rw, 0x0⟩, ⟨31, 16, .rw, 0x0⟩]⟩
  -- DBG_CHALw, spec/15, R419/R420/R421
  | .HDBG_CHAL => ⟨.host, 0x70040, [(8, 0x8)],
      [⟨63, 0, .ro, 0x0⟩]⟩
  -- DBG_RESPw, spec/15, R419/R420/R421
  | .HDBG_RESP => ⟨.host, 0x70100, [(25, 0x8)],
      [⟨63, 0, .rw, 0x0⟩]⟩
  -- GT_CTRL, spec/16, R443/R444/R445/R446
  | .GT_CTRL => ⟨.logic, 0x40070000, [],
      [⟨0, 0, .w1s, 0x0⟩, ⟨31, 16, .w1s, 0x0⟩]⟩
  -- GT_TBASE, spec/16, R443/R444/R445/R446
  | .GT_TBASE => ⟨.logic, 0x40070008, [],
      [⟨63, 0, .ro, 0x0⟩]⟩
  -- GT_IEN, spec/16, R443/R444/R445/R446
  | .GT_IEN => ⟨.logic, 0x40070010, [],
      [⟨15, 0, .rw, 0x0⟩]⟩
  -- GT_CFGn, spec/16, R443/R444/R445/R446
  | .GT_CFG => ⟨.logic, 0x40070100, [(16, 0x40)],
      [⟨15, 0, .rwl, 0x0⟩, ⟨16, 16, .rwl, 0x0⟩, ⟨17, 17, .rwl, 0x0⟩, ⟨18, 18, .rwl, 0x0⟩, ⟨19, 19, .rwl, 0x0⟩, ⟨21, 20, .rwl, 0x0⟩, ⟨23, 22, .rwl, 0x0⟩, ⟨25, 24, .rwl, 0x0⟩, ⟨26, 26, .rwl, 0x0⟩, ⟨27, 27, .rwl, 0x0⟩]⟩
  -- GT_CNTn, spec/16, R443/R444/R445/R446
  | .GT_CNT => ⟨.logic, 0x40070108, [(16, 0x40)],
      [⟨31, 0, .rw, 0x0⟩]⟩
  -- GT_CMP0n, spec/16, R443/R444/R445/R446
  | .GT_CMP0 => ⟨.logic, 0x40070110, [(16, 0x40)],
      [⟨31, 0, .rw, 0x0⟩]⟩
  -- GT_CMP1n, spec/16, R443/R444/R445/R446
  | .GT_CMP1 => ⟨.logic, 0x40070118, [(16, 0x40)],
      [⟨31, 0, .rw, 0x0⟩]⟩
  -- GT_TOPn, spec/16, R443/R444/R445/R446
  | .GT_TOP => ⟨.logic, 0x40070120, [(16, 0x40)],
      [⟨31, 0, .rwl, 0x0⟩]⟩
  -- GT_STATn, spec/16, R443/R444/R445/R446
  | .GT_STAT => ⟨.logic, 0x40070128, [(16, 0x40)],
      [⟨0, 0, .ro, 0x0⟩, ⟨1, 1, .w1c, 0x0⟩, ⟨2, 2, .w1c, 0x0⟩, ⟨3, 3, .w1c, 0x0⟩, ⟨4, 4, .w1c, 0x0⟩, ⟨5, 5, .w1c, 0x0⟩, ⟨6, 6, .ro, 0x0⟩, ⟨11, 8, .ro, 0x0⟩]⟩
  -- GT_SNAPn, spec/16, R443/R444/R445/R446
  | .GT_SNAP => ⟨.logic, 0x40070130, [(16, 0x40)],
      [⟨31, 0, .ro, 0x0⟩]⟩
  -- GT_CAPn, spec/16, R443/R444/R445/R446
  | .GT_CAP => ⟨.logic, 0x40070138, [(16, 0x40)],
      [⟨31, 0, .rc, 0x0⟩, ⟨37, 32, .rc, 0x0⟩, ⟨38, 38, .rc, 0x0⟩, ⟨39, 39, .rc, 0x0⟩]⟩
  -- CK_OWNn, spec/16, R443/R444/R445/R446
  | .CK_OWN => ⟨.logic, 0x40078100, [(4, 0x80)],
      [⟨1, 0, .rw, 0x0⟩]⟩
  -- CK_CFGn, spec/16, R443/R444/R445/R446
  | .CK_CFG => ⟨.logic, 0x40078108, [(4, 0x80)],
      [⟨1, 0, .rw, 0x3⟩, ⟨2, 2, .rw, 0x0⟩, ⟨3, 3, .rw, 0x0⟩]⟩
  -- CK_POLYn, spec/16, R443/R444/R445/R446
  | .CK_POLY => ⟨.logic, 0x40078110, [(4, 0x80)],
      [⟨63, 0, .rw, 0x42F0E1EBA9EA3693⟩]⟩
  -- CK_INITn, spec/16, R443/R444/R445/R446
  | .CK_INIT => ⟨.logic, 0x40078118, [(4, 0x80)],
      [⟨63, 0, .rw, 0x0⟩]⟩
  -- CK_XORn, spec/16, R443/R444/R445/R446
  | .CK_XOR => ⟨.logic, 0x40078120, [(4, 0x80)],
      [⟨63, 0, .rw, 0x0⟩]⟩
  -- CK_EXPn, spec/16, R443/R444/R445/R446
  | .CK_EXP => ⟨.logic, 0x40078128, [(4, 0x80)],
      [⟨63, 0, .rw, 0x0⟩]⟩
  -- CK_RESn, spec/16, R443/R444/R445/R446
  | .CK_RES => ⟨.logic, 0x40078130, [(4, 0x80)],
      [⟨63, 0, .ro, 0x0⟩]⟩
  -- CK_STATn, spec/16, R443/R444/R445/R446
  | .CK_STAT => ⟨.logic, 0x40078138, [(4, 0x80)],
      [⟨0, 0, .ro, 0x0⟩, ⟨1, 1, .w1c, 0x0⟩, ⟨2, 2, .w1c, 0x0⟩, ⟨3, 3, .w1c, 0x0⟩, ⟨4, 4, .w1c, 0x0⟩]⟩
  -- CK_DMAn, spec/16, R443/R444/R445/R446
  | .CK_DMA => ⟨.logic, 0x40078140, [(4, 0x80)],
      [⟨31, 0, .rw, 0x0⟩, ⟨55, 32, .rw, 0x0⟩, ⟨63, 63, .w1s, 0x0⟩]⟩
  -- LOG_STAT, spec/16, R443/R444/R445/R446
  | .LOG_STAT => ⟨.logic, 0x4007C000, [],
      [⟨10, 0, .ro, 0x0⟩, ⟨27, 16, .ro, 0x0⟩, ⟨47, 32, .ro, 0x0⟩, ⟨63, 48, .ro, 0x0⟩]⟩
  -- LOG_HCTRL, spec/16, R443/R444/R445/R446
  | .LOG_HCTRL => ⟨.host, 0x80000, [],
      [⟨0, 0, .rw, 0x0⟩, ⟨1, 1, .rw, 0x0⟩]⟩
  -- LOG_HBASE, spec/16, R443/R444/R445/R446
  | .LOG_HBASE => ⟨.host, 0x80008, [],
      [⟨47, 12, .rw, 0x0⟩]⟩
  -- LOG_HSIZE, spec/16, R443/R444/R445/R446
  | .LOG_HSIZE => ⟨.host, 0x80010, [],
      [⟨4, 0, .rw, 0xA⟩]⟩
  -- LOG_HHEAD, spec/16, R443/R444/R445/R446
  | .LOG_HHEAD => ⟨.host, 0x80018, [],
      [⟨19, 0, .ro, 0x0⟩]⟩
  -- LOG_HTAIL, spec/16, R443/R444/R445/R446
  | .LOG_HTAIL => ⟨.host, 0x80020, [],
      [⟨19, 0, .rw, 0x0⟩]⟩
  -- LOG_HTHR, spec/16, R443/R444/R445/R446
  | .LOG_HTHR => ⟨.host, 0x80028, [],
      [⟨19, 0, .rw, 0x1⟩]⟩
  -- LOG_HSTAT, spec/16, R443/R444/R445/R446
  | .LOG_HSTAT => ⟨.host, 0x80030, [],
      [⟨14, 0, .ro, 0x0⟩, ⟨31, 16, .ro, 0x0⟩, ⟨47, 32, .ro, 0x0⟩]⟩
  -- BIST_CTRL, spec/17, R462/R463
  | .BIST_CTRL => ⟨.logic, 0x40080000, [],
      [⟨0, 0, .w1s, 0x0⟩]⟩
  -- BIST_STAT, spec/17, R462/R463
  | .BIST_STAT => ⟨.logic, 0x40080008, [],
      [⟨0, 0, .ro, 0x0⟩, ⟨3, 1, .ro, 0x0⟩, ⟨31, 16, .ro, 0x0⟩, ⟨47, 32, .ro, 0x0⟩]⟩
  -- BIST_LAST, spec/17, R462/R463
  | .BIST_LAST => ⟨.logic, 0x40080010, [],
      [⟨3, 0, .ro, 0x0⟩, ⟨31, 16, .ro, 0x0⟩, ⟨47, 32, .ro, 0x0⟩, ⟨63, 48, .ro, 0x0⟩]⟩
  -- BIST_LTIME, spec/17, R462/R463
  | .BIST_LTIME => ⟨.logic, 0x40080018, [],
      [⟨63, 0, .ro, 0x0⟩]⟩
  -- BIST_CNT, spec/17, R462/R463
  | .BIST_CNT => ⟨.logic, 0x40080020, [],
      [⟨15, 0, .ro, 0x0⟩, ⟨31, 16, .ro, 0x0⟩, ⟨47, 32, .ro, 0x0⟩]⟩
  -- BIST_SLFUSE, spec/17, R462/R463
  | .BIST_SLFUSE => ⟨.logic, 0x40080028, [],
      [⟨3, 0, .ro, 0xF⟩, ⟨7, 4, .ro, 0xF⟩, ⟨8, 8, .ro, 0x0⟩]⟩
  -- BIST_REPs_k, spec/17, R462/R463
  | .BIST_REP => ⟨.logic, 0x40080100, [(13, 0x80), (12, 0x8)],
      [⟨7, 0, .rwl, 0x0⟩, ⟨8, 8, .rwl, 0x0⟩, ⟨12, 9, .ro, 0x0⟩, ⟨13, 13, .ro, 0x0⟩, ⟨14, 14, .ro, 0x0⟩]⟩
  -- BIST_FUSEs_k, spec/17, R462/R463
  | .BIST_FUSE => ⟨.logic, 0x40080800, [(13, 0x80), (12, 0x8)],
      [⟨7, 0, .ro, 0x0⟩, ⟨8, 8, .ro, 0x0⟩, ⟨12, 9, .ro, 0x0⟩, ⟨13, 13, .ro, 0x0⟩, ⟨14, 14, .ro, 0x0⟩]⟩
  -- STL_STAT, spec/12, R345/R346
  | .STL_STAT => ⟨.logic, 0x40004000, [],
      [⟨0, 0, .ro, 0x0⟩, ⟨1, 1, .ro, 0x0⟩, ⟨3, 2, .ro, 0x0⟩, ⟨4, 4, .ro, 0x0⟩]⟩
  -- STL_CNT, spec/12, R345/R346
  | .STL_CNT => ⟨.logic, 0x40004008, [],
      [⟨31, 0, .ro, 0x0⟩, ⟨47, 32, .ro, 0x0⟩, ⟨63, 48, .ro, 0x0⟩]⟩
  -- STL_VERD, spec/12, R345/R346
  | .STL_VERD => ⟨.logic, 0x40004010, [],
      [⟨0, 0, .ro, 0x0⟩, ⟨1, 1, .ro, 0x0⟩, ⟨15, 8, .ro, 0x0⟩, ⟨63, 16, .ro, 0x0⟩]⟩
  -- STL_TALLY, spec/12, R345/R346
  | .STL_TALLY => ⟨.logic, 0x40004018, [],
      [⟨63, 0, .ro, 0x0⟩]⟩
  -- DBG_STAT, spec/15, R419/R420/R421
  | .DBG_STAT => ⟨.logic, 0x4000E000, [],
      [⟨5, 0, .ro, 0x0⟩, ⟨6, 6, .ro, 0x0⟩, ⟨9, 7, .ro, 0x0⟩, ⟨10, 10, .ro, 0x0⟩, ⟨63, 32, .ro, 0x0⟩]⟩
  -- DBG_BKPTk, spec/15, R419/R420/R421
  | .DBG_BKPT => ⟨.logic, 0x4000E040, [(4, 0x8)],
      [⟨31, 0, .ro, 0x0⟩, ⟨34, 32, .ro, 0x0⟩]⟩
  -- FC_CTRL, spec/11, R313/R314
  | .HFC_CTRL => ⟨.host, 0x20000, [],
      [⟨0, 0, .w1s, 0x0⟩, ⟨1, 1, .ro, 0x0⟩]⟩
  -- FC_QUIET, spec/11, R313/R314
  | .HFC_QUIET => ⟨.host, 0x20010, [],
      [⟨15, 0, .rwl, 0x3E8⟩]⟩
  -- FC_RECCNT, spec/11, R313/R314
  | .HFC_RECCNT => ⟨.host, 0x20020, [],
      [⟨31, 0, .rw, 0x0⟩, ⟨32, 32, .w1c, 0x0⟩]⟩
  -- FC_ECCCNT, spec/11, R313/R314
  | .HFC_ECCCNT => ⟨.host, 0x20038, [],
      [⟨31, 0, .ro, 0x0⟩, ⟨47, 32, .ro, 0x0⟩]⟩
  -- FC_RECS, spec/11, R313/R314
  | .HFC_RECS => ⟨.host, 0x20040, [],
      [⟨0, 0, .ro, 0x0⟩, ⟨2, 1, .ro, 0x0⟩, ⟨3, 3, .ro, 0x0⟩, ⟨4, 4, .ro, 0x0⟩, ⟨31, 16, .ro, 0x0⟩]⟩
  -- FC_RECA, spec/11, R313/R314
  | .HFC_RECA => ⟨.host, 0x20048, [],
      [⟨8, 0, .ro, 0x0⟩, ⟨9, 9, .ro, 0x0⟩, ⟨10, 10, .ro, 0x0⟩, ⟨63, 16, .ro, 0x0⟩]⟩
  -- FC_RECB, spec/11, R313/R314
  | .HFC_RECB => ⟨.host, 0x20050, [],
      [⟨8, 0, .ro, 0x0⟩, ⟨9, 9, .ro, 0x0⟩, ⟨10, 10, .ro, 0x0⟩, ⟨63, 16, .ro, 0x0⟩]⟩
  -- FC_RECT, spec/11, R313/R314
  | .HFC_RECT => ⟨.host, 0x20058, [],
      [⟨63, 0, .ro, 0x0⟩]⟩
  -- FC_RECN, spec/11, R313/R314
  | .HFC_RECN => ⟨.host, 0x20060, [],
      [⟨63, 0, .ro, 0x0⟩]⟩
  -- FC_ACTk, spec/11, R313/R314
  | .HFC_ACT => ⟨.host, 0x20100, [(4, 0x8)],
      [⟨63, 0, .ro, 0x0⟩]⟩
  -- FC_SEENk, spec/11, R313/R314
  | .HFC_SEEN => ⟨.host, 0x20140, [(4, 0x8)],
      [⟨63, 0, .w1c, 0x0⟩]⟩
  -- FC_FORCEk, spec/11, R313/R314
  | .HFC_FORCE => ⟨.host, 0x20180, [(4, 0x8)],
      [⟨63, 0, .rw, 0x0⟩]⟩
  -- FC_FORCEWk, spec/11, R313/R314
  | .HFC_FORCEW => ⟨.host, 0x201C0, [(4, 0x8)],
      [⟨63, 0, .rw, 0x0⟩]⟩
  -- FC_CLASSk, spec/11, R313/R314
  | .HFC_CLASS => ⟨.host, 0x20200, [(8, 0x8)],
      [⟨63, 0, .rwl, 0x0⟩]⟩
  -- BIST_HSTAT, spec/17, R462/R463
  | .BIST_HSTAT => ⟨.host, 0x90000, [],
      [⟨3, 0, .ro, 0x0⟩, ⟨31, 16, .ro, 0x0⟩, ⟨47, 32, .ro, 0x0⟩, ⟨63, 48, .ro, 0x0⟩]⟩
  -- BIST_REPs_k, spec/17, R462/R463
  | .HBIST_REP => ⟨.host, 0x90100, [(4, 0x8)],
      [⟨7, 0, .ro, 0x0⟩, ⟨8, 8, .ro, 0x0⟩, ⟨12, 9, .ro, 0x0⟩, ⟨13, 13, .ro, 0x0⟩, ⟨14, 14, .ro, 0x0⟩]⟩
  -- PWR_PDCTRL, spec/18, R468
  | .PWR_PDCTRL => ⟨.power, 0x50000000, [],
      [⟨0, 0, .w1s, 0x0⟩]⟩
  -- PWR_PDID, spec/18, R468
  | .PWR_PDID => ⟨.power, 0x50000008, [],
      [⟨0, 0, .ro, 0x0⟩, ⟨15, 8, .ro, 0x0⟩]⟩
  -- PWR_PDSTAT, spec/18, R468
  | .PWR_PDSTAT => ⟨.power, 0x50000010, [],
      [⟨15, 0, .ro, 0x0⟩, ⟨16, 16, .ro, 0x0⟩, ⟨17, 17, .ro, 0x0⟩, ⟨18, 18, .ro, 0x0⟩]⟩
  -- PWR_PDDOMk, spec/18, R468
  | .PWR_PDDOM => ⟨.power, 0x50000100, [(5, 0x8)],
      [⟨1, 0, .ro, 0x0⟩, ⟨6, 4, .ro, 0x0⟩]⟩
  -- SI_FEg, spec/18, R468
  | .SI_FE => ⟨.power, 0x50001000, [(6, 0x8)],
      [⟨0, 0, .ro, 0x0⟩, ⟨1, 1, .ro, 0x0⟩]⟩
  -- SI_CPLi, spec/18, R468
  | .SI_CPL => ⟨.power, 0x50001100, [(48, 0x8)],
      [⟨0, 0, .ro, 0x0⟩, ⟨15, 8, .ro, 0x0⟩]⟩
  -- TP_DRVj, spec/18, R468
  | .TP_DRV => ⟨.power, 0x50002000, [(8, 0x8)],
      [⟨0, 0, .ro, 0x0⟩, ⟨1, 1, .ro, 0x0⟩, ⟨2, 2, .ro, 0x0⟩]⟩
  -- SO_SWn, spec/18, R468
  | .SO_SW => ⟨.power, 0x50003000, [(32, 0x8)],
      [⟨0, 0, .ro, 0x0⟩, ⟨1, 1, .ro, 0x0⟩, ⟨2, 2, .ro, 0x0⟩, ⟨3, 3, .ro, 0x0⟩, ⟨31, 16, .ro, 0x0⟩]⟩
  -- SO_SENSn, spec/18, R468
  | .SO_SENS => ⟨.power, 0x50003100, [(32, 0x8)],
      [⟨0, 0, .ro, 0x0⟩, ⟨1, 1, .ro, 0x0⟩]⟩
  -- SO_CROOKPD, spec/18, R468
  | .SO_CROOKPD => ⟨.power, 0x50003200, [],
      [⟨0, 0, .ro, 0x0⟩, ⟨1, 1, .ro, 0x0⟩, ⟨2, 2, .ro, 0x0⟩]⟩
  -- LMP_STGn, spec/18, R468
  | .LMP_STG => ⟨.power, 0x50004000, [(24, 0x8)],
      [⟨15, 0, .ro, 0x0⟩, ⟨17, 16, .ro, 0x0⟩, ⟨19, 18, .ro, 0x0⟩]⟩
  -- LMP_STSn, spec/18, R468
  | .LMP_STS => ⟨.power, 0x50004100, [(24, 0x8)],
      [⟨0, 0, .ro, 0x0⟩, ⟨1, 1, .ro, 0x0⟩, ⟨2, 2, .ro, 0x0⟩, ⟨3, 3, .ro, 0x0⟩]⟩
  -- LMP_OSAFEk, spec/18, R468
  | .LMP_OSAFE => ⟨.power, 0x50004200, [(4, 0x8)],
      [⟨7, 0, .rwl, 0x0⟩]⟩
  -- LMP_OSRk, spec/18, R468
  | .LMP_OSR => ⟨.power, 0x50004220, [(4, 0x8)],
      [⟨15, 0, .ro, 0x0⟩]⟩
  -- MX_LINEl, spec/18, R468
  | .MX_LINE => ⟨.power, 0x50005000, [(16, 0x8)],
      [⟨0, 0, .ro, 0x0⟩, ⟨1, 1, .ro, 0x0⟩, ⟨31, 16, .ro, 0x0⟩]⟩
  -- MX_COLc, spec/18, R468
  | .MX_COL => ⟨.power, 0x50005100, [(32, 0x8)],
      [⟨0, 0, .ro, 0x0⟩, ⟨15, 8, .ro, 0x0⟩]⟩
  -- MX_DRVSTAT, spec/18, R468
  | .MX_DRVSTAT => ⟨.power, 0x50005200, [],
      [⟨0, 0, .ro, 0x0⟩, ⟨1, 1, .ro, 0x0⟩]⟩
  -- ADC_AFE, spec/18, R468
  | .ADC_AFE => ⟨.power, 0x50006000, [],
      [⟨0, 0, .ro, 0x0⟩, ⟨1, 1, .ro, 0x0⟩]⟩
  -- ADC_AIFLT, spec/18, R468
  | .ADC_AIFLT => ⟨.power, 0x50006008, [],
      [⟨15, 0, .rwl, 0x0⟩]⟩
  -- ADC_FACTc_k, spec/18, R468
  | .ADC_FACT => ⟨.power, 0x50006100, [(2, 0x100), (27, 0x8)],
      [⟨63, 0, .ro, 0x0⟩]⟩
  -- BIST_PDSTAT, spec/18, R468
  | .BIST_PDSTAT => ⟨.power, 0x50007000, [],
      [⟨0, 0, .ro, 0x0⟩]⟩
  -- BIST_PDSLF, spec/18, R468
  | .BIST_PDSLF => ⟨.power, 0x50007008, [],
      [⟨3, 0, .ro, 0xF⟩, ⟨7, 4, .ro, 0xF⟩, ⟨8, 8, .ro, 0x0⟩]⟩
  -- BIST_PDREPs_k, spec/18, R468
  | .BIST_PDREP => ⟨.power, 0x50007100, [(13, 0x80), (12, 0x8)],
      [⟨7, 0, .ro, 0x0⟩, ⟨8, 8, .ro, 0x0⟩, ⟨12, 9, .ro, 0x0⟩, ⟨13, 13, .ro, 0x0⟩, ⟨14, 14, .ro, 0x0⟩]⟩
  -- BIST_PDFUSEs_k, spec/18, R468
  | .BIST_PDFUSE => ⟨.power, 0x50007800, [(13, 0x80), (12, 0x8)],
      [⟨7, 0, .ro, 0x0⟩, ⟨8, 8, .ro, 0x0⟩, ⟨12, 9, .ro, 0x0⟩, ⟨13, 13, .ro, 0x0⟩, ⟨14, 14, .ro, 0x0⟩]⟩

/-! Field names: F.<register>_<field>. -/

abbrev F.FOLD_CTRL_RUN : Fld := ⟨.FOLD_CTRL, 0, 0⟩
abbrev F.FOLD_CTRL_LOCK : Fld := ⟨.FOLD_CTRL, 1, 1⟩
abbrev F.FOLD_PERIOD_PERIOD : Fld := ⟨.FOLD_PERIOD, 13, 0⟩
abbrev F.FOLD_OFFSET_OFFSET : Fld := ⟨.FOLD_OFFSET, 13, 0⟩
abbrev F.FOLD_BUDGET_BUDGET : Fld := ⟨.FOLD_BUDGET, 23, 0⟩
abbrev F.FOLD_BUDGET_JLIMIT : Fld := ⟨.FOLD_BUDGET, 44, 32⟩
abbrev F.FOLD_MISS_TOL_TOL : Fld := ⟨.FOLD_MISS_TOL, 15, 0⟩
abbrev F.FOLD_NUMBER_NUMBER : Fld := ⟨.FOLD_NUMBER, 63, 0⟩
abbrev F.FOLD_STATUS_RUNNING : Fld := ⟨.FOLD_STATUS, 0, 0⟩
abbrev F.FOLD_STATUS_STARTED : Fld := ⟨.FOLD_STATUS, 1, 1⟩
abbrev F.FOLD_STATUS_ALIGNED : Fld := ⟨.FOLD_STATUS, 2, 2⟩
abbrev F.FOLD_STATUS_MISSED_LAST : Fld := ⟨.FOLD_STATUS, 3, 3⟩
abbrev F.FOLD_STATUS_JOVF : Fld := ⟨.FOLD_STATUS, 4, 4⟩
abbrev F.FOLD_STATUS_SAFE : Fld := ⟨.FOLD_STATUS, 5, 5⟩
abbrev F.FOLD_STATUS_WRAP : Fld := ⟨.FOLD_STATUS, 6, 6⟩
abbrev F.FOLD_STATUS_CFG_REJECT : Fld := ⟨.FOLD_STATUS, 7, 7⟩
abbrev F.FOLD_STATUS_PL : Fld := ⟨.FOLD_STATUS, 11, 8⟩
abbrev F.FOLD_STATUS_TRIAD : Fld := ⟨.FOLD_STATUS, 12, 12⟩
abbrev F.FOLD_EXEC_LAST : Fld := ⟨.FOLD_EXEC, 23, 0⟩
abbrev F.FOLD_EXEC_MAX : Fld := ⟨.FOLD_EXEC, 55, 32⟩
abbrev F.FOLD_COUNTS_MISSED : Fld := ⟨.FOLD_COUNTS, 31, 0⟩
abbrev F.FOLD_COUNTS_RETRIED : Fld := ⟨.FOLD_COUNTS, 63, 32⟩
abbrev F.FOLD_PAIR_PEND_PAIRS : Fld := ⟨.FOLD_PAIR_PEND, 47, 0⟩
abbrev F.FOLD_PAIR_DISC_PAIRS : Fld := ⟨.FOLD_PAIR_DISC, 47, 0⟩
abbrev F.FOLD_ALIGN_ERR_OFFSET : Fld := ⟨.FOLD_ALIGN_ERR, 31, 0⟩
abbrev F.FOLD_ALIGN_ERR_VALID : Fld := ⟨.FOLD_ALIGN_ERR, 32, 32⟩
abbrev F.FOLD_SNAP_LEASE_LEASE_ID : Fld := ⟨.FOLD_SNAP_LEASE, 15, 0⟩
abbrev F.FOLD_SNAP_CHECK_LEASE_ID : Fld := ⟨.FOLD_SNAP_CHECK, 15, 0⟩
abbrev F.FOLD_SNAP_RELEASE_RELEASE : Fld := ⟨.FOLD_SNAP_RELEASE, 0, 0⟩
abbrev F.FOLD_SNAP_CFG_LEASE_US : Fld := ⟨.FOLD_SNAP_CFG, 9, 0⟩
abbrev F.FOLD_SNAP_STATUS_MISMATCH : Fld := ⟨.FOLD_SNAP_STATUS, 0, 0⟩
abbrev F.FOLD_SNAP_STATUS_EXPIRED : Fld := ⟨.FOLD_SNAP_STATUS, 1, 1⟩
abbrev F.FOLD_SNAP_LAST_NUMBER : Fld := ⟨.FOLD_SNAP_LAST, 63, 0⟩
abbrev F.SI_CTRL_LOCK : Fld := ⟨.SI_CTRL, 0, 0⟩
abbrev F.SI_CTRL_SAMPLING : Fld := ⟨.SI_CTRL, 1, 1⟩
abbrev F.SI_FILT_BITS : Fld := ⟨.SI_FILT, 47, 0⟩
abbrev F.SI_RAW_BITS : Fld := ⟨.SI_RAW, 47, 0⟩
abbrev F.SI_CHG_BITS : Fld := ⟨.SI_CHG, 47, 0⟩
abbrev F.SI_IRQEN_BITS : Fld := ⟨.SI_IRQEN, 47, 0⟩
abbrev F.SI_WAKE_BITS : Fld := ⟨.SI_WAKE, 47, 0⟩
abbrev F.SI_TSUM_BITS : Fld := ⟨.SI_TSUM, 47, 0⟩
abbrev F.SI_FEMIS_GROUP : Fld := ⟨.SI_FEMIS, 11, 0⟩
abbrev F.SI_GRP_SPER : Fld := ⟨.SI_GRP, 15, 0⟩
abbrev F.SI_GRP_WIN : Fld := ⟨.SI_GRP, 21, 16⟩
abbrev F.SI_GRP_TYPE : Fld := ⟨.SI_GRP, 24, 24⟩
abbrev F.SI_GRP_WET : Fld := ⟨.SI_GRP, 25, 25⟩
abbrev F.SI_AICFG_ENABLE : Fld := ⟨.SI_AICFG, 0, 0⟩
abbrev F.SI_AICFG_MODE : Fld := ⟨.SI_AICFG, 1, 1⟩
abbrev F.SI_AICFG_ENTRY : Fld := ⟨.SI_AICFG, 5, 2⟩
abbrev F.SI_AICFG_MAXAGE : Fld := ⟨.SI_AICFG, 27, 8⟩
abbrev F.SI_AICFG_OVC : Fld := ⟨.SI_AICFG, 28, 28⟩
abbrev F.SI_AICFG_STALE : Fld := ⟨.SI_AICFG, 29, 29⟩
abbrev F.SI_CFG_N : Fld := ⟨.SI_CFG, 9, 0⟩
abbrev F.SI_CFG_DARK : Fld := ⟨.SI_CFG, 10, 10⟩
abbrev F.SI_CFG_BIND : Fld := ⟨.SI_CFG, 11, 11⟩
abbrev F.SI_CFG_SRC : Fld := ⟨.SI_CFG, 14, 12⟩
abbrev F.SI_CFG_CAPEN : Fld := ⟨.SI_CFG, 16, 16⟩
abbrev F.SI_CFG_CAPEDGE : Fld := ⟨.SI_CFG, 18, 17⟩
abbrev F.SI_CFG_CAPGT : Fld := ⟨.SI_CFG, 23, 20⟩
abbrev F.SI_STAT_FILT : Fld := ⟨.SI_STAT, 0, 0⟩
abbrev F.SI_STAT_RAW : Fld := ⟨.SI_STAT, 1, 1⟩
abbrev F.SI_STAT_COUNT : Fld := ⟨.SI_STAT, 11, 2⟩
abbrev F.SI_STAT_TEST : Fld := ⟨.SI_STAT, 14, 12⟩
abbrev F.SI_STAT_CAUSE : Fld := ⟨.SI_STAT, 15, 15⟩
abbrev F.SI_STAT_DARKPEND : Fld := ⟨.SI_STAT, 16, 16⟩
abbrev F.SI_TPCHK_FPL : Fld := ⟨.SI_TPCHK, 9, 0⟩
abbrev F.SI_TPCHK_XWIN : Fld := ⟨.SI_TPCHK, 39, 16⟩
abbrev F.SI_CNT_FOREIGN : Fld := ⟨.SI_CNT, 15, 0⟩
abbrev F.SI_CNT_MISSED : Fld := ⟨.SI_CNT, 31, 16⟩
abbrev F.SI_CNT_DARKERR : Fld := ⟨.SI_CNT, 47, 32⟩
abbrev F.TP_CTRL_EN : Fld := ⟨.TP_CTRL, 7, 0⟩
abbrev F.TP_CTRL_LOCK : Fld := ⟨.TP_CTRL, 8, 8⟩
abbrev F.TP_CTRL_ACTIVE : Fld := ⟨.TP_CTRL, 16, 16⟩
abbrev F.TP_SUM_FAULT : Fld := ⟨.TP_SUM, 7, 0⟩
abbrev F.TP_CFG_WMIN : Fld := ⟨.TP_CFG, 15, 0⟩
abbrev F.TP_CFG_WMAX : Fld := ⟨.TP_CFG, 31, 16⟩
abbrev F.TP_CFG_SETTLE : Fld := ⟨.TP_CFG, 39, 32⟩
abbrev F.TP_PER_PMAX : Fld := ⟨.TP_PER, 23, 0⟩
abbrev F.TP_STAT_CMD : Fld := ⟨.TP_STAT, 0, 0⟩
abbrev F.TP_STAT_RB : Fld := ⟨.TP_STAT, 1, 1⟩
abbrev F.TP_STAT_SHORTLOW : Fld := ⟨.TP_STAT, 2, 2⟩
abbrev F.TP_STAT_STUCKHIGH : Fld := ⟨.TP_STAT, 3, 3⟩
abbrev F.TP_STAT_BADWIDTH : Fld := ⟨.TP_STAT, 4, 4⟩
abbrev F.TP_STAT_NOPULSE : Fld := ⟨.TP_STAT, 5, 5⟩
abbrev F.TP_STAT_OVT : Fld := ⟨.TP_STAT, 6, 6⟩
abbrev F.TP_CNT_VALID : Fld := ⟨.TP_CNT, 31, 0⟩
abbrev F.TP_CNT_INVALID : Fld := ⟨.TP_CNT, 47, 32⟩
abbrev F.SO_CTRL_LOCK : Fld := ⟨.SO_CTRL, 0, 0⟩
abbrev F.SO_CTRL_TESTS : Fld := ⟨.SO_CTRL, 1, 1⟩
abbrev F.SO_TCFG_SLOT : Fld := ⟨.SO_TCFG, 19, 0⟩
abbrev F.SO_CMD_CMD : Fld := ⟨.SO_CMD, 31, 0⟩
abbrev F.SO_CMD_CLOSED : Fld := ⟨.SO_CMD, 63, 32⟩
abbrev F.SO_SUM_BITS : Fld := ⟨.SO_SUM, 31, 0⟩
abbrev F.SO_SHORT_BITS : Fld := ⟨.SO_SHORT, 31, 0⟩
abbrev F.SO_HELD_BITS : Fld := ⟨.SO_HELD, 31, 0⟩
abbrev F.SO_CROOK_IN_A : Fld := ⟨.SO_CROOK, 0, 0⟩
abbrev F.SO_CROOK_IN_B : Fld := ⟨.SO_CROOK, 1, 1⟩
abbrev F.SO_CROOK_OUT_RB : Fld := ⟨.SO_CROOK, 2, 2⟩
abbrev F.SO_CROOK_OUT_CMD : Fld := ⟨.SO_CROOK, 3, 3⟩
abbrev F.SO_CROOK_HOLD : Fld := ⟨.SO_CROOK, 4, 4⟩
abbrev F.SO_CROOK_CPEN : Fld := ⟨.SO_CROOK, 5, 5⟩
abbrev F.SO_CROOK_PEND : Fld := ⟨.SO_CROOK, 6, 6⟩
abbrev F.SO_CROOK_STUCK : Fld := ⟨.SO_CROOK, 7, 7⟩
abbrev F.SO_CROOK_LOW : Fld := ⟨.SO_CROOK, 8, 8⟩
abbrev F.SO_CROOKCNT_STOPS : Fld := ⟨.SO_CROOKCNT, 15, 0⟩
abbrev F.SO_CROOKCNT_PFAIL : Fld := ⟨.SO_CROOKCNT, 31, 16⟩
abbrev F.SO_GRP_CURR : Fld := ⟨.SO_GRP, 15, 0⟩
abbrev F.SO_GRP_GRPOVL : Fld := ⟨.SO_GRP, 16, 16⟩
abbrev F.SO_GRP_VOUTLOW : Fld := ⟨.SO_GRP, 17, 17⟩
abbrev F.SO_GRP_VOUT : Fld := ⟨.SO_GRP, 47, 32⟩
abbrev F.SO_CFG_OPW : Fld := ⟨.SO_CFG, 8, 0⟩
abbrev F.SO_CFG_OFFTEST : Fld := ⟨.SO_CFG, 9, 9⟩
abbrev F.SO_CFG_ONTEST : Fld := ⟨.SO_CFG, 10, 10⟩
abbrev F.SO_CFG_OPON : Fld := ⟨.SO_CFG, 21, 16⟩
abbrev F.SO_CFG_OFFT : Fld := ⟨.SO_CFG, 37, 24⟩
abbrev F.SO_CFG_ONT : Fld := ⟨.SO_CFG, 53, 40⟩
abbrev F.SO_STAT_NODE : Fld := ⟨.SO_STAT, 0, 0⟩
abbrev F.SO_STAT_MID : Fld := ⟨.SO_STAT, 1, 1⟩
abbrev F.SO_STAT_PENDA : Fld := ⟨.SO_STAT, 2, 2⟩
abbrev F.SO_STAT_PENDB : Fld := ⟨.SO_STAT, 3, 3⟩
abbrev F.SO_STAT_STAYON : Fld := ⟨.SO_STAT, 4, 4⟩
abbrev F.SO_STAT_CAUSE : Fld := ⟨.SO_STAT, 6, 5⟩
abbrev F.SO_STAT_NOON : Fld := ⟨.SO_STAT, 7, 7⟩
abbrev F.SO_STAT_OVL : Fld := ⟨.SO_STAT, 8, 8⟩
abbrev F.SO_STAT_OVT : Fld := ⟨.SO_STAT, 9, 9⟩
abbrev F.SO_STAT_HELDMIS : Fld := ⟨.SO_STAT, 10, 10⟩
abbrev F.SO_STAT_LATCHED : Fld := ⟨.SO_STAT, 11, 11⟩
abbrev F.SO_STAT_PARTNER : Fld := ⟨.SO_STAT, 17, 12⟩
abbrev F.SO_CNT_JUDGED : Fld := ⟨.SO_CNT, 31, 0⟩
abbrev F.SO_CNT_FAILED : Fld := ⟨.SO_CNT, 47, 32⟩
abbrev F.SO_CNT_LIMIT : Fld := ⟨.SO_CNT, 63, 48⟩
abbrev F.SO_SIGCFG_SIGEN : Fld := ⟨.SO_SIGCFG, 0, 0⟩
abbrev F.SO_SIGCFG_LEARN : Fld := ⟨.SO_SIGCFG, 1, 1⟩
abbrev F.SO_SIGCFG_DEC : Fld := ⟨.SO_SIGCFG, 13, 2⟩
abbrev F.SO_SIGCFG_DELAY : Fld := ⟨.SO_SIGCFG, 31, 16⟩
abbrev F.SO_SIGCFG_THR : Fld := ⟨.SO_SIGCFG, 63, 32⟩
abbrev F.SO_SIGSTAT_DEV : Fld := ⟨.SO_SIGSTAT, 31, 0⟩
abbrev F.SO_SIGSTAT_VALID : Fld := ⟨.SO_SIGSTAT, 32, 32⟩
abbrev F.SO_SIGSTAT_REF : Fld := ⟨.SO_SIGSTAT, 33, 33⟩
abbrev F.SO_SIGSTAT_SIGDEV : Fld := ⟨.SO_SIGSTAT, 34, 34⟩
abbrev F.SO_SIGSTAT_SIGMISS : Fld := ⟨.SO_SIGSTAT, 35, 35⟩
abbrev F.SO_SIGSTAT_DONE : Fld := ⟨.SO_SIGSTAT, 36, 36⟩
abbrev F.LMP_CTRL_LOCK : Fld := ⟨.LMP_CTRL, 0, 0⟩
abbrev F.LMP_CTRL_ACTIVE : Fld := ⟨.LMP_CTRL, 1, 1⟩
abbrev F.LMP_DISP_ASP : Fld := ⟨.LMP_DISP, 5, 0⟩
abbrev F.LMP_DISP_DEFINED : Fld := ⟨.LMP_DISP, 6, 6⟩
abbrev F.LMP_PROOF_ASP : Fld := ⟨.LMP_PROOF, 5, 0⟩
abbrev F.LMP_PROOF_PROVEN : Fld := ⟨.LMP_PROOF, 6, 6⟩
abbrev F.LMP_PROOF_FAILED : Fld := ⟨.LMP_PROOF, 7, 7⟩
abbrev F.LMP_PROOF_CAUSE : Fld := ⟨.LMP_PROOF, 11, 8⟩
abbrev F.LMP_PROOF_SOURCE : Fld := ⟨.LMP_PROOF, 17, 12⟩
abbrev F.LMP_SUM_BITS : Fld := ⟨.LMP_SUM, 47, 0⟩
abbrev F.LMP_NBSHORT_PAIRS : Fld := ⟨.LMP_NBSHORT, 45, 0⟩
abbrev F.LMP_TCFG_SETTLE : Fld := ⟨.LMP_TCFG, 4, 0⟩
abbrev F.LMP_TCFG_PALIVE : Fld := ⟨.LMP_TCFG, 23, 8⟩
abbrev F.LMP_ADEF_DEF : Fld := ⟨.LMP_ADEF, 63, 0⟩
abbrev F.LMP_FLASH_PERIOD : Fld := ⟨.LMP_FLASH, 15, 0⟩
abbrev F.LMP_FLASH_ON : Fld := ⟨.LMP_FLASH, 31, 16⟩
abbrev F.LMP_FLASH_PHASE : Fld := ⟨.LMP_FLASH, 47, 32⟩
abbrev F.LMP_GRP_VLAMP : Fld := ⟨.LMP_GRP, 15, 0⟩
abbrev F.LMP_GRP_VLOW : Fld := ⟨.LMP_GRP, 16, 16⟩
abbrev F.LMP_GRP_VHIGH : Fld := ⟨.LMP_GRP, 17, 17⟩
abbrev F.LMP_CFG_EN : Fld := ⟨.LMP_CFG, 0, 0⟩
abbrev F.LMP_CFG_TOL : Fld := ⟨.LMP_CFG, 11, 4⟩
abbrev F.LMP_CFG_IOFS : Fld := ⟨.LMP_CFG, 31, 16⟩
abbrev F.LMP_CFG_VMIN : Fld := ⟨.LMP_CFG, 47, 32⟩
abbrev F.LMP_CFG_VMAX : Fld := ⟨.LMP_CFG, 63, 48⟩
abbrev F.LMP_LIM_ILEAK : Fld := ⟨.LMP_LIM, 15, 0⟩
abbrev F.LMP_LIM_VDARK : Fld := ⟨.LMP_LIM, 31, 16⟩
abbrev F.LMP_LIM_LIND : Fld := ⟨.LMP_LIM, 36, 32⟩
abbrev F.LMP_STAT_LIT : Fld := ⟨.LMP_STAT, 0, 0⟩
abbrev F.LMP_STAT_PULSE : Fld := ⟨.LMP_STAT, 1, 1⟩
abbrev F.LMP_STAT_RANGE : Fld := ⟨.LMP_STAT, 3, 2⟩
abbrev F.LMP_STAT_PEND : Fld := ⟨.LMP_STAT, 4, 4⟩
abbrev F.LMP_STAT_FAILLIT : Fld := ⟨.LMP_STAT, 5, 5⟩
abbrev F.LMP_STAT_FAILDARK : Fld := ⟨.LMP_STAT, 6, 6⟩
abbrev F.LMP_STAT_FAILV : Fld := ⟨.LMP_STAT, 7, 7⟩
abbrev F.LMP_STAT_ENVOVR : Fld := ⟨.LMP_STAT, 8, 8⟩
abbrev F.LMP_STAT_NOTALIVE : Fld := ⟨.LMP_STAT, 9, 9⟩
abbrev F.LMP_STAT_OPEN : Fld := ⟨.LMP_STAT, 10, 10⟩
abbrev F.LMP_STAT_OCP : Fld := ⟨.LMP_STAT, 11, 11⟩
abbrev F.LMP_STAT_LXFAIL : Fld := ⟨.LMP_STAT, 12, 12⟩
abbrev F.LMP_STAT_OVT : Fld := ⟨.LMP_STAT, 13, 13⟩
abbrev F.LMP_STAT_BEFF : Fld := ⟨.LMP_STAT, 31, 16⟩
abbrev F.LMP_MEAS_CURR : Fld := ⟨.LMP_MEAS, 15, 0⟩
abbrev F.LMP_MEAS_VOLT : Fld := ⟨.LMP_MEAS, 31, 16⟩
abbrev F.LMP_MEAS_TRIM : Fld := ⟨.LMP_MEAS, 47, 32⟩
abbrev F.LMP_OSCFG_EN : Fld := ⟨.LMP_OSCFG, 0, 0⟩
abbrev F.LMP_OSCFG_OPROOF : Fld := ⟨.LMP_OSCFG, 1, 1⟩
abbrev F.LMP_OSCFG_OSRANGE : Fld := ⟨.LMP_OSCFG, 3, 2⟩
abbrev F.LMP_OSCFG_S0 : Fld := ⟨.LMP_OSCFG, 13, 8⟩
abbrev F.LMP_OSCFG_S1 : Fld := ⟨.LMP_OSCFG, 21, 16⟩
abbrev F.LMP_OSCFG_S2 : Fld := ⟨.LMP_OSCFG, 29, 24⟩
abbrev F.LMP_OSCFG_TRIM : Fld := ⟨.LMP_OSCFG, 36, 32⟩
abbrev F.LMP_OSCFG_GAIN : Fld := ⟨.LMP_OSCFG, 47, 40⟩
abbrev F.LMP_OSLIM_OLIT : Fld := ⟨.LMP_OSLIM, 15, 0⟩
abbrev F.LMP_OSLIM_ODARK : Fld := ⟨.LMP_OSLIM, 31, 16⟩
abbrev F.LMP_OSSTAT_LAST : Fld := ⟨.LMP_OSSTAT, 15, 0⟩
abbrev F.LMP_OSSTAT_SLOT : Fld := ⟨.LMP_OSSTAT, 31, 16⟩
abbrev F.LMP_OSSTAT_PEND : Fld := ⟨.LMP_OSSTAT, 32, 32⟩
abbrev F.LMP_OSSTAT_FAILLIT : Fld := ⟨.LMP_OSSTAT, 33, 33⟩
abbrev F.LMP_OSSTAT_FAILDARK : Fld := ⟨.LMP_OSSTAT, 34, 34⟩
abbrev F.LMP_OSSTAT_CLAMP : Fld := ⟨.LMP_OSSTAT, 35, 35⟩
abbrev F.LMP_ASP_ENTRY_LO : Fld := ⟨.LMP_ASP, 31, 0⟩
abbrev F.LMP_ASP_ENTRY_HI : Fld := ⟨.LMP_ASP, 63, 32⟩
abbrev F.PE_CTRL_RUN : Fld := ⟨.PE_CTRL, 7, 0⟩
abbrev F.PE_CTRL_PAUSE : Fld := ⟨.PE_CTRL, 15, 8⟩
abbrev F.PE_CTRL_SWAP : Fld := ⟨.PE_CTRL, 23, 16⟩
abbrev F.PE_CTRL_FSWAP : Fld := ⟨.PE_CTRL, 31, 24⟩
abbrev F.PE_LVL_LEVEL : Fld := ⟨.PE_LVL, 15, 0⟩
abbrev F.PE_CFG_TDIV : Fld := ⟨.PE_CFG, 15, 0⟩
abbrev F.PE_CFG_LINK : Fld := ⟨.PE_CFG, 18, 16⟩
abbrev F.PE_CFG_GROUP : Fld := ⟨.PE_CFG, 22, 20⟩
abbrev F.PE_STAT_BANK : Fld := ⟨.PE_STAT, 0, 0⟩
abbrev F.PE_STAT_PC : Fld := ⟨.PE_STAT, 6, 1⟩
abbrev F.PE_STAT_STATE : Fld := ⟨.PE_STAT, 9, 7⟩
abbrev F.PE_STAT_ILL : Fld := ⟨.PE_STAT, 10, 10⟩
abbrev F.PE_STAT_ABORT : Fld := ⟨.PE_STAT, 11, 11⟩
abbrev F.PE_STAT_STALLT : Fld := ⟨.PE_STAT, 31, 16⟩
abbrev F.PE_VECLO_E0 : Fld := ⟨.PE_VECLO, 15, 0⟩
abbrev F.PE_VECLO_E1 : Fld := ⟨.PE_VECLO, 31, 16⟩
abbrev F.PE_VECLO_E2 : Fld := ⟨.PE_VECLO, 47, 32⟩
abbrev F.PE_VECLO_E3 : Fld := ⟨.PE_VECLO, 63, 48⟩
abbrev F.PE_VECHI_E4 : Fld := ⟨.PE_VECHI, 15, 0⟩
abbrev F.PE_VECHI_E5 : Fld := ⟨.PE_VECHI, 31, 16⟩
abbrev F.PE_VECHI_E6 : Fld := ⟨.PE_VECHI, 47, 32⟩
abbrev F.PE_VECHI_E7 : Fld := ⟨.PE_VECHI, 63, 48⟩
abbrev F.PE_PROG_I0 : Fld := ⟨.PE_PROG, 15, 0⟩
abbrev F.PE_PROG_I1 : Fld := ⟨.PE_PROG, 31, 16⟩
abbrev F.PE_PROG_I2 : Fld := ⟨.PE_PROG, 47, 32⟩
abbrev F.PE_PROG_I3 : Fld := ⟨.PE_PROG, 63, 48⟩
abbrev F.MX_CTRL_EN : Fld := ⟨.MX_CTRL, 0, 0⟩
abbrev F.MX_CTRL_FLIP : Fld := ⟨.MX_CTRL, 1, 1⟩
abbrev F.MX_CTRL_FRONT : Fld := ⟨.MX_CTRL, 2, 2⟩
abbrev F.MX_CTRL_BLANKED : Fld := ⟨.MX_CTRL, 3, 3⟩
abbrev F.MX_CFG_FPER : Fld := ⟨.MX_CFG, 13, 0⟩
abbrev F.MX_CFG_LINES : Fld := ⟨.MX_CFG, 17, 14⟩
abbrev F.MX_CFG_BLANK : Fld := ⟨.MX_CFG, 25, 18⟩
abbrev F.MX_CFG_ICOL : Fld := ⟨.MX_CFG, 31, 26⟩
abbrev F.MX_CFG_VPRE : Fld := ⟨.MX_CFG, 39, 32⟩
abbrev F.MX_CFG_NBTEST : Fld := ⟨.MX_CFG, 40, 40⟩
abbrev F.MX_STAT_LINEOCP : Fld := ⟨.MX_STAT, 15, 0⟩
abbrev F.MX_STAT_COLOPEN : Fld := ⟨.MX_STAT, 47, 16⟩
abbrev F.MX_STAT_LINEHI : Fld := ⟨.MX_STAT, 63, 48⟩
abbrev F.MX_NBSHORT_PAIRS : Fld := ⟨.MX_NBSHORT, 45, 0⟩
abbrev F.MX_FRAME_COUNT : Fld := ⟨.MX_FRAME, 31, 0⟩
abbrev F.MX_FB_PIX : Fld := ⟨.MX_FB, 63, 0⟩
abbrev F.ADC_CTRL_LOCK : Fld := ⟨.ADC_CTRL, 0, 0⟩
abbrev F.ADC_CTRL_REFEN : Fld := ⟨.ADC_CTRL, 1, 1⟩
abbrev F.ADC_CTRL_REFRDY : Fld := ⟨.ADC_CTRL, 2, 2⟩
abbrev F.ADC_CTRL_CALEN : Fld := ⟨.ADC_CTRL, 3, 3⟩
abbrev F.ADC_SWTRIG_TRIG : Fld := ⟨.ADC_SWTRIG, 1, 0⟩
abbrev F.ADC_URG_ENTRY0 : Fld := ⟨.ADC_URG, 3, 0⟩
abbrev F.ADC_URG_REQ0 : Fld := ⟨.ADC_URG, 4, 4⟩
abbrev F.ADC_URG_ENTRY1 : Fld := ⟨.ADC_URG, 11, 8⟩
abbrev F.ADC_URG_REQ1 : Fld := ⟨.ADC_URG, 12, 12⟩
abbrev F.ADC_CALCMD_CONV : Fld := ⟨.ADC_CALCMD, 0, 0⟩
abbrev F.ADC_CALCMD_SLOT : Fld := ⟨.ADC_CALCMD, 4, 1⟩
abbrev F.ADC_CALCMD_OP : Fld := ⟨.ADC_CALCMD, 6, 5⟩
abbrev F.ADC_CALSTAT_BUSY : Fld := ⟨.ADC_CALSTAT, 0, 0⟩
abbrev F.ADC_CALSTAT_DONE : Fld := ⟨.ADC_CALSTAT, 1, 1⟩
abbrev F.ADC_CALSTAT_RESULT : Fld := ⟨.ADC_CALSTAT, 3, 2⟩
abbrev F.ADC_CALSTAT_CONV : Fld := ⟨.ADC_CALSTAT, 4, 4⟩
abbrev F.ADC_CALSTAT_SLOT : Fld := ⟨.ADC_CALSTAT, 8, 5⟩
abbrev F.ADC_CFG_MODE : Fld := ⟨.ADC_CFG, 1, 0⟩
abbrev F.ADC_CFG_TRIG : Fld := ⟨.ADC_CFG, 4, 2⟩
abbrev F.ADC_CFG_TRIGGT : Fld := ⟨.ADC_CFG, 8, 5⟩
abbrev F.ADC_CFG_LAST : Fld := ⟨.ADC_CFG, 12, 9⟩
abbrev F.ADC_CFG_QTHR : Fld := ⟨.ADC_CFG, 23, 16⟩
abbrev F.ADC_CFG_SHWIN : Fld := ⟨.ADC_CFG, 31, 24⟩
abbrev F.ADC_CFG_PRERET : Fld := ⟨.ADC_CFG, 35, 32⟩
abbrev F.ADC_STAT_RUN : Fld := ⟨.ADC_STAT, 0, 0⟩
abbrev F.ADC_STAT_SUBST : Fld := ⟨.ADC_STAT, 1, 1⟩
abbrev F.ADC_STAT_RETIRED : Fld := ⟨.ADC_STAT, 5, 2⟩
abbrev F.ADC_STAT_NOSPARE : Fld := ⟨.ADC_STAT, 6, 6⟩
abbrev F.ADC_STAT_FAULT : Fld := ⟨.ADC_STAT, 7, 7⟩
abbrev F.ADC_STAT_SLOWCAL : Fld := ⟨.ADC_STAT, 8, 8⟩
abbrev F.ADC_STAT_TRIGMISS : Fld := ⟨.ADC_STAT, 9, 9⟩
abbrev F.ADC_STAT_URGMISS : Fld := ⟨.ADC_STAT, 10, 10⟩
abbrev F.ADC_STAT_CAPTURE : Fld := ⟨.ADC_STAT, 11, 11⟩
abbrev F.ADC_STAT_CONVERGED : Fld := ⟨.ADC_STAT, 12, 12⟩
abbrev F.ADC_STAT_RETEVT : Fld := ⟨.ADC_STAT, 13, 13⟩
abbrev F.ADC_STAT_LVALID : Fld := ⟨.ADC_STAT, 31, 16⟩
abbrev F.ADC_QSTAT_COUNT : Fld := ⟨.ADC_QSTAT, 8, 0⟩
abbrev F.ADC_QSTAT_OVF : Fld := ⟨.ADC_QSTAT, 9, 9⟩
abbrev F.ADC_QSTAT_UNDER : Fld := ⟨.ADC_QSTAT, 10, 10⟩
abbrev F.ADC_QSTAT_LOST : Fld := ⟨.ADC_QSTAT, 31, 16⟩
abbrev F.ADC_POP_RESULT : Fld := ⟨.ADC_POP, 63, 0⟩
abbrev F.ADC_SLCNT_TRANS : Fld := ⟨.ADC_SLCNT, 31, 0⟩
abbrev F.ADC_SLCNT_ROUNDS : Fld := ⟨.ADC_SLCNT, 47, 32⟩
abbrev F.ADC_SEQ_CH : Fld := ⟨.ADC_SEQ, 5, 0⟩
abbrev F.ADC_SEQ_SMP : Fld := ⟨.ADC_SEQ, 17, 6⟩
abbrev F.ADC_SEQ_GAIN : Fld := ⟨.ADC_SEQ, 20, 18⟩
abbrev F.ADC_SEQ_AVG : Fld := ⟨.ADC_SEQ, 24, 21⟩
abbrev F.ADC_SEQ_QEN : Fld := ⟨.ADC_SEQ, 25, 25⟩
abbrev F.ADC_LAST_RESULT : Fld := ⟨.ADC_LAST, 63, 0⟩
abbrev F.ADC_CAL_CH : Fld := ⟨.ADC_CAL, 5, 0⟩
abbrev F.ADC_CAL_GAIN : Fld := ⟨.ADC_CAL, 8, 6⟩
abbrev F.ADC_CAL_VALID : Fld := ⟨.ADC_CAL, 9, 9⟩
abbrev F.ADC_CAL_ZT : Fld := ⟨.ADC_CAL, 31, 16⟩
abbrev F.ADC_CAL_FT : Fld := ⟨.ADC_CAL, 47, 32⟩
abbrev F.ADC_COEF_GAIN : Fld := ⟨.ADC_COEF, 31, 0⟩
abbrev F.ADC_COEF_OFS : Fld := ⟨.ADC_COEF, 63, 32⟩
abbrev F.FC_CTRL_LOCK : Fld := ⟨.FC_CTRL, 0, 0⟩
abbrev F.FC_CTRL_OPEN : Fld := ⟨.FC_CTRL, 1, 1⟩
abbrev F.FC_CTRL_LOCKED : Fld := ⟨.FC_CTRL, 2, 2⟩
abbrev F.FC_CTRL_SAFE : Fld := ⟨.FC_CTRL, 3, 3⟩
abbrev F.FC_CTRL_READY : Fld := ⟨.FC_CTRL, 4, 4⟩
abbrev F.FC_CTRL_NORESUME : Fld := ⟨.FC_CTRL, 5, 5⟩
abbrev F.FC_LSCFG_MODE : Fld := ⟨.FC_LSCFG, 0, 0⟩
abbrev F.FC_LSCFG_WIN : Fld := ⟨.FC_LSCFG, 32, 16⟩
abbrev F.FC_QUIET_QUIET : Fld := ⟨.FC_QUIET, 15, 0⟩
abbrev F.FC_RECCFG_LIMIT : Fld := ⟨.FC_RECCFG, 3, 0⟩
abbrev F.FC_RECCFG_MINCLASS : Fld := ⟨.FC_RECCFG, 5, 4⟩
abbrev F.FC_RECCFG_WINDOW : Fld := ⟨.FC_RECCFG, 31, 16⟩
abbrev F.FC_RECCNT_COUNT : Fld := ⟨.FC_RECCNT, 31, 0⟩
abbrev F.FC_RECCNT_WRAP : Fld := ⟨.FC_RECCNT, 32, 32⟩
abbrev F.FC_RECLAST_TIME : Fld := ⟨.FC_RECLAST, 63, 0⟩
abbrev F.FC_LSCNT_TRANS : Fld := ⟨.FC_LSCNT, 31, 0⟩
abbrev F.FC_LSCNT_MINOR : Fld := ⟨.FC_LSCNT, 47, 32⟩
abbrev F.FC_ECCCNT_CORR : Fld := ⟨.FC_ECCCNT, 31, 0⟩
abbrev F.FC_ECCCNT_REREAD : Fld := ⟨.FC_ECCCNT, 47, 32⟩
abbrev F.FC_RECS_OPEN : Fld := ⟨.FC_RECS, 0, 0⟩
abbrev F.FC_RECS_CLASS : Fld := ⟨.FC_RECS, 2, 1⟩
abbrev F.FC_RECS_FORCED : Fld := ⟨.FC_RECS, 3, 3⟩
abbrev F.FC_RECS_WIRE : Fld := ⟨.FC_RECS, 4, 4⟩
abbrev F.FC_RECS_MERGED : Fld := ⟨.FC_RECS, 31, 16⟩
abbrev F.FC_RECA_SRC : Fld := ⟨.FC_RECA, 8, 0⟩
abbrev F.FC_RECA_WIRE : Fld := ⟨.FC_RECA, 9, 9⟩
abbrev F.FC_RECA_FORCED : Fld := ⟨.FC_RECA, 10, 10⟩
abbrev F.FC_RECA_DETAIL : Fld := ⟨.FC_RECA, 63, 16⟩
abbrev F.FC_RECB_SRC : Fld := ⟨.FC_RECB, 8, 0⟩
abbrev F.FC_RECB_WIRE : Fld := ⟨.FC_RECB, 9, 9⟩
abbrev F.FC_RECB_FORCED : Fld := ⟨.FC_RECB, 10, 10⟩
abbrev F.FC_RECB_DETAIL : Fld := ⟨.FC_RECB, 63, 16⟩
abbrev F.FC_RECT_VALUE : Fld := ⟨.FC_RECT, 63, 0⟩
abbrev F.FC_RECN_VALUE : Fld := ⟨.FC_RECN, 63, 0⟩
abbrev F.FC_ACT_BITS : Fld := ⟨.FC_ACT, 63, 0⟩
abbrev F.FC_SEEN_BITS : Fld := ⟨.FC_SEEN, 63, 0⟩
abbrev F.FC_FORCE_BITS : Fld := ⟨.FC_FORCE, 63, 0⟩
abbrev F.FC_FORCEW_BITS : Fld := ⟨.FC_FORCEW, 63, 0⟩
abbrev F.FC_CLASS_CLASS : Fld := ⟨.FC_CLASS, 63, 0⟩
abbrev F.HSTL_CTRL_LOCK : Fld := ⟨.HSTL_CTRL, 0, 0⟩
abbrev F.HSTL_CFG_AUTO : Fld := ⟨.HSTL_CFG, 0, 0⟩
abbrev F.HSTL_CFG_TSPER : Fld := ⟨.HSTL_CFG, 15, 8⟩
abbrev F.HSTL_STAT_LINKA : Fld := ⟨.HSTL_STAT, 0, 0⟩
abbrev F.HSTL_STAT_LINKB : Fld := ⟨.HSTL_STAT, 1, 1⟩
abbrev F.HSTL_STAT_SESSA : Fld := ⟨.HSTL_STAT, 2, 2⟩
abbrev F.HSTL_STAT_SESSB : Fld := ⟨.HSTL_STAT, 3, 3⟩
abbrev F.HSTL_STAT_CACHE_VALID : Fld := ⟨.HSTL_STAT, 4, 4⟩
abbrev F.HSTL_STAT_DL_BUSY : Fld := ⟨.HSTL_STAT, 5, 5⟩
abbrev F.HSTL_STAT_ABSENT : Fld := ⟨.HSTL_STAT, 6, 6⟩
abbrev F.HSTL_CNT_SENT : Fld := ⟨.HSTL_CNT, 31, 0⟩
abbrev F.HSTL_CNT_RESENT : Fld := ⟨.HSTL_CNT, 47, 32⟩
abbrev F.HSTL_CNT_DISCARD : Fld := ⟨.HSTL_CNT, 63, 48⟩
abbrev F.HSTL_DL_IMG_OFS : Fld := ⟨.HSTL_DL_IMG, 23, 0⟩
abbrev F.HSTL_DL_IMG_LEN : Fld := ⟨.HSTL_DL_IMG, 56, 32⟩
abbrev F.HSTL_DL_PAR_OFS : Fld := ⟨.HSTL_DL_PAR, 23, 0⟩
abbrev F.HSTL_DL_PAR_LEN : Fld := ⟨.HSTL_DL_PAR, 56, 32⟩
abbrev F.HSTL_DL_CMD_BOOT : Fld := ⟨.HSTL_DL_CMD, 0, 0⟩
abbrev F.HSTL_DL_CMD_FIELD : Fld := ⟨.HSTL_DL_CMD, 1, 1⟩
abbrev F.HSTL_DL_CMD_RELEASE : Fld := ⟨.HSTL_DL_CMD, 2, 2⟩
abbrev F.HSTL_DL_STAT_READY : Fld := ⟨.HSTL_DL_STAT, 0, 0⟩
abbrev F.HSTL_DL_STAT_BUSY : Fld := ⟨.HSTL_DL_STAT, 1, 1⟩
abbrev F.HSTL_DL_STAT_DONE : Fld := ⟨.HSTL_DL_STAT, 2, 2⟩
abbrev F.HSTL_DL_STAT_RESULT : Fld := ⟨.HSTL_DL_STAT, 15, 8⟩
abbrev F.HSTL_TALLY_TALLY : Fld := ⟨.HSTL_TALLY, 63, 0⟩
abbrev F.HSTL_VERDA_VALID : Fld := ⟨.HSTL_VERDA, 0, 0⟩
abbrev F.HSTL_VERDA_PASS : Fld := ⟨.HSTL_VERDA, 1, 1⟩
abbrev F.HSTL_VERDA_REASON : Fld := ⟨.HSTL_VERDA, 15, 8⟩
abbrev F.HSTL_VERDA_DETAIL : Fld := ⟨.HSTL_VERDA, 63, 16⟩
abbrev F.HSTL_VERDB_VALID : Fld := ⟨.HSTL_VERDB, 0, 0⟩
abbrev F.HSTL_VERDB_PASS : Fld := ⟨.HSTL_VERDB, 1, 1⟩
abbrev F.HSTL_VERDB_REASON : Fld := ⟨.HSTL_VERDB, 15, 8⟩
abbrev F.HSTL_VERDB_DETAIL : Fld := ⟨.HSTL_VERDB, 63, 16⟩
abbrev F.HSTL_REQ_CMD_OP : Fld := ⟨.HSTL_REQ_CMD, 2, 0⟩
abbrev F.HSTL_REQ_CMD_DIES : Fld := ⟨.HSTL_REQ_CMD, 4, 3⟩
abbrev F.HSTL_REQ_CMD_TAG : Fld := ⟨.HSTL_REQ_CMD, 31, 16⟩
abbrev F.HSTL_REQ_CMD_GO : Fld := ⟨.HSTL_REQ_CMD, 32, 32⟩
abbrev F.HSTL_REQ_CMD_BUSY : Fld := ⟨.HSTL_REQ_CMD, 33, 33⟩
abbrev F.HSTL_REQ_ADDR_VALUE : Fld := ⟨.HSTL_REQ_ADDR, 63, 0⟩
abbrev F.HSTL_REQ_DATA_VALUE : Fld := ⟨.HSTL_REQ_DATA, 63, 0⟩
abbrev F.HSTL_REQ_STAT_STATA : Fld := ⟨.HSTL_REQ_STAT, 3, 0⟩
abbrev F.HSTL_REQ_STAT_STATB : Fld := ⟨.HSTL_REQ_STAT, 7, 4⟩
abbrev F.HSTL_REQ_STAT_DONEA : Fld := ⟨.HSTL_REQ_STAT, 8, 8⟩
abbrev F.HSTL_REQ_STAT_DONEB : Fld := ⟨.HSTL_REQ_STAT, 9, 9⟩
abbrev F.HSTL_REQ_STAT_TIMEOUT : Fld := ⟨.HSTL_REQ_STAT, 10, 10⟩
abbrev F.HSTL_RSPD_A_VALUE : Fld := ⟨.HSTL_RSPD_A, 63, 0⟩
abbrev F.HSTL_RSPD_B_VALUE : Fld := ⟨.HSTL_RSPD_B, 63, 0⟩
abbrev F.HSTL_RXRING_BASE : Fld := ⟨.HSTL_RXRING, 23, 12⟩
abbrev F.HSTL_RXPTR_HEAD : Fld := ⟨.HSTL_RXPTR, 5, 0⟩
abbrev F.HSTL_RXPTR_TAIL : Fld := ⟨.HSTL_RXPTR, 13, 8⟩
abbrev F.HSTL_RXPTR_FLAG : Fld := ⟨.HSTL_RXPTR, 16, 16⟩
abbrev F.HSTL_TXRING_BASE : Fld := ⟨.HSTL_TXRING, 23, 12⟩
abbrev F.HSTL_TXPTR_HEAD : Fld := ⟨.HSTL_TXPTR, 5, 0⟩
abbrev F.HSTL_TXPTR_TAIL : Fld := ⟨.HSTL_TXPTR, 13, 8⟩
abbrev F.HSTL_TXPTR_FLAG : Fld := ⟨.HSTL_TXPTR, 16, 16⟩
abbrev F.HSTL_MIR_BASE_BASE : Fld := ⟨.HSTL_MIR_BASE, 47, 12⟩
abbrev F.HSTL_MIR_CFG_EN : Fld := ⟨.HSTL_MIR_CFG, 0, 0⟩
abbrev F.HSTL_MIR_CFG_IRQ : Fld := ⟨.HSTL_MIR_CFG, 1, 1⟩
abbrev F.HSTL_MIR_CFG_SLOTS : Fld := ⟨.HSTL_MIR_CFG, 31, 16⟩
abbrev F.HSTL_MIR_CFG_EVERY : Fld := ⟨.HSTL_MIR_CFG, 47, 32⟩
abbrev F.HSTL_MIR_HEAD_NUMBER : Fld := ⟨.HSTL_MIR_HEAD, 63, 0⟩
abbrev F.HSTL_MIR_STAT_LAST : Fld := ⟨.HSTL_MIR_STAT, 15, 0⟩
abbrev F.HSTL_MIR_STAT_SKIP : Fld := ⟨.HSTL_MIR_STAT, 31, 16⟩
abbrev F.HSTL_MIR_STAT_DROP : Fld := ⟨.HSTL_MIR_STAT, 47, 32⟩
abbrev F.BB_CTRL_LOCK : Fld := ⟨.BB_CTRL, 0, 0⟩
abbrev F.BB_CTRL_EN : Fld := ⟨.BB_CTRL, 1, 1⟩
abbrev F.BB_CTRL_CB : Fld := ⟨.BB_CTRL, 2, 2⟩
abbrev F.BB_CFG_MAC : Fld := ⟨.BB_CFG, 47, 0⟩
abbrev F.BB_CFG_DEV : Fld := ⟨.BB_CFG, 53, 48⟩
abbrev F.BB_VCT_ETYPE : Fld := ⟨.BB_VCT, 15, 0⟩
abbrev F.BB_VCT_VID : Fld := ⟨.BB_VCT, 27, 16⟩
abbrev F.BB_CELLMAC_MAC : Fld := ⟨.BB_CELLMAC, 47, 0⟩
abbrev F.BB_CELLPER_CPER : Fld := ⟨.BB_CELLPER, 23, 0⟩
abbrev F.BB_AS_ROLE : Fld := ⟨.BB_AS, 1, 0⟩
abbrev F.BB_AS_PRIO1 : Fld := ⟨.BB_AS, 15, 8⟩
abbrev F.BB_AS_PRIO2 : Fld := ⟨.BB_AS, 23, 16⟩
abbrev F.BB_AS_HOLD : Fld := ⟨.BB_AS, 39, 24⟩
abbrev F.BB_ASSTAT_SYNC : Fld := ⟨.BB_ASSTAT, 0, 0⟩
abbrev F.BB_ASSTAT_GM : Fld := ⟨.BB_ASSTAT, 1, 1⟩
abbrev F.BB_ASSTAT_HOLDOVER : Fld := ⟨.BB_ASSTAT, 2, 2⟩
abbrev F.BB_ASSTAT_OFFSET : Fld := ⟨.BB_ASSTAT, 63, 32⟩
abbrev F.BB_CNT_UNPAIRED : Fld := ⟨.BB_CNT, 15, 0⟩
abbrev F.BB_CNT_MISMATCH : Fld := ⟨.BB_CNT, 31, 16⟩
abbrev F.BB_CNT_UNMAPPED : Fld := ⟨.BB_CNT, 47, 32⟩
abbrev F.BB_CNT_QCIDROP : Fld := ⟨.BB_CNT, 63, 48⟩
abbrev F.BB_PORT_SPEED : Fld := ⟨.BB_PORT, 1, 0⟩
abbrev F.BB_PORT_EN : Fld := ⟨.BB_PORT, 2, 2⟩
abbrev F.BB_PORT_EXPR : Fld := ⟨.BB_PORT, 15, 8⟩
abbrev F.BB_PORT_LINK : Fld := ⟨.BB_PORT, 16, 16⟩
abbrev F.BB_PORT_PREEMPT : Fld := ⟨.BB_PORT, 17, 17⟩
abbrev F.BB_QBV_CYCLE : Fld := ⟨.BB_QBV, 23, 0⟩
abbrev F.BB_QBV_LEN : Fld := ⟨.BB_QBV, 29, 24⟩
abbrev F.BB_QBV_APPLY : Fld := ⟨.BB_QBV, 30, 30⟩
abbrev F.BB_QBV_BADGCL : Fld := ⟨.BB_QBV, 31, 31⟩
abbrev F.BB_QBV_BASE : Fld := ⟨.BB_QBV, 63, 32⟩
abbrev F.BB_PCNT_FRAMES : Fld := ⟨.BB_PCNT, 31, 0⟩
abbrev F.BB_PCNT_PREEMPTED : Fld := ⟨.BB_PCNT, 47, 32⟩
abbrev F.BB_PCNT_DROPPED : Fld := ⟨.BB_PCNT, 63, 48⟩
abbrev F.BB_GCL_GATES : Fld := ⟨.BB_GCL, 7, 0⟩
abbrev F.BB_GCL_INTERVAL : Fld := ⟨.BB_GCL, 31, 8⟩
abbrev F.BB_PSF_DMAC : Fld := ⟨.BB_PSF, 47, 0⟩
abbrev F.BB_PSF_VID : Fld := ⟨.BB_PSF, 59, 48⟩
abbrev F.BB_PSF_PCP : Fld := ⟨.BB_PSF, 62, 60⟩
abbrev F.BB_PSF_EN : Fld := ⟨.BB_PSF, 63, 63⟩
abbrev F.BB_PSM_CIR : Fld := ⟨.BB_PSM, 15, 0⟩
abbrev F.BB_PSM_CBS : Fld := ⟨.BB_PSM, 31, 16⟩
abbrev F.BB_PSM_DROPS : Fld := ⟨.BB_PSM, 47, 32⟩
abbrev F.BB_TXC_EN : Fld := ⟨.BB_TXC, 0, 0⟩
abbrev F.BB_TXC_KIND : Fld := ⟨.BB_TXC, 3, 1⟩
abbrev F.BB_TXC_DSTDEV : Fld := ⟨.BB_TXC, 15, 8⟩
abbrev F.BB_TXC_DZONE : Fld := ⟨.BB_TXC, 31, 16⟩
abbrev F.BB_TXC_SEQ : Fld := ⟨.BB_TXC, 63, 32⟩
abbrev F.BB_TXMAC_DMAC : Fld := ⟨.BB_TXMAC, 47, 0⟩
abbrev F.BB_RXC_EN : Fld := ⟨.BB_RXC, 0, 0⟩
abbrev F.BB_RXC_KIND : Fld := ⟨.BB_RXC, 3, 1⟩
abbrev F.BB_RXC_PEERDEV : Fld := ⟨.BB_RXC, 15, 8⟩
abbrev F.BB_RXC_PEERCONN : Fld := ⟨.BB_RXC, 23, 16⟩
abbrev F.VCT_CTRL_LOCK : Fld := ⟨.VCT_CTRL, 0, 0⟩
abbrev F.VCT_CTRL_TLARM : Fld := ⟨.VCT_CTRL, 1, 1⟩
abbrev F.VCT_CTRL_TLACT : Fld := ⟨.VCT_CTRL, 2, 2⟩
abbrev F.VCT_CTRL_FSCLR : Fld := ⟨.VCT_CTRL, 3, 3⟩
abbrev F.VCT_CFG_DEV : Fld := ⟨.VCT_CFG, 5, 0⟩
abbrev F.VCT_CFG_RANK : Fld := ⟨.VCT_CFG, 15, 8⟩
abbrev F.VCT_CFG_RXCUT : Fld := ⟨.VCT_CFG, 31, 16⟩
abbrev F.VCT_CFG_K : Fld := ⟨.VCT_CFG, 39, 32⟩
abbrev F.VCT_CFG_BMISS : Fld := ⟨.VCT_CFG, 47, 40⟩
abbrev F.VCT_CFG_ACKTO : Fld := ⟨.VCT_CFG, 63, 48⟩
abbrev F.VCT_CELL_CPER : Fld := ⟨.VCT_CELL, 23, 0⟩
abbrev F.VCT_CELL_DEADLINE : Fld := ⟨.VCT_CELL, 47, 24⟩
abbrev F.VCT_POL_BCNZ : Fld := ⟨.VCT_POL, 15, 0⟩
abbrev F.VCT_POL_SELFZ : Fld := ⟨.VCT_POL, 31, 16⟩
abbrev F.VCT_POL_TMISZ : Fld := ⟨.VCT_POL, 47, 32⟩
abbrev F.VCT_POL_FSAFEZ : Fld := ⟨.VCT_POL, 63, 48⟩
abbrev F.VCT_CSEED_CSEED : Fld := ⟨.VCT_CSEED, 31, 0⟩
abbrev F.VCT_STAT_BWL : Fld := ⟨.VCT_STAT, 0, 0⟩
abbrev F.VCT_STAT_BEACON : Fld := ⟨.VCT_STAT, 1, 1⟩
abbrev F.VCT_STAT_FSAFE : Fld := ⟨.VCT_STAT, 2, 2⟩
abbrev F.VCT_STAT_LISTMIS : Fld := ⟨.VCT_STAT, 3, 3⟩
abbrev F.VCT_STAT_SELFLOST : Fld := ⟨.VCT_STAT, 4, 4⟩
abbrev F.VCT_STAT_BWRANK : Fld := ⟨.VCT_STAT, 15, 8⟩
abbrev F.VCT_STAT_BWDEV : Fld := ⟨.VCT_STAT, 21, 16⟩
abbrev F.VCT_STAT_CHOLD : Fld := ⟨.VCT_STAT, 47, 32⟩
abbrev F.VCT_CFOLD_VALUE : Fld := ⟨.VCT_CFOLD, 63, 0⟩
abbrev F.VCT_LATE_VALUE : Fld := ⟨.VCT_LATE, 63, 0⟩
abbrev F.VCT_LOST_VALUE : Fld := ⟨.VCT_LOST, 63, 0⟩
abbrev F.VCT_TMIS_VALUE : Fld := ⟨.VCT_TMIS, 63, 0⟩
abbrev F.VCT_CNT_CRCERR : Fld := ⟨.VCT_CNT, 15, 0⟩
abbrev F.VCT_CNT_SEQERR : Fld := ⟨.VCT_CNT, 31, 16⟩
abbrev F.VCT_CNT_CHKERR : Fld := ⟨.VCT_CNT, 47, 32⟩
abbrev F.VCT_CNT_NOAGREE : Fld := ⟨.VCT_CNT, 63, 48⟩
abbrev F.VCT_EVT_EVT : Fld := ⟨.VCT_EVT, 6, 0⟩
abbrev F.VCT_PEER_MEMBER : Fld := ⟨.VCT_PEER, 0, 0⟩
abbrev F.VCT_PEER_RANK : Fld := ⟨.VCT_PEER, 15, 8⟩
abbrev F.VCT_PEER_LOSTZ : Fld := ⟨.VCT_PEER, 31, 16⟩
abbrev F.VCT_TLIST_TALLY : Fld := ⟨.VCT_TLIST, 63, 0⟩
abbrev F.VCT_TXC_EN : Fld := ⟨.VCT_TXC, 0, 0⟩
abbrev F.VCT_TXC_KIND : Fld := ⟨.VCT_TXC, 3, 1⟩
abbrev F.VCT_TXC_DSTDEV : Fld := ⟨.VCT_TXC, 15, 8⟩
abbrev F.VCT_TXC_DZONE : Fld := ⟨.VCT_TXC, 31, 16⟩
abbrev F.VCT_TXC_SEED : Fld := ⟨.VCT_TXC, 63, 32⟩
abbrev F.VCT_RXC_EN : Fld := ⟨.VCT_RXC, 0, 0⟩
abbrev F.VCT_RXC_KIND : Fld := ⟨.VCT_RXC, 3, 1⟩
abbrev F.VCT_RXC_PEERDEV : Fld := ⟨.VCT_RXC, 15, 8⟩
abbrev F.VCT_RXC_PEERCONN : Fld := ⟨.VCT_RXC, 23, 16⟩
abbrev F.VCT_RXC_SEED : Fld := ⟨.VCT_RXC, 63, 32⟩
abbrev F.VCT_RXT_WDT : Fld := ⟨.VCT_RXT, 23, 0⟩
abbrev F.VCT_RXZ_STOPZ : Fld := ⟨.VCT_RXZ, 15, 0⟩
abbrev F.VCT_RXZ_EXPZ : Fld := ⟨.VCT_RXZ, 31, 16⟩
abbrev F.VCT_RXS_SEQ : Fld := ⟨.VCT_RXS, 31, 0⟩
abbrev F.VCT_RXS_HELD : Fld := ⟨.VCT_RXS, 32, 32⟩
abbrev F.VCT_RXS_EXPIRED : Fld := ⟨.VCT_RXS, 33, 33⟩
abbrev F.PWR_CTRL_LOCK : Fld := ⟨.PWR_CTRL, 0, 0⟩
abbrev F.PWR_STAT_PAUSED : Fld := ⟨.PWR_STAT, 0, 0⟩
abbrev F.PWR_STAT_VF24LOW : Fld := ⟨.PWR_STAT, 1, 1⟩
abbrev F.PWR_STAT_PDSEQ : Fld := ⟨.PWR_STAT, 2, 2⟩
abbrev F.PWR_STAT_WARM : Fld := ⟨.PWR_STAT, 3, 3⟩
abbrev F.PWR_STAT_COLD : Fld := ⟨.PWR_STAT, 7, 4⟩
abbrev F.PWR_PL_REQ : Fld := ⟨.PWR_PL, 1, 0⟩
abbrev F.PWR_PL_CUR : Fld := ⟨.PWR_PL, 5, 4⟩
abbrev F.PWR_PL_PEND : Fld := ⟨.PWR_PL, 8, 8⟩
abbrev F.PWR_PL_REFUSED : Fld := ⟨.PWR_PL, 9, 9⟩
abbrev F.PWR_WAKE_INPUT : Fld := ⟨.PWR_WAKE, 0, 0⟩
abbrev F.PWR_WAKE_TIMER : Fld := ⟨.PWR_WAKE, 1, 1⟩
abbrev F.PWR_WAKE_CROOK : Fld := ⟨.PWR_WAKE, 2, 2⟩
abbrev F.PWR_WAKE_BACKBONE : Fld := ⟨.PWR_WAKE, 3, 3⟩
abbrev F.PWR_WAKE_CAUSE : Fld := ⟨.PWR_WAKE, 19, 16⟩
abbrev F.PWR_WAKE_WAKEGT : Fld := ⟨.PWR_WAKE, 47, 32⟩
abbrev F.PWR_SAVE_VALID : Fld := ⟨.PWR_SAVE, 4, 0⟩
abbrev F.PWR_SAVE_RCHK : Fld := ⟨.PWR_SAVE, 8, 8⟩
abbrev F.PWR_SAVE_SEQ : Fld := ⟨.PWR_SAVE, 63, 32⟩
abbrev F.PWR_RST_RST_LONG : Fld := ⟨.PWR_RST, 0, 0⟩
abbrev F.PWR_RST_HOLD : Fld := ⟨.PWR_RST, 31, 16⟩
abbrev F.PWR_RST_COUNT : Fld := ⟨.PWR_RST, 47, 32⟩
abbrev F.PWR_CNT_TRANS : Fld := ⟨.PWR_CNT, 15, 0⟩
abbrev F.PWR_CNT_FIXED : Fld := ⟨.PWR_CNT, 31, 16⟩
abbrev F.PWR_CNT_WARM : Fld := ⟨.PWR_CNT, 47, 32⟩
abbrev F.PWR_CNT_DIPS : Fld := ⟨.PWR_CNT, 63, 48⟩
abbrev F.PWR_DOM_STATE : Fld := ⟨.PWR_DOM, 1, 0⟩
abbrev F.PWR_DOM_TARGET : Fld := ⟨.PWR_DOM, 3, 2⟩
abbrev F.PWR_DOM_STEP : Fld := ⟨.PWR_DOM, 6, 4⟩
abbrev F.PWR_DOM_FIXED : Fld := ⟨.PWR_DOM, 7, 7⟩
abbrev F.PWR_DOM_RESULT : Fld := ⟨.PWR_DOM, 11, 8⟩
abbrev F.PWR_DOM_FAIL : Fld := ⟨.PWR_DOM, 12, 12⟩
abbrev F.PWR_HCTRL_LOCK : Fld := ⟨.PWR_HCTRL, 0, 0⟩
abbrev F.PWR_HSTAT_RST_LONG : Fld := ⟨.PWR_HSTAT, 0, 0⟩
abbrev F.PWR_HSTAT_HOLD : Fld := ⟨.PWR_HSTAT, 31, 16⟩
abbrev F.PWR_HSTAT_COUNT : Fld := ⟨.PWR_HSTAT, 47, 32⟩
abbrev F.PWR_HPL_REQ : Fld := ⟨.PWR_HPL, 1, 0⟩
abbrev F.PWR_HPL_CUR : Fld := ⟨.PWR_HPL, 5, 4⟩
abbrev F.PWR_HPL_PEND : Fld := ⟨.PWR_HPL, 8, 8⟩
abbrev F.PWR_HPL_REFUSED : Fld := ⟨.PWR_HPL, 9, 9⟩
abbrev F.PWR_HWAKE_PCIE : Fld := ⟨.PWR_HWAKE, 0, 0⟩
abbrev F.PWR_HWAKE_BACKBONE : Fld := ⟨.PWR_HWAKE, 1, 1⟩
abbrev F.PWR_HWAKE_TIMER : Fld := ⟨.PWR_HWAKE, 2, 2⟩
abbrev F.PWR_HWAKE_FIELD : Fld := ⟨.PWR_HWAKE, 3, 3⟩
abbrev F.PWR_HWAKE_DOMS : Fld := ⟨.PWR_HWAKE, 13, 8⟩
abbrev F.PWR_HWAKE_CAUSE : Fld := ⟨.PWR_HWAKE, 19, 16⟩
abbrev F.PWR_HWAKET_WAKET : Fld := ⟨.PWR_HWAKET, 47, 0⟩
abbrev F.PWR_HRTC_RTC : Fld := ⟨.PWR_HRTC, 47, 0⟩
abbrev F.PWR_FREP_ONA : Fld := ⟨.PWR_FREP, 9, 0⟩
abbrev F.PWR_FREP_ONB : Fld := ⟨.PWR_FREP, 25, 16⟩
abbrev F.PWR_FREP_PAUSEDA : Fld := ⟨.PWR_FREP, 32, 32⟩
abbrev F.PWR_FREP_PAUSEDB : Fld := ⟨.PWR_FREP, 33, 33⟩
abbrev F.PWR_HDOM_STATE : Fld := ⟨.PWR_HDOM, 1, 0⟩
abbrev F.PWR_HDOM_TARGET : Fld := ⟨.PWR_HDOM, 3, 2⟩
abbrev F.PWR_HDOM_STEP : Fld := ⟨.PWR_HDOM, 6, 4⟩
abbrev F.PWR_HDOM_FIXED : Fld := ⟨.PWR_HDOM, 7, 7⟩
abbrev F.PWR_HDOM_RESULT : Fld := ⟨.PWR_HDOM, 11, 8⟩
abbrev F.PWR_HDOM_FAIL : Fld := ⟨.PWR_HDOM, 12, 12⟩
abbrev F.SEC_LC_LC : Fld := ⟨.SEC_LC, 1, 0⟩
abbrev F.SEC_LC_NEXT : Fld := ⟨.SEC_LC, 3, 2⟩
abbrev F.SEC_LC_PARTIAL : Fld := ⟨.SEC_LC, 4, 4⟩
abbrev F.SEC_LC_IKPROG : Fld := ⟨.SEC_LC, 5, 5⟩
abbrev F.SEC_KREV_REV : Fld := ⟨.SEC_KREV, 3, 0⟩
abbrev F.SEC_KREV_PROG : Fld := ⟨.SEC_KREV, 7, 4⟩
abbrev F.SEC_ARB_COUNT : Fld := ⟨.SEC_ARB, 6, 0⟩
abbrev F.SEC_UID_UID : Fld := ⟨.SEC_UID, 63, 0⟩
abbrev F.SEC_OTPCMD_OP : Fld := ⟨.SEC_OTPCMD, 3, 0⟩
abbrev F.SEC_OTPCMD_SLOT : Fld := ⟨.SEC_OTPCMD, 5, 4⟩
abbrev F.SEC_OTPCMD_LCT : Fld := ⟨.SEC_OTPCMD, 7, 6⟩
abbrev F.SEC_OTPCMD_ARBT : Fld := ⟨.SEC_OTPCMD, 14, 8⟩
abbrev F.SEC_OTPSTAT_BUSY : Fld := ⟨.SEC_OTPSTAT, 0, 0⟩
abbrev F.SEC_OTPSTAT_DONE : Fld := ⟨.SEC_OTPSTAT, 1, 1⟩
abbrev F.SEC_OTPSTAT_RESULT : Fld := ⟨.SEC_OTPSTAT, 3, 2⟩
abbrev F.SEC_KSTAGE_DATA : Fld := ⟨.SEC_KSTAGE, 63, 0⟩
abbrev F.SEC_KEY_DATA : Fld := ⟨.SEC_KEY, 63, 0⟩
abbrev F.HDBG_CTRL_CHREQ : Fld := ⟨.HDBG_CTRL, 0, 0⟩
abbrev F.HDBG_CTRL_VERIFY : Fld := ⟨.HDBG_CTRL, 1, 1⟩
abbrev F.HDBG_CTRL_CLOSE : Fld := ⟨.HDBG_CTRL, 2, 2⟩
abbrev F.HDBG_CTRL_OPENREQ : Fld := ⟨.HDBG_CTRL, 3, 3⟩
abbrev F.HDBG_STAT_STATE : Fld := ⟨.HDBG_STAT, 1, 0⟩
abbrev F.HDBG_STAT_CHRDY : Fld := ⟨.HDBG_STAT, 2, 2⟩
abbrev F.HDBG_STAT_BUSY : Fld := ⟨.HDBG_STAT, 3, 3⟩
abbrev F.HDBG_STAT_FAIL : Fld := ⟨.HDBG_STAT, 4, 4⟩
abbrev F.HDBG_STAT_LOCKOUT : Fld := ⟨.HDBG_STAT, 5, 5⟩
abbrev F.HDBG_STAT_FAILS : Fld := ⟨.HDBG_STAT, 9, 6⟩
abbrev F.HDBG_STAT_SCOPE : Fld := ⟨.HDBG_STAT, 15, 10⟩
abbrev F.HDBG_STAT_LEFT : Fld := ⟨.HDBG_STAT, 31, 16⟩
abbrev F.HDBG_STAT_SESSION : Fld := ⟨.HDBG_STAT, 63, 32⟩
abbrev F.HDBG_SCOPEREQ_SCOPE : Fld := ⟨.HDBG_SCOPEREQ, 5, 0⟩
abbrev F.HDBG_SCOPEREQ_TTL : Fld := ⟨.HDBG_SCOPEREQ, 31, 16⟩
abbrev F.HDBG_CHAL_DATA : Fld := ⟨.HDBG_CHAL, 63, 0⟩
abbrev F.HDBG_RESP_DATA : Fld := ⟨.HDBG_RESP, 63, 0⟩
abbrev F.GT_CTRL_LOCK : Fld := ⟨.GT_CTRL, 0, 0⟩
abbrev F.GT_CTRL_SNAP : Fld := ⟨.GT_CTRL, 31, 16⟩
abbrev F.GT_TBASE_TIME : Fld := ⟨.GT_TBASE, 63, 0⟩
abbrev F.GT_IEN_IEN : Fld := ⟨.GT_IEN, 15, 0⟩
abbrev F.GT_CFG_PRE : Fld := ⟨.GT_CFG, 15, 0⟩
abbrev F.GT_CFG_EN : Fld := ⟨.GT_CFG, 16, 16⟩
abbrev F.GT_CFG_CASC : Fld := ⟨.GT_CFG, 17, 17⟩
abbrev F.GT_CFG_PERIOD : Fld := ⟨.GT_CFG, 18, 18⟩
abbrev F.GT_CFG_ALIGN : Fld := ⟨.GT_CFG, 19, 19⟩
abbrev F.GT_CFG_ACT0 : Fld := ⟨.GT_CFG, 21, 20⟩
abbrev F.GT_CFG_ACT1 : Fld := ⟨.GT_CFG, 23, 22⟩
abbrev F.GT_CFG_ACTOV : Fld := ⟨.GT_CFG, 25, 24⟩
abbrev F.GT_CFG_INIT : Fld := ⟨.GT_CFG, 26, 26⟩
abbrev F.GT_CFG_CWR : Fld := ⟨.GT_CFG, 27, 27⟩
abbrev F.GT_CNT_VALUE : Fld := ⟨.GT_CNT, 31, 0⟩
abbrev F.GT_CMP0_VALUE : Fld := ⟨.GT_CMP0, 31, 0⟩
abbrev F.GT_CMP1_VALUE : Fld := ⟨.GT_CMP1, 31, 0⟩
abbrev F.GT_TOP_VALUE : Fld := ⟨.GT_TOP, 31, 0⟩
abbrev F.GT_STAT_PIN : Fld := ⟨.GT_STAT, 0, 0⟩
abbrev F.GT_STAT_OVF : Fld := ⟨.GT_STAT, 1, 1⟩
abbrev F.GT_STAT_M0 : Fld := ⟨.GT_STAT, 2, 2⟩
abbrev F.GT_STAT_M1 : Fld := ⟨.GT_STAT, 3, 3⟩
abbrev F.GT_STAT_CAPOVF : Fld := ⟨.GT_STAT, 4, 4⟩
abbrev F.GT_STAT_MADEUP : Fld := ⟨.GT_STAT, 5, 5⟩
abbrev F.GT_STAT_RUNNING : Fld := ⟨.GT_STAT, 6, 6⟩
abbrev F.GT_STAT_CAPCNT : Fld := ⟨.GT_STAT, 11, 8⟩
abbrev F.GT_SNAP_COUNT : Fld := ⟨.GT_SNAP, 31, 0⟩
abbrev F.GT_CAP_COUNT : Fld := ⟨.GT_CAP, 31, 0⟩
abbrev F.GT_CAP_INPUT : Fld := ⟨.GT_CAP, 37, 32⟩
abbrev F.GT_CAP_RISE : Fld := ⟨.GT_CAP, 38, 38⟩
abbrev F.GT_CAP_VALID : Fld := ⟨.GT_CAP, 39, 39⟩
abbrev F.CK_OWN_OWNER : Fld := ⟨.CK_OWN, 1, 0⟩
abbrev F.CK_CFG_WIDTH : Fld := ⟨.CK_CFG, 1, 0⟩
abbrev F.CK_CFG_REFIN : Fld := ⟨.CK_CFG, 2, 2⟩
abbrev F.CK_CFG_REFOUT : Fld := ⟨.CK_CFG, 3, 3⟩
abbrev F.CK_POLY_VALUE : Fld := ⟨.CK_POLY, 63, 0⟩
abbrev F.CK_INIT_VALUE : Fld := ⟨.CK_INIT, 63, 0⟩
abbrev F.CK_XOR_VALUE : Fld := ⟨.CK_XOR, 63, 0⟩
abbrev F.CK_EXP_VALUE : Fld := ⟨.CK_EXP, 63, 0⟩
abbrev F.CK_RES_VALUE : Fld := ⟨.CK_RES, 63, 0⟩
abbrev F.CK_STAT_BUSY : Fld := ⟨.CK_STAT, 0, 0⟩
abbrev F.CK_STAT_DONE : Fld := ⟨.CK_STAT, 1, 1⟩
abbrev F.CK_STAT_MIS : Fld := ⟨.CK_STAT, 2, 2⟩
abbrev F.CK_STAT_DENIED : Fld := ⟨.CK_STAT, 3, 3⟩
abbrev F.CK_STAT_DMAERR : Fld := ⟨.CK_STAT, 4, 4⟩
abbrev F.CK_DMA_ADDR : Fld := ⟨.CK_DMA, 31, 0⟩
abbrev F.CK_DMA_LEN : Fld := ⟨.CK_DMA, 55, 32⟩
abbrev F.CK_DMA_GO : Fld := ⟨.CK_DMA, 63, 63⟩
abbrev F.LOG_STAT_HEAD : Fld := ⟨.LOG_STAT, 10, 0⟩
abbrev F.LOG_STAT_UNSENT : Fld := ⟨.LOG_STAT, 27, 16⟩
abbrev F.LOG_STAT_DROP : Fld := ⟨.LOG_STAT, 47, 32⟩
abbrev F.LOG_STAT_SEQ : Fld := ⟨.LOG_STAT, 63, 48⟩
abbrev F.LOG_HCTRL_EN : Fld := ⟨.LOG_HCTRL, 0, 0⟩
abbrev F.LOG_HCTRL_IRQ : Fld := ⟨.LOG_HCTRL, 1, 1⟩
abbrev F.LOG_HBASE_BASE : Fld := ⟨.LOG_HBASE, 47, 12⟩
abbrev F.LOG_HSIZE_HSIZE : Fld := ⟨.LOG_HSIZE, 4, 0⟩
abbrev F.LOG_HHEAD_HEAD : Fld := ⟨.LOG_HHEAD, 19, 0⟩
abbrev F.LOG_HTAIL_TAIL : Fld := ⟨.LOG_HTAIL, 19, 0⟩
abbrev F.LOG_HTHR_THR : Fld := ⟨.LOG_HTHR, 19, 0⟩
abbrev F.LOG_HSTAT_WRITE : Fld := ⟨.LOG_HSTAT, 14, 0⟩
abbrev F.LOG_HSTAT_MLOST : Fld := ⟨.LOG_HSTAT, 31, 16⟩
abbrev F.LOG_HSTAT_HDROP : Fld := ⟨.LOG_HSTAT, 47, 32⟩
abbrev F.BIST_CTRL_LOCK : Fld := ⟨.BIST_CTRL, 0, 0⟩
abbrev F.BIST_STAT_BUSY : Fld := ⟨.BIST_STAT, 0, 0⟩
abbrev F.BIST_STAT_QUEUED : Fld := ⟨.BIST_STAT, 3, 1⟩
abbrev F.BIST_STAT_TEST : Fld := ⟨.BIST_STAT, 31, 16⟩
abbrev F.BIST_STAT_UNIT : Fld := ⟨.BIST_STAT, 47, 32⟩
abbrev F.BIST_LAST_RESULT : Fld := ⟨.BIST_LAST, 3, 0⟩
abbrev F.BIST_LAST_TEST : Fld := ⟨.BIST_LAST, 31, 16⟩
abbrev F.BIST_LAST_UNIT : Fld := ⟨.BIST_LAST, 47, 32⟩
abbrev F.BIST_LAST_COVER : Fld := ⟨.BIST_LAST, 63, 48⟩
abbrev F.BIST_LTIME_DURATION : Fld := ⟨.BIST_LTIME, 63, 0⟩
abbrev F.BIST_CNT_RUN : Fld := ⟨.BIST_CNT, 15, 0⟩
abbrev F.BIST_CNT_FAIL : Fld := ⟨.BIST_CNT, 31, 16⟩
abbrev F.BIST_CNT_TRANS : Fld := ⟨.BIST_CNT, 47, 32⟩
abbrev F.BIST_SLFUSE_SL0 : Fld := ⟨.BIST_SLFUSE, 3, 0⟩
abbrev F.BIST_SLFUSE_SL1 : Fld := ⟨.BIST_SLFUSE, 7, 4⟩
abbrev F.BIST_SLFUSE_PARTIAL : Fld := ⟨.BIST_SLFUSE, 8, 8⟩
abbrev F.BIST_REP_LANE : Fld := ⟨.BIST_REP, 7, 0⟩
abbrev F.BIST_REP_VALID : Fld := ⟨.BIST_REP, 8, 8⟩
abbrev F.BIST_REP_SPARE : Fld := ⟨.BIST_REP, 12, 9⟩
abbrev F.BIST_REP_DUP : Fld := ⟨.BIST_REP, 13, 13⟩
abbrev F.BIST_REP_PARTIAL : Fld := ⟨.BIST_REP, 14, 14⟩
abbrev F.BIST_FUSE_LANE : Fld := ⟨.BIST_FUSE, 7, 0⟩
abbrev F.BIST_FUSE_VALID : Fld := ⟨.BIST_FUSE, 8, 8⟩
abbrev F.BIST_FUSE_SPARE : Fld := ⟨.BIST_FUSE, 12, 9⟩
abbrev F.BIST_FUSE_DUP : Fld := ⟨.BIST_FUSE, 13, 13⟩
abbrev F.BIST_FUSE_PARTIAL : Fld := ⟨.BIST_FUSE, 14, 14⟩
abbrev F.STL_STAT_LINK : Fld := ⟨.STL_STAT, 0, 0⟩
abbrev F.STL_STAT_SESSION : Fld := ⟨.STL_STAT, 1, 1⟩
abbrev F.STL_STAT_REASON : Fld := ⟨.STL_STAT, 3, 2⟩
abbrev F.STL_STAT_LASTING : Fld := ⟨.STL_STAT, 4, 4⟩
abbrev F.STL_CNT_SENT : Fld := ⟨.STL_CNT, 31, 0⟩
abbrev F.STL_CNT_RESENT : Fld := ⟨.STL_CNT, 47, 32⟩
abbrev F.STL_CNT_DISCARD : Fld := ⟨.STL_CNT, 63, 48⟩
abbrev F.STL_VERD_VALID : Fld := ⟨.STL_VERD, 0, 0⟩
abbrev F.STL_VERD_PASS : Fld := ⟨.STL_VERD, 1, 1⟩
abbrev F.STL_VERD_REASON : Fld := ⟨.STL_VERD, 15, 8⟩
abbrev F.STL_VERD_DETAIL : Fld := ⟨.STL_VERD, 63, 16⟩
abbrev F.STL_TALLY_TALLY : Fld := ⟨.STL_TALLY, 63, 0⟩
abbrev F.DBG_STAT_SCOPE : Fld := ⟨.DBG_STAT, 5, 0⟩
abbrev F.DBG_STAT_HOLD : Fld := ⟨.DBG_STAT, 6, 6⟩
abbrev F.DBG_STAT_HALTED : Fld := ⟨.DBG_STAT, 9, 7⟩
abbrev F.DBG_STAT_TAINT : Fld := ⟨.DBG_STAT, 10, 10⟩
abbrev F.DBG_STAT_SESSION : Fld := ⟨.DBG_STAT, 63, 32⟩
abbrev F.DBG_BKPT_ADDR : Fld := ⟨.DBG_BKPT, 31, 0⟩
abbrev F.DBG_BKPT_CORES : Fld := ⟨.DBG_BKPT, 34, 32⟩
abbrev F.HFC_CTRL_LOCK : Fld := ⟨.HFC_CTRL, 0, 0⟩
abbrev F.HFC_CTRL_OPEN : Fld := ⟨.HFC_CTRL, 1, 1⟩
abbrev F.HFC_QUIET_QUIET : Fld := ⟨.HFC_QUIET, 15, 0⟩
abbrev F.HFC_RECCNT_COUNT : Fld := ⟨.HFC_RECCNT, 31, 0⟩
abbrev F.HFC_RECCNT_WRAP : Fld := ⟨.HFC_RECCNT, 32, 32⟩
abbrev F.HFC_ECCCNT_CORR : Fld := ⟨.HFC_ECCCNT, 31, 0⟩
abbrev F.HFC_ECCCNT_REREAD : Fld := ⟨.HFC_ECCCNT, 47, 32⟩
abbrev F.HFC_RECS_OPEN : Fld := ⟨.HFC_RECS, 0, 0⟩
abbrev F.HFC_RECS_CLASS : Fld := ⟨.HFC_RECS, 2, 1⟩
abbrev F.HFC_RECS_FORCED : Fld := ⟨.HFC_RECS, 3, 3⟩
abbrev F.HFC_RECS_WIRE : Fld := ⟨.HFC_RECS, 4, 4⟩
abbrev F.HFC_RECS_MERGED : Fld := ⟨.HFC_RECS, 31, 16⟩
abbrev F.HFC_RECA_SRC : Fld := ⟨.HFC_RECA, 8, 0⟩
abbrev F.HFC_RECA_WIRE : Fld := ⟨.HFC_RECA, 9, 9⟩
abbrev F.HFC_RECA_FORCED : Fld := ⟨.HFC_RECA, 10, 10⟩
abbrev F.HFC_RECA_DETAIL : Fld := ⟨.HFC_RECA, 63, 16⟩
abbrev F.HFC_RECB_SRC : Fld := ⟨.HFC_RECB, 8, 0⟩
abbrev F.HFC_RECB_WIRE : Fld := ⟨.HFC_RECB, 9, 9⟩
abbrev F.HFC_RECB_FORCED : Fld := ⟨.HFC_RECB, 10, 10⟩
abbrev F.HFC_RECB_DETAIL : Fld := ⟨.HFC_RECB, 63, 16⟩
abbrev F.HFC_RECT_VALUE : Fld := ⟨.HFC_RECT, 63, 0⟩
abbrev F.HFC_RECN_VALUE : Fld := ⟨.HFC_RECN, 63, 0⟩
abbrev F.HFC_ACT_BITS : Fld := ⟨.HFC_ACT, 63, 0⟩
abbrev F.HFC_SEEN_BITS : Fld := ⟨.HFC_SEEN, 63, 0⟩
abbrev F.HFC_FORCE_BITS : Fld := ⟨.HFC_FORCE, 63, 0⟩
abbrev F.HFC_FORCEW_BITS : Fld := ⟨.HFC_FORCEW, 63, 0⟩
abbrev F.HFC_CLASS_CLASS : Fld := ⟨.HFC_CLASS, 63, 0⟩
abbrev F.BIST_HSTAT_RESULT : Fld := ⟨.BIST_HSTAT, 3, 0⟩
abbrev F.BIST_HSTAT_TEST : Fld := ⟨.BIST_HSTAT, 31, 16⟩
abbrev F.BIST_HSTAT_UNIT : Fld := ⟨.BIST_HSTAT, 47, 32⟩
abbrev F.BIST_HSTAT_COVER : Fld := ⟨.BIST_HSTAT, 63, 48⟩
abbrev F.HBIST_REP_LANE : Fld := ⟨.HBIST_REP, 7, 0⟩
abbrev F.HBIST_REP_VALID : Fld := ⟨.HBIST_REP, 8, 8⟩
abbrev F.HBIST_REP_SPARE : Fld := ⟨.HBIST_REP, 12, 9⟩
abbrev F.HBIST_REP_DUP : Fld := ⟨.HBIST_REP, 13, 13⟩
abbrev F.HBIST_REP_PARTIAL : Fld := ⟨.HBIST_REP, 14, 14⟩
abbrev F.PWR_PDCTRL_LOCK : Fld := ⟨.PWR_PDCTRL, 0, 0⟩
abbrev F.PWR_PDID_DIE : Fld := ⟨.PWR_PDID, 0, 0⟩
abbrev F.PWR_PDID_REVISION : Fld := ⟨.PWR_PDID, 15, 8⟩
abbrev F.PWR_PDSTAT_VF24 : Fld := ⟨.PWR_PDSTAT, 15, 0⟩
abbrev F.PWR_PDSTAT_LOW : Fld := ⟨.PWR_PDSTAT, 16, 16⟩
abbrev F.PWR_PDSTAT_FRST : Fld := ⟨.PWR_PDSTAT, 17, 17⟩
abbrev F.PWR_PDSTAT_STOP : Fld := ⟨.PWR_PDSTAT, 18, 18⟩
abbrev F.PWR_PDDOM_STATE : Fld := ⟨.PWR_PDDOM, 1, 0⟩
abbrev F.PWR_PDDOM_STEP : Fld := ⟨.PWR_PDDOM, 6, 4⟩
abbrev F.SI_FE_TYPE : Fld := ⟨.SI_FE, 0, 0⟩
abbrev F.SI_FE_WET : Fld := ⟨.SI_FE, 1, 1⟩
abbrev F.SI_CPL_LEVEL : Fld := ⟨.SI_CPL, 0, 0⟩
abbrev F.SI_CPL_CURRENT : Fld := ⟨.SI_CPL, 15, 8⟩
abbrev F.TP_DRV_CMD : Fld := ⟨.TP_DRV, 0, 0⟩
abbrev F.TP_DRV_RB : Fld := ⟨.TP_DRV, 1, 1⟩
abbrev F.TP_DRV_HOT : Fld := ⟨.TP_DRV, 2, 2⟩
abbrev F.SO_SW_CMD : Fld := ⟨.SO_SW, 0, 0⟩
abbrev F.SO_SW_CLOSED : Fld := ⟨.SO_SW, 1, 1⟩
abbrev F.SO_SW_LIMIT : Fld := ⟨.SO_SW, 2, 2⟩
abbrev F.SO_SW_THERMAL : Fld := ⟨.SO_SW, 3, 3⟩
abbrev F.SO_SW_CURRENT : Fld := ⟨.SO_SW, 31, 16⟩
abbrev F.SO_SENS_MID : Fld := ⟨.SO_SENS, 0, 0⟩
abbrev F.SO_SENS_OUT : Fld := ⟨.SO_SENS, 1, 1⟩
abbrev F.SO_CROOKPD_IN : Fld := ⟨.SO_CROOKPD, 0, 0⟩
abbrev F.SO_CROOKPD_OUT : Fld := ⟨.SO_CROOKPD, 1, 1⟩
abbrev F.SO_CROOKPD_STOP : Fld := ⟨.SO_CROOKPD, 2, 2⟩
abbrev F.LMP_STG_B : Fld := ⟨.LMP_STG, 15, 0⟩
abbrev F.LMP_STG_MODE : Fld := ⟨.LMP_STG, 17, 16⟩
abbrev F.LMP_STG_RANGE : Fld := ⟨.LMP_STG, 19, 18⟩
abbrev F.LMP_STS_OPEN : Fld := ⟨.LMP_STS, 0, 0⟩
abbrev F.LMP_STS_OCP : Fld := ⟨.LMP_STS, 1, 1⟩
abbrev F.LMP_STS_LXFAIL : Fld := ⟨.LMP_STS, 2, 2⟩
abbrev F.LMP_STS_OVT : Fld := ⟨.LMP_STS, 3, 3⟩
abbrev F.LMP_OSAFE_BIAS : Fld := ⟨.LMP_OSAFE, 7, 0⟩
abbrev F.LMP_OSR_RESULT : Fld := ⟨.LMP_OSR, 15, 0⟩
abbrev F.MX_LINE_ON : Fld := ⟨.MX_LINE, 0, 0⟩
abbrev F.MX_LINE_TRIP : Fld := ⟨.MX_LINE, 1, 1⟩
abbrev F.MX_LINE_CURRENT : Fld := ⟨.MX_LINE, 31, 16⟩
abbrev F.MX_COL_ON : Fld := ⟨.MX_COL, 0, 0⟩
abbrev F.MX_COL_CURRENT : Fld := ⟨.MX_COL, 15, 8⟩
abbrev F.MX_DRVSTAT_BLANKED : Fld := ⟨.MX_DRVSTAT, 0, 0⟩
abbrev F.MX_DRVSTAT_TIMEOUT : Fld := ⟨.MX_DRVSTAT, 1, 1⟩
abbrev F.ADC_AFE_REFON : Fld := ⟨.ADC_AFE, 0, 0⟩
abbrev F.ADC_AFE_READY : Fld := ⟨.ADC_AFE, 1, 1⟩
abbrev F.ADC_AIFLT_FLT : Fld := ⟨.ADC_AIFLT, 15, 0⟩
abbrev F.ADC_FACT_COEF : Fld := ⟨.ADC_FACT, 63, 0⟩
abbrev F.BIST_PDSTAT_RUN : Fld := ⟨.BIST_PDSTAT, 0, 0⟩
abbrev F.BIST_PDSLF_SL0 : Fld := ⟨.BIST_PDSLF, 3, 0⟩
abbrev F.BIST_PDSLF_SL1 : Fld := ⟨.BIST_PDSLF, 7, 4⟩
abbrev F.BIST_PDSLF_PARTIAL : Fld := ⟨.BIST_PDSLF, 8, 8⟩
abbrev F.BIST_PDREP_LANE : Fld := ⟨.BIST_PDREP, 7, 0⟩
abbrev F.BIST_PDREP_VALID : Fld := ⟨.BIST_PDREP, 8, 8⟩
abbrev F.BIST_PDREP_SPARE : Fld := ⟨.BIST_PDREP, 12, 9⟩
abbrev F.BIST_PDREP_DUP : Fld := ⟨.BIST_PDREP, 13, 13⟩
abbrev F.BIST_PDREP_PARTIAL : Fld := ⟨.BIST_PDREP, 14, 14⟩
abbrev F.BIST_PDFUSE_LANE : Fld := ⟨.BIST_PDFUSE, 7, 0⟩
abbrev F.BIST_PDFUSE_VALID : Fld := ⟨.BIST_PDFUSE, 8, 8⟩
abbrev F.BIST_PDFUSE_SPARE : Fld := ⟨.BIST_PDFUSE, 12, 9⟩
abbrev F.BIST_PDFUSE_DUP : Fld := ⟨.BIST_PDFUSE, 13, 13⟩
abbrev F.BIST_PDFUSE_PARTIAL : Fld := ⟨.BIST_PDFUSE, 14, 14⟩

end Sys2Proof.Machine
end

