-- ==== Sys2Proof/Machine/Sparse.lean ====
section
/-! DEFINITION. Sparse tables in one canonical form: a list of (key, value) pairs with strictly rising keys and no
entry equal to what an unlisted key reads as (`d key`). Register files, byte memories and every per-instance table of
the state are such tables, so equal tables are equal data. -/

namespace Sys2Proof.Machine

/-- A table from numbers to values, listing only what differs from the default of its key. -/
abbrev Sparse (α : Type) := List (Nat × α)

/-- What key `k` holds: its entry, or the default of the key. -/
def Sparse.get {α : Type} (d : Nat → α) : Sparse α → Nat → α
  | [], k => d k
  | (a, v) :: m, k => if k = a then v else Sparse.get d m k

/-- The table without an entry for key `k`. -/
def Sparse.drop {α : Type} (m : Sparse α) (k : Nat) : Sparse α := m.filter (fun e => e.1 != k)

/-- Put `v` at key `k`, keeping the canonical form: writing the default removes the entry. -/
def Sparse.put {α : Type} [DecidableEq α] (d : Nat → α) : Sparse α → Nat → α → Sparse α
  | [], k, v => if v = d k then [] else [(k, v)]
  | (a, w) :: m, k, v =>
    if a = k then Sparse.put d m k v
    else if k < a then
      (if v = d k then (a, w) :: Sparse.drop m k else (k, v) :: (a, w) :: Sparse.drop m k)
    else (a, w) :: Sparse.put d m k v

/-- Every key of the table is above `k`. -/
def Sparse.above {α : Type} (k : Nat) (m : Sparse α) : Bool :=
  m.all (fun e => decide (k < e.1))

/-- The canonical form: keys strictly rising, no entry equal to its key's default. -/
def Sparse.wf {α : Type} [DecidableEq α] (d : Nat → α) : Sparse α → Bool
  | [] => true
  | (a, v) :: m => Sparse.above a m && decide (v ≠ d a) && Sparse.wf d m

/-- The entries whose keys lie in lo ≤ key < hi, as read back from the table. -/
def Sparse.within {α : Type} (m : Sparse α) (lo hi : Nat) : Sparse α :=
  m.filter (fun e => decide (lo ≤ e.1) && decide (e.1 < hi))

/-- The table with every key of lo ≤ key < hi back at its default. -/
def Sparse.erase {α : Type} (m : Sparse α) (lo hi : Nat) : Sparse α :=
  m.filter (fun e => !(decide (lo ≤ e.1) && decide (e.1 < hi)))

/-- Copy the keys lo ≤ key < hi of `src` into `dst` (both tables with the same defaults). -/
def Sparse.copy {α : Type} [DecidableEq α] (d : Nat → α) (src dst : Sparse α) (lo hi : Nat) : Sparse α :=
  (src.within lo hi).foldl (fun m e => Sparse.put d m e.1 e.2) (dst.erase lo hi)

end Sys2Proof.Machine
end

