-- ==== Sys2Proof/Machine/State.lean ====
section
/-! DEFINITION. The state of the device as plain data: every register, memory, queue, mode and hidden state that the spec
names, the queue of waiting commands, the faults and refusals, and the state after reset. -/

namespace Sys2Proof.Machine

/-! ### The cores (03, 04) -/

/-- An active LOOPN level (R125). -/
structure LoopLevel where
  start : Nat
  last : Nat
  left : Nat
  depth : Nat
  deriving DecidableEq, Repr

/-- A journal entry (R42, R291): the address of an 8-byte word and its content before the store. -/
structure JEntry where
  addr : Nat
  old : Word
  deriving DecidableEq, Repr

/-- A held register store of the fold task (R127): a store to the die-register or power-die region, the clear of an RC
register that a load returned (R292), or an EVACK write (R82). -/
inductive HeldStore where
  | store (addr width : Nat) (val : Word)
  | rcClear (addr : Nat) (seen : Word)
  | evack (bits : Word)
  deriving DecidableEq, Repr

/-- A held check-value step (R127, R133): bytes fed to a unit, or the end of its check. -/
inductive CkStep where
  | feed (unit : Nat) (bytes : List Nat)
  | finish (unit : Nat)
  deriving DecidableEq, Repr

/-- A held telegram (R130). -/
structure HeldTel where
  conn : Nat
  payload : List Nat
  deriving DecidableEq, Repr

/-- A held domain request (R136). -/
structure DomReq where
  dom : Nat
  state : Nat
  deriving DecidableEq, Repr

/-- A log record requested by LOG (R134): code and 80 data bits. -/
structure LogReq where
  code : Nat
  data : Nat
  deriving DecidableEq, Repr

/-- The image header's part of the configuration (R76, R84, R93, R99). -/
structure Header where
  codeSplit : Nat
  dataSplit : Nat
  entry : Nat
  compEntry : Nat
  stackTop : Nat
  compStackTop : Nat
  spLo : Nat
  spHi : Nat
  triad : Bool
  deriving DecidableEq, Repr

/-- The trap classes (R108). -/
inductive TrapClass where
  | illegal | scode | memecc | align | budget | stack | looplim | priv
  deriving DecidableEq, Repr

/-- A trap of one instruction: its class, the data address of the access (0 if none), and for MEMECC the memory of
R311 and the address of the word, which at a fetch is no data address. -/
structure Trap where
  cls : TrapClass
  addr : Nat
  mem : Nat
  word : Nat
  deriving DecidableEq, Repr

/-- How an attempt ended whose final signature compare is still to come (R288, R289): at FOLD, or at a trap. -/
inductive Ending where
  | fold
  | trap (t : Trap)
  deriving DecidableEq, Repr

/-- One set of a cache (R21): the tags held, by way, the ways in the order of their last use, the latest first, and
the way that round-robin replacement takes next. -/
structure CacheSet where
  tags : List Nat
  used : List Nat
  next : Nat
  deriving DecidableEq, Repr

/-- The pipeline of the fold-task cores (R117-R119): the registers whose value is not usable yet, each with the cycle of the
attempt from which it is; the cycles at which the store buffer's entries have drained, oldest first; the caches, by set. -/
structure PipeSt where
  ready : List (Nat × Nat)
  buf : List Nat
  lastStore : Option Nat
  icache : Sparse CacheSet
  dcache : Sparse CacheSet
  deriving DecidableEq, Repr

/-- The fold task as the lockstepped cores agree on it (R72-R76): registers, program counter, call and loop state, the
running attempt, the last trap, and the journal and held effects of the attempt. -/
structure FoldCore where
  /-- w1 to w31; w0 reads 0 (R73). -/
  w : Sparse Word
  /-- The registers at the last commit, from which a retry or the next fold starts (R75). -/
  wCommit : Sparse Word
  pc : Nat
  /-- An attempt is executing. -/
  running : Bool
  /-- The attempt of this fold has executed FOLD and its last compare agreed (R289). -/
  complete : Bool
  /-- The first attempt has ended and its rollback is in progress (R109, R291). -/
  rolling : Bool
  /-- Why the first attempt ended: a trap class code, or 0xF for a lockstep mismatch; 0 if it did not. -/
  firstCause : Nat
  firstCycles : Nat
  /-- 0 on the first attempt of a fold, 1 on the retry (R80). -/
  attempt : Nat
  cycles : Nat
  callDepth : Nat
  /-- The hardware's own copy of each return address, innermost first (R98). -/
  rets : List Nat
  loops : List LoopLevel
  trapCause : Word
  trapPc : Word
  trapAddr : Word
  /-- EVENTS, and the bits that were set at the latest instant at which one was (R103). -/
  events : Word
  eventsAt : Nat
  eventsNew : Word
  journal : List JEntry
  /-- The journal limit was exceeded in this fold (R43). -/
  jovf : Bool
  /-- Window compare: the attempt's end that awaits its compare, and the cycle at which the present window began (R288). -/
  ending : Option Ending
  window : Nat
  stores : List HeldStore
  doms : List DomReq
  cks : List CkStep
  tels : List HeldTel
  logs : List LogReq
  /-- Check-value units whose result this attempt made invalid by overflow (R127). -/
  ckLost : List Nat
  /-- Function-fault entries of this fold, raised in commit: slot and state code (R151). -/
  slotFaults : List (Nat × Nat)
  /-- Triad mode: the core masked in this attempt, and the one masked in the last committed fold (R294, R295). -/
  masked : Option Nat
  /-- The cycle in which that core was masked. -/
  maskedAt : Nat
  maskedLast : Option Nat
  deriving DecidableEq, Repr

/-- The companion core C2 in native mode (R104-R106). -/
structure CompCore where
  w : Sparse Word
  pc : Nat
  spLo : Word
  spHi : Word
  irqEnable : Word
  irqVbase : Word
  trapVbase : Word
  estatus : Word
  epc : Word
  ecause : Word
  eaddr : Word
  /-- The companion program has been started (R76). -/
  on : Bool
  /-- Halted by WAITEV. -/
  waiting : Bool
  /-- A debug STEP lets the halted core execute one instruction (R413). -/
  stepping : Bool
  /-- The words that its stores to the shared page at the instant `sharedAt` replaced, the latest first (R90). -/
  sharedAt : Nat
  sharedOld : List JEntry
  deriving DecidableEq, Repr

/-! ### Safe inputs and test pulses (06), capture queues (16) -/

/-- What a die keeps of one input beside SI_STATi (R38, R172, R178, R187, R189). -/
structure InputSt where
  /-- The start of the last regular window sampled, and of the last dark sample. -/
  lastWin : Option Nat
  lastDark : Option Nat
  /-- The instant of the last change of the filtered state, and the state before that instant (R38). -/
  filtAt : Nat
  filtWas : Bool
  /-- Consecutive low regular samples outside blanking, and the window start of the last of them. -/
  run : Nat
  runAt : Nat
  /-- The instant of the previous foreign pulse. -/
  lastForeign : Option Nat
  /-- The instant the filtered state last became high. -/
  highAt : Nat
  /-- DARKFAIL: a regular sample has left the counter at 0 since the entry. -/
  darkZero : Bool
  deriving DecidableEq, Repr

/-- One pulse of a test-pulse source with its blanking interval (R185, R186). -/
structure Blank where
  /-- The instant the low command reached the driver. -/
  start : Nat
  /-- The readback has read low in the pulse. -/
  sawLow : Bool
  /-- The readback low interval is over, and whether it was valid. -/
  ended : Bool
  valid : Bool
  /-- The end of the blanking interval, once known. -/
  stop : Option Nat
  /-- The inputs whose filtered state was high at its start, and those of which a regular sample in it read low. -/
  high : Nat
  low : Nat
  deriving DecidableEq, Repr

/-- What a die keeps of one test-pulse source beside TP_STATj (R183, R185). -/
structure SourceSt where
  /-- The instants at which the command and the readback last changed. -/
  cmdAt : Nat
  rbAt : Nat
  /-- The instants of the last low commands, the latest first, four at most. -/
  lows : List Nat
  /-- The pulses whose blanking interval has not been evaluated yet, oldest first. -/
  blanks : List Blank
  lastValid : Nat
  /-- The start of the last readback low interval that followed a low command. -/
  lastLow : Nat
  /-- The episodes of SHORTLOW, STUCKHIGH and NOPULSE already raised (R183). -/
  epShort : Bool
  epStuck : Bool
  epNone : Bool
  deriving DecidableEq, Repr

/-- What a die keeps of its input side as a whole. -/
structure InputSide where
  /-- Front-end groups found mismatching: their inputs read safe-0 from then on (R174). -/
  feMis : Nat
  /-- Power dies whose input domain is not ON (bit 0 PD0, bit 1 PD1), and whose sense link failed (R30). -/
  pdInOff : Nat
  senseFail : Nat
  /-- The instant TP_CTRL.ACTIVE was set. -/
  activeAt : Nat
  /-- The instants at which the shunt path of an analog input opened (R196). -/
  openedAt : Sparse Nat
  deriving DecidableEq, Repr

/-! ### Check-value units (16) -/

/-- What a check-value unit keeps beside its registers: the CRC register of a check in progress, the bytes that a busy
DMA run covers, whether the check in progress has lost a held step by overflow, and whether the last result was marked
invalid by that (R127, R436, R437). -/
structure CkSt where
  crc : Option Nat
  owner : Nat
  lost : Bool
  invalid : Bool
  deriving DecidableEq, Repr

/-! ### Safe outputs (07) -/

/-- What a die keeps of one output beside its registers (R201, R209-R213). -/
structure OutSt where
  /-- This die's off-pulse or on-pulse of the output is in progress (R211, R212). -/
  off : Bool
  on : Bool
  /-- The start of the pulse, and whether another reason or a command change has spoiled its judgement (R213). -/
  start : Nat
  spoiled : Bool
  /-- The instant the own switch last opened for a reason other than its own off-pulse; the instants it last opened
  and closed for any. -/
  openAt : Nat
  openFrom : Nat
  closeAt : Nat
  /-- The instant OFFT after the end of its own last off-pulse. -/
  offEnd : Nat
  /-- The last committed fold energised the output while it was held (HELDMIS, once per entry). -/
  heldMis : Bool
  /-- Findings that hold and have raised their source (R209), with the instant of the entry where it is a level that
  holds: STAYON of the open switch, of its off-pulses, of another output's on-pulse; NOON of the closed switch, of the
  own on-pulse. -/
  epOpen : Option Nat
  epPulse : Nat
  epBridge : Bool
  epLow : Option Nat
  epOn : Bool
  /-- The output has energised since field power-up (R207). -/
  freed : Bool
  /-- The instant of the last check that read the nodes (R222), and of the last one that read the output node high (R214). -/
  readAt : Nat
  highAt : Nat
  deriving DecidableEq, Repr

/-! ### Signal lamps (08) -/

/-- What a die keeps of one lamp string beside its registers: LA as the aspect engine applies it, LB as it expects it. -/
structure LampSt where
  /-- The aspect entry in force, and whether its flash profile is in its on-phase (R231, R232). -/
  entry : Nat
  onPhase : Bool
  /-- The instant the string's state last changed (R236). -/
  stateAt : Nat
  /-- Consecutive judged checks passed since the aspect became displayed, 2 at most (R238). -/
  passes : Nat
  /-- The kind of check: 0 none yet, 1 lit, 2 dark, 3 envelope (R237). -/
  kind : Nat
  /-- The number of the dimming period in which the last sample was taken (R235). -/
  sampled : Option Nat
  /-- The last judged sample of at least 3 × IOFS (R237). -/
  lastAlive : Option Nat
  /-- The stage is stopped by a finding (R227). -/
  stopped : Bool
  /-- The commanded state was dark through the present period (R227). -/
  wasDark : Bool
  /-- The on-current carried, as full scale in µA × code (R225), and the end and level of a range hold (R226). -/
  onCur : Nat
  hold : Option (Nat × Nat)
  deriving DecidableEq, Repr

/-- What a die keeps of its lamp side as a whole. -/
structure LampSide where
  /-- The instant the displayed aspect became displayed (R238). -/
  dispAt : Nat
  /-- Optical inputs whose loop has passed a judged window since then; per input the start of the last window (R241)
  and the last measurement of its colour loop (R243). -/
  osPass : Nat
  osAt : Sparse (Option Nat)
  loopAt : Sparse (Option Nat)
  /-- Lamp pairs whose last neighbour test failed (R244). -/
  nbPend : Nat
  /-- Flash profiles in their on-phase (R232). -/
  flash : Nat
  deriving DecidableEq, Repr

/-! ### Pattern engines and the indicator matrix (09) -/

/-- What a pattern engine does (R249-R258). -/
inductive PeMode where
  | stopped
  | running
  /-- Ticks left until it resumes. -/
  | wait (n : Nat)
  /-- Level, steps, steps computed, the elements' values at the execution. -/
  | ramp (k s j : Nat) (old : List Nat)
  /-- SHIFT pending: direction, source by LINK. -/
  | shift (down link : Bool)
  /-- The commit, or the on-phase of the profile, has come. -/
  | waitF (seen : Bool)
  | waitP (f : Nat) (seen : Bool)
  | halted
  deriving DecidableEq, Repr

/-- What LA keeps of one pattern engine beside its registers (R247). -/
structure PeSt where
  mode : PeMode
  work : List Nat
  mask : Nat
  cnt : List Nat
  /-- The RUN bit has been set since the last tick. -/
  start : Bool
  /-- The writes of its program words at the instant `wroteAt`, the latest first: word, content before, writer (R254). -/
  wroteAt : Nat
  wrote : List (Nat × Word × Party)
  deriving DecidableEq, Repr

/-- What LA keeps of the matrix beside its registers (R263-R266). -/
structure MxSt where
  /-- The configuration in force, and one written for the next frame start. -/
  cfg : Word
  next : Option Word
  /-- PD1 has received no lamp-link frame for 10 µs. -/
  linkOff : Bool
  /-- The frame of the last neighbour test (R266). -/
  tested : Option Nat
  /-- Columns observed in the present frame, and those that failed in it. -/
  colSeen : Nat
  colFail : Nat
  /-- Armed checks: columns, lines (overcurrent, high), neighbour pairs. -/
  armCol : Nat
  armOcp : Nat
  armHi : Nat
  armNb : Nat
  /-- On PD1's side (LB): the start of the first frame drawn since the matrix was last blanked, the front buffer it
  draws from, and for each line the end of the slot in which its overcurrent trip turned it off (R262, R265). -/
  drawn : Option Nat
  image : Sparse Word
  tripTill : Sparse Nat
  deriving DecidableEq, Repr

/-! ### Converters (10) -/

/-- What a converter works on (R274): an entry of the sequence, a software urgent conversion, a calibration measurement. -/
inductive AdcKind where
  | seq | urgent | cal
  deriving DecidableEq, Repr

/-- One entry whose conversion has begun and whose result is not delivered (R270, R275, R281): its constituents, those
issued, the hold of the latest, the slices that have to repeat one, each with whether that one was shadowed, and the
marks RETRIED and SPARE of its result. -/
structure AdcRun where
  id : Nat
  kind : AdcKind
  entry : Nat
  count : Nat
  issued : Nat
  hold : Nat
  redo : List (Nat × Bool)
  retried : Bool
  spare : Bool
  deriving DecidableEq, Repr

/-- A constituent that acquires or converts: its slice by rotation position, its entry's run, its hold, and where it
is a repeat, whether the conversion it repeats was shadowed. -/
structure AdcPart where
  slice : Nat
  run : Nat
  hold : Nat
  again : Option Bool
  deriving DecidableEq, Repr

/-- What a converter does next: the first or the next constituent of a run, or a repeat on a slice. -/
inductive AdcTask where
  | first (r : AdcRun)
  | more (r : AdcRun)
  | again (r : AdcRun) (redo : Nat × Bool)
  deriving DecidableEq, Repr

/-- What a die keeps of one of its two converters beside its registers. Times are on the 12.5 ns grid (R270). -/
structure AdcSt where
  /-- A pass is in progress, and the entry it begins next. -/
  pass : Bool
  entry : Nat
  /-- The next rotation position, the earliest start of a constituent, the hold of the last, and per position the
  instant from which its slice is free. -/
  rot : Nat
  next : Nat
  mux : Nat
  free : Sparse Nat
  /-- The entries under conversion, by the start of their latest constituent, the constituents in flight, and the next
  number of a run. -/
  runs : List AdcRun
  parts : List AdcPart
  ids : Nat
  /-- The entries of software urgent conversions that wait, oldest first. -/
  urgent : List Nat
  /-- A calibration measurement: its slot, and FULL (true) or ZERO. -/
  cal : Option (Nat × Bool)
  /-- Stored zero points per slot, as sums of 4,096 codes (R284). -/
  zero : Sparse (Option Nat)
  /-- Slices with a strike (R281), the shadowed slice, its shadowed conversions, and whether the spare has checked
  itself in this round (R280). -/
  strikes : Nat
  shadow : Nat
  shadowed : Nat
  checked : Bool
  /-- The conversions per slice in the present 100 ms, and its start (R280). -/
  tally : Sparse Nat
  slowAt : Nat
  /-- The result queue, oldest first (R277). -/
  queue : List Word
  deriving DecidableEq, Repr

/-! ### The stile (12) -/

/-- HELLO (R327). From a logic die `info` bit 0 is LOCKED; from the host die it is lifecycle [1:0] and debug state [3:2],
with the anti-rollback counter, the revocation bits and the hashes of the four key slots. -/
structure Hello where
  reason : Nat
  info : Nat
  arb : Nat
  revoked : Nat
  keys : List Nat
  deriving DecidableEq, Repr

/-- FOLD_DONE (R323): MISSED, and the 72 words of its payload. -/
structure FoldDone where
  missed : Bool
  words : List Word
  deriving DecidableEq, Repr

/-- A stile message (R322) by its type, without the fields of transport. -/
inductive StileMsg where
  | hello (h : Hello)
  | imageBegin (total : Nat)
  | imageChunk (ofs : Nat) (data : List Nat) (last : Bool)
  | imageEnd (total chunks : Nat)
  | imageVerdict (reason detail digest tally : Nat)
  | paramWrite (ofs : Nat) (data : List Nat) (last : Bool)
  | paramAck (reason blocks ofs : Nat)
  | foldDone (f : FoldDone)
  | hostReq (op tag addr data : Nat)
  | hostRep (op status tag addr data : Nat)
  | vctTx (conn crc fold : Nat) (payload : List Nat) (ahead : Bool)
  | vctRx (conn time : Nat) (frame : List Nat)
  | logRecord (recs : List LogRec) (dropped : Nat)
  | faultNote (n : FaultNote)
  | powerReq (op dom st time : Nat)
  | timeSync (time : Nat) (valid : Bool)
  | debugReq (session op : Nat) (data : List Nat)
  | debugRsp (session op : Nat) (data : List Nat)
  | bistCmd (test unit opts : Nat)
  | bistRes (test unit result cover duration : Nat) (detail : List Nat)
  /-- An entry of the transmit ring that is outside the message set (R322): its TYPE, and its bytes up to 11 + LEN. -/
  | outside (type : Nat) (bytes : List Nat)
  deriving DecidableEq, Repr

/-- A message sent and not yet acknowledged (R318). -/
structure Sent where
  seq : Nat
  msg : StileMsg
  resent : Bool
  /-- The other end has accepted it (kept for HELLO, whose number does not tell a repeat from a new session). -/
  taken : Bool
  /-- The instant at which its last byte leaves (R318). -/
  left : Nat
  deriving DecidableEq, Repr

/-- What one die keeps of one stile link (R316-R321). -/
structure LinkEnd where
  /-- The own HELLO of this session has gone out; the other end's HELLO has come in. -/
  opened : Bool
  heard : Bool
  /-- Messages waiting, and those sent and unacknowledged, oldest first (8 at most). -/
  queue : List StileMsg
  unacked : List Sent
  /-- The number of the next message sent, and of the next message accepted. -/
  next : Nat
  expect : Nat
  /-- The number named in the last control word sent. -/
  cw : Option Nat
  /-- The missed acknowledgement of R319 has come; a lasting link fault holds; no control words before this instant. -/
  missed : Bool
  down : Bool
  quiet : Nat
  /-- The instant from which the direction is free (R321), and the one at which the last control word came (R319). -/
  busy : Nat
  cwAt : Nat
  deriving DecidableEq, Repr

/-- A note in the crosslink's background traffic (R33). -/
inductive XNote where
  /-- A fault note (R303). -/
  | fault (n : FaultNote)
  /-- A resume proposal: fold number and instant (R306). -/
  | resume (number start : Nat)
  /-- A wake note (R385). -/
  | wake
  /-- Level ready (R387). -/
  | level (pl : Nat)
  /-- Debug hold (R414). -/
  | hold
  /-- An accepted telegram frame (R358): connection, SRCDEV, SEQ. -/
  | accepted (conn src seq : Nat)
  deriving DecidableEq, Repr

/-- What the dies exchange at start-up before the tally (R335): the digests of image and parameter set, the pin
record, and the words that must be equal on both dies (R289, R459, R469). -/
structure BootFiles where
  image : Nat
  params : Nat
  pins : List Nat
  twins : List Nat
  deriving DecidableEq, Repr

/-- What a crosslink frame carries (R33): the payload of the exchange slot (R49) or of the output-agreement slot
(R53), a note, or the 20 words of the crosslink view (R35); at start-up digests, tally and verdict (R335). -/
inductive XItem where
  | exchange (payload : List Nat)
  | agreement (payload : List Nat)
  | note (n : XNote)
  | view (image : List Word)
  | files (f : BootFiles)
  | tally (v : Nat)
  | verdict (pass : Bool)
  deriving DecidableEq, Repr

/-- A crosslink frame that waits for its acknowledgement (R32, R34): its sequence number, the item and which of its
frames it is, and whether it has been sent once more. -/
structure XSent where
  seq : Nat
  item : XItem
  part : Nat
  resent : Bool
  deriving DecidableEq, Repr

/-- What a die keeps of its crosslink end (R32-R34): the next sequence number, the frames to send, of each slot the
oldest first, the payloads received in the exchange and the output-agreement slot, and the notes received. -/
structure XlinkSt where
  seq : Nat
  tx : List XSent
  rxExchange : Option (List Nat)
  rxAgreement : Option (List Nat)
  inbox : List XNote
  deriving DecidableEq, Repr

/-! ### Folds (02) -/

/-- Where a logic die stands in its fold (R37). -/
inductive FoldPhase where
  /-- No fold: folds stopped, or between folds. -/
  | idle
  /-- Fold started, input image frozen. -/
  | sample
  /-- Own exchange frame sent. -/
  | exchange
  /-- Combined image written. -/
  | ready
  /-- The fold task's attempt phase. -/
  | execute
  /-- Own output-agreement frame sent. -/
  | agree
  /-- The frames have been compared and agree. -/
  | agreed
  /-- C, until its end: the fold number has advanced. -/
  | commit
  /-- The fold is missed; its C has not ended. -/
  | missed
  deriving DecidableEq, Repr

/-- An exchange frame (R49): start, previous digest, 48 half codes, crook bits, eight analog results, 64 proof codes. -/
structure XFrame where
  start : Nat
  digest : Nat
  halves : List Nat
  crooks : Nat
  analog : List Nat
  proofs : Nat
  deriving DecidableEq, Repr

/-- What a logic die keeps of its folds. -/
structure FoldSt where
  phase : FoldPhase
  /-- F(f): the nominal start of the running fold, and of the last committed one. -/
  start : Nat
  lastStart : Nat
  /-- The start of the last fold that this die began (R45). -/
  begun : Option Nat
  /-- The exchange frame of the running fold. -/
  frame : XFrame
  /-- The output image sent for agreement: words 0x000, 0x008, 0x010, 0x018. -/
  sent : List Word
  /-- First sighting of pair k (R50): the fold's start and number. -/
  first : Sparse (Option (Nat × Nat))
  /-- The digest of the last committed fold (R59); it is not compared in the first fold after a resumption (R306). -/
  digest : Nat
  omitDigest : Bool
  /-- Committed folds since the last missed fold, 16 at most (R63). -/
  sinceMiss : Nat
  /-- Zones that took their reaction in the last fold, a missed one (R163). -/
  reacted : Nat
  /-- The running fold changes the command of some output (R272). -/
  moves : Bool
  /-- The instant of C at which the FOLD_DONE of a missed fold is due (R323). -/
  owed : Option Nat
  /-- SO_SHORT at the freeze (R214). -/
  short : Nat
  /-- The accepted instant of START (R341). -/
  startAt : Option Nat
  /-- The first fold with STARTED since folds started has not committed yet (R182, R229). -/
  armTp : Bool
  armLamp : Bool
  deriving DecidableEq, Repr

/-! ### Fault collector and always-on domain (11) -/

/-- What a collector keeps beside its registers (R305, R306): the last event, the last instant at which a source of
class 1 or above was asserted, the sources asserted or in WIRE without force bits, and the resume proposals. -/
structure FcSt where
  lastEvent : Nat
  lastActive : Nat
  held : Nat
  wire : Nat
  mine : Option (Nat × Nat)
  theirs : Option (Nat × Nat)
  deriving DecidableEq, Repr

/-- What the field always-on domain keeps beside LOCKED (R307): the times of the last 16 counted closes. -/
structure AonSt where
  closes : List Nat
  deriving DecidableEq, Repr

/-! ### Field boot (12) -/

/-- How far the boot ROM of a logic die has come (R334). -/
inductive BootPhase where
  /-- Held in reset or unpowered. -/
  | off
  /-- The stile lanes have more failures than spares: the link is not established (R448). -/
  | cut
  /-- Released: step 1 is next. -/
  | scrub
  /-- HELLO sent; waiting for IMAGE_BEGIN, for image data, for the parameter set. -/
  | hello
  | image
  | params
  /-- Everything received: steps 5 to 8 are next. -/
  | verify
  /-- Digests and pin record made: step 9 is next. -/
  | tally
  /-- Tally made: the comparison with the other die's is next. -/
  | compare
  /-- Own verdict made and sent to the other die: steps 10 and 11 are next. -/
  | verdict
  /-- The boot ROM has ended. -/
  | done
  deriving DecidableEq, Repr

/-- What the boot ROM of a logic die holds. -/
structure BootSt where
  phase : BootPhase
  /-- The HELLO reason of this start (R327), and the instant of HELLO. -/
  reason : Nat
  helloAt : Nat
  /-- The crosslink is not established (R336, R448). -/
  xlCut : Bool
  /-- The image as received, its announced total, and the chunks received. -/
  total : Nat
  image : List Nat
  chunks : Nat
  params : List Nat
  /-- The instant of the last download message. -/
  lastMsg : Nat
  /-- The reasons found that fail the verdict, each with the offset of the failing field (R336). -/
  fails : List (Nat × Nat)
  blocks : Nat
  /-- Digests of the image and of the parameter set, the pin record, the tally. -/
  imgDigest : Nat
  parDigest : Nat
  pins : List Nat
  tally : Nat
  /-- What the other die has sent over the crosslink: its digests and pin record, its tally, its verdict. -/
  peerFiles : Option BootFiles
  peerTally : Option Nat
  peerVerdict : Option Bool
  /-- The host die's HELLO of this session (R327). -/
  host : Hello
  /-- The last valid TIME_SYNC: its time and its arrival. -/
  sync : Option (Nat × Nat)
  deriving DecidableEq, Repr

/-! ### Telegrams and the flock (13) -/

/-- An accepted VCT frame (R358, R359): sending device, its connection, SEQ, DSTDEV, reception stamp, data; `agreed`: the
other die's announcement is held too. -/
structure VFrame where
  conn : Nat
  src : Nat
  srcConn : Nat
  seq : Nat
  dst : Nat
  stop : Bool
  stamp : Nat
  data : List Nat
  agreed : Bool
  deriving DecidableEq, Repr

/-- A STOP that the acting bellwether supervises (R362), with the devices that have acknowledged it in time. -/
structure StopSup where
  src : Nat
  conn : Nat
  seq : Nat
  dst : Nat
  stamp : Nat
  acked : List Nat
  deriving DecidableEq, Repr

/-- The content of a beacon (R354): sender, stamp, and the fields of its data. -/
structure Beacon where
  src : Nat
  stamp : Nat
  cper : Nat
  fsafe : Bool
  rank : Nat
  number : Nat
  late : Nat
  lost : Nat
  tallyOk : Nat
  digest : Nat
  deriving DecidableEq, Repr

/-- The last agreed CONTRIB of a device (R363, R366). -/
structure Contrib where
  seq : Nat
  stamp : Nat
  tally : Nat
  deriving DecidableEq, Repr

/-- What a logic die keeps of telegrams and the flock beside its registers. -/
structure VctSt where
  /-- Last SEQ sent per connection; last SEQ accepted per connection, on cell connections per source device. -/
  txSeq : Sparse Nat
  last : Sparse (Option Nat)
  /-- Accepted frames that may still become held, oldest first; announcements whose frame has not come yet. -/
  got : List VFrame
  early : List (Nat × Nat × Nat)
  /-- The frame held per connection at the last fold start, and the connections whose frame changed there. -/
  held : Sparse (Option VFrame)
  changed : List Nat
  /-- F of the first fold after a field restart. -/
  firstStart : Option Nat
  /-- Zones whose cell hold has a cause at the last fold start (R361). -/
  causes : Nat
  /-- The beacon that VCT_STAT shows: the held one, or the acting bellwether's own. -/
  beacon : Option Beacon
  /-- The acting bellwether: stops supervised, agreed contributions, SEQ last counted, consecutive LATE and on-time cell
  folds, and these before the close of the present cell fold; its bits. -/
  stops : List StopSup
  contribs : Sparse (Option Contrib)
  counted : Sparse Nat
  lateRun : Sparse Nat
  timeRun : Sparse Nat
  number : Nat
  late : Nat
  lost : Nat
  tallyOk : Nat
  countedWas : Sparse Nat
  lateWas : Sparse Nat
  timeWas : Sparse Nat
  lostWas : Nat
  fsafe : Bool
  /-- The last instant at which a cell hold was set, and the zones (R361). -/
  heldAt : Nat × Nat
  deriving DecidableEq, Repr

/-- A VCT_TX that waits for the other channel's (R356). -/
structure TxHalf where
  conn : Nat
  crc : Nat
  fold : Nat
  payload : List Nat
  at_ : Nat
  /-- It is the no-th VCT_TX of its channel on the connection. -/
  no : Nat
  deriving DecidableEq, Repr

/-- A frame that waits at P1 or P2: its class and length, the two halves and the SEQ of a telegram made here, and its
R-TAG number (R347, R352). -/
structure QFrame where
  cls : Nat
  len : Nat
  tel : Option (TxHalf × TxHalf × Nat)
  rtag : Option Nat
  deriving DecidableEq, Repr

/-- An egress port: the frames that wait, oldest first, and the instant at which it is free. -/
structure PortSt where
  queue : List QFrame
  busy : Nat
  deriving DecidableEq, Repr

/-- What the host die keeps of the backbone beside its registers (R347-R357). -/
structure BackSt where
  /-- VCT_TX waiting for their partner, per channel, oldest first; next SEQ per connection. -/
  txA : List TxHalf
  txB : List TxHalf
  seq : Sparse Nat
  /-- VCT_TX received per channel and connection since the last HELLO on link A. -/
  cntA : Sparse Nat
  cntB : Sparse Nat
  /-- The egress of P1 and P2, and the next R-TAG number of this device's telegrams (R352). -/
  port1 : PortSt
  port2 : PortSt
  rtag : Nat
  /-- The telegrams made here that have started on P1 or P2, oldest first, each with its R-TAG number. -/
  egress : List (List Nat × Option Nat)
  /-- Gate lists in force on P1 and P2: gates and interval per entry. -/
  gcl0 : List (Nat × Nat)
  gcl1 : List (Nat × Nat)
  /-- Meter levels in thousandths of a bit, and the instant each was last brought up to date. -/
  tokens : Sparse (Option (Nat × Nat))
  /-- The filtering database: address, VID, port; duplicate elimination: the last 32 R-TAG numbers per source. -/
  fdb : List (Nat × Nat × Nat)
  recov : List (Nat × List Nat)
  /-- The start of holdover. -/
  holdAt : Nat
  deriving DecidableEq, Repr

/-! ### Power and reset (14) -/

/-- A region of save memory with its commit word (R389): the words saved, each under its key, the CRC-32C over them,
and the number of the save. -/
structure SaveRegion where
  words : List (Nat × Word)
  crc : Nat
  seq : Nat
  deriving DecidableEq, Repr

/-- What the power sequencer of a logic die keeps beside its registers (R374-R397). Bits count domains as PWR_DOMk. -/
structure PwrSt where
  /-- Domains whose transition goes down, whose present step is its repeat, and whose take-down a wake follows. -/
  down : Nat
  repeated : Nat
  woke : Nat
  /-- Domains that come up, or would come up, from FALLOW. -/
  fallow : Nat
  /-- Requests held while a domain is in transition (R378). -/
  held : Sparse (Option Nat)
  /-- Woken: it waits for LA_MEM and LA_CORE to be ON, then proposes a resumption (R385). -/
  waking : Bool
  /-- The level change under way: its release, own level-ready sent, the other die's level-ready note (R387). -/
  plAt : Nat
  plMine : Bool
  plTheirs : Bool
  /-- FRST is held since; the hold in ms that the first commit logs (R396). -/
  frstAt : Option Nat
  frstLog : Option Nat
  /-- The retention check values (R391): over code SRAM and over the pin record. -/
  chkCode : Nat
  chkPins : Nat
  /-- The instant VF24 last rose above 19.2 V. -/
  upAt : Option Nat
  /-- VF24 has been below 12.0 V since the sequence began; saves whose commit word it kept from being written. -/
  brown : Bool
  /-- A lasting fault of the control link to the power die (R470). -/
  ctlFail : Bool
  /-- The save memory of the always-on domain (R14, R389): the region of each domain that has a commit word. -/
  saves : Sparse (Option SaveRegion)
  /-- The instant from which both level notes are held (R387). -/
  plBoth : Nat
  /-- The power-down sequence has run and its return has not (R393); the instant of its end; the sources that it
  suppressed (R392). -/
  dipped : Bool
  seqEnd : Nat
  pdSeen : List Nat
  /-- FRST has acted (R395). -/
  frstOn : Bool
  /-- LA_MEM has left ON since the pause, so that a wake needs its save (R385). -/
  memSlept : Bool
  deriving DecidableEq, Repr

/-- What the host die keeps of its power domains and of nRST_H (R376-R398), counted as PWR_HDOMk. -/
structure HPwrSt where
  down : Nat
  repeated : Nat
  fallow : Nat
  held : Sparse (Option Nat)
  /-- nRST_H, or a host supply below its threshold, holds the host die in reset since (R396, R477). -/
  nrstAt : Option Nat
  /-- Lasting sequencing failures of H_NET that its collector raises once H_NET is ON (R376): step, or 0. -/
  netFail : Nat
  /-- The save memory of H_AON (R14, R389). -/
  saves : Sparse (Option SaveRegion)
  /-- The state that a transition under way leads to (R378), the held requests that a wake made, and the domains that
  have failed and that firmware has not requested again (R376). -/
  going : Sparse Nat
  wakes : Nat
  failed : Nat
  /-- The instant from which PWR_HRTC counts on from its register (R398). -/
  rtcAt : Nat
  deriving DecidableEq, Repr

/-! ### Security block, debug sessions and JTAG (15) -/

/-- A fuse command that is running (R403). -/
structure OtpJob where
  op : Nat
  slot : Nat
  lct : Nat
  arbt : Nat
  data : List Word
  refused : Bool
  deriving DecidableEq, Repr

/-- The JTAG instructions (R411). -/
inductive JtagInstr where
  | idcode | bypass | sample | extest | dap
  deriving DecidableEq, Repr

/-- A session that waits for a fuse command to end (R418): its state, scope, TTL and number. -/
structure PendOpen where
  state : Nat
  scope : Nat
  ttl : Nat
  number : Nat
  deriving DecidableEq, Repr

/-- What the security block keeps beside its registers: the fuses (R400-R402), the fuse command, the challenge and the
session (R408-R410), and the JTAG port (R411). -/
structure SecSt where
  /-- Blown fuses per lifecycle field (1 DEVELOP, 2 CERTIFIED, 3 RETURNED), key words (6n + w), blown fuses per slot
  revocation, ARB, IK, blown fuses of its programmed flag, UID; key slots whose burn was cut (R402). -/
  lcF : Sparse Nat
  keyF : Sparse Word
  krevF : Sparse Nat
  arbF : Nat
  ikF : Nat
  ikFlagF : Nat
  uid : Word
  keyPart : Nat
  job : Option OtpJob
  /-- A session end that a running fuse command delays (R418). -/
  endAfter : Bool
  /-- SECVER of the running host image. -/
  secver : Nat
  /-- CHREQ is being answered; challenges issued so far; the challenge, the instant of its issue; the scope and TTL
  last asked for, and those of the challenge as issued, with its session number. -/
  asked : Bool
  issued : Nat
  chal : List Nat
  chalAt : Nat
  chalScope : Nat
  chalTtl : Nat
  issScope : Nat
  issTtl : Nat
  chalNum : Nat
  /-- CHREQ is refused before this instant. -/
  refuse : Nat
  /-- The response under verification, with the challenge that it answers as issued: bytes, scope, TTL and session number. -/
  resp : Option (List Nat)
  verChal : List Nat
  verScope : Nat
  verTtl : Nat
  verNum : Nat
  /-- A session that opens once the running fuse command has ended (R418). -/
  waiting : Option PendOpen
  /-- The last session number given out, and the instant the open session's TTL elapses. -/
  lastSession : Nat
  sessEnd : Nat
  jtag : JtagInstr
  jtagDr : Nat
  /-- The levels that EXTEST drives on the host-side balls. -/
  jtagPins : Option Nat
  deriving DecidableEq, Repr

/-! ### Self-test (17) -/

/-- A self-test command: test, unit, options (R449). -/
structure BistCmd where
  test : Nat
  unit : Nat
  opts : Nat
  deriving DecidableEq, Repr

/-- What a test pens on a die (R452): input instances, lamp strings and converters as bits, and the sources that stay
silent. -/
structure Pen where
  ins : Nat
  lamps : Nat
  adcs : Nat
  mutes : List (Nat × Nat)
  deriving DecidableEq, Repr

/-- What a logic die keeps of self-test beside its registers (R450-R456): commands waiting, the one running with the instant
of its pen, and what the test of each logic die pens here. -/
structure BistSt where
  queue : List BistCmd
  cur : Option BistCmd
  penAt : Nat
  penA : Pen
  penB : Pen
  /-- The channel has gone safe since the test began (R455). -/
  cut : Bool
  /-- The repairs of the fuses in effect (R460): per segment entries as bits, and the retired slice of each converter,
  4 bits each, 15 for none; converters whose fused slice is partly burned. -/
  fuseOn : Sparse Nat
  slOn : Nat
  slPart : Nat
  deriving DecidableEq, Repr

/-- Nothing is penned. -/
def Pen.none : Pen := ⟨0, 0, 0, []⟩

/-- The input instances of a die that are penned. -/
def BistSt.penIn (q : BistSt) : Nat := Nat.lor q.penA.ins q.penB.ins

/-- The lamp strings of a die that are penned. -/
def BistSt.penLamp (q : BistSt) : Nat := Nat.lor q.penA.lamps q.penB.lamps

/-- The converters of a die that are penned. -/
def BistSt.penAdc (q : BistSt) : Nat := Nat.lor q.penA.adcs q.penB.adcs

/-- The sources that penned units keep silent. -/
def BistSt.mutes (q : BistSt) : List (Nat × Nat) := q.penA.mutes ++ q.penB.mutes

/-! ### The host die (02, 12, 16) -/

/-- A field download of the host die (R339). -/
structure DownSt where
  /-- Requested and not finished; the download messages have been queued. -/
  busy : Bool
  sending : Bool
  /-- Links whose HELLO after a RESTART of this download is awaited (bit 0 link A, bit 1 link B). -/
  await : Nat
  /-- The second of the two sessions has opened, and no download has begun since (R339). -/
  due : Bool
  /-- Verdicts received: bit 0 LA, bit 1 LB; reason and tally each. -/
  got : Nat
  reasonA : Nat
  reasonB : Nat
  tallyA : Nat
  tallyB : Nat
  deriving DecidableEq, Repr

/-- A host request under way (R345): operation, dies still awaited for acknowledgement and for the reply. -/
structure ReqSt where
  op : Nat
  goAt : Nat
  unacked : Nat
  unanswered : Nat
  ackAtA : Nat
  ackAtB : Nat
  deriving DecidableEq, Repr

/-- The snapshot buffers and the lease (R64-R66): `curB` names the current buffer, `newer` says that the idle one holds
a newer fold. -/
structure SnapSt where
  bufA : Sparse Byte
  bufB : Sparse Byte
  curB : Bool
  newer : Bool
  /-- The lease held: identifier and grant; the last identifier given. -/
  lease : Option (Nat × Nat)
  lastId : Nat
  /-- FOLD_DONE without a partner, per channel; a missed fold since the last publication (R324). -/
  waitA : Option FoldDone
  waitB : Option FoldDone
  missed : Bool
  /-- Publications since EN was set; the mirror slot being written (index, fold number); the next slot (R344). -/
  pubs : Nat
  slot : Option (Nat × Nat)
  nextSlot : Nat
  /-- The instant of an expiry that set EXPIRED (R66). -/
  expiredAt : Option Nat
  deriving DecidableEq, Repr

/-! ### The state -/

/-- A logic die with the power die that it controls: every register, memory, queue and hidden state that the spec gives
them. Register files, memories and per-instance tables are sparse tables over the defaults of Machine/Ops.lean. -/
structure LogicDie where
  /-- The registers of the die and of its power die's region. -/
  regs : Sparse Word
  /-- The registers as they stood when the present instant began, and the register writes of this instant: party,
  address and value, the latest first (R13, R466). -/
  before : Sparse Word
  posts : List (Party × Nat × Word)
  /-- RWF values that wait for the next between-fold interval (R11). -/
  rwf : Sparse (Option Word)
  /-- Memory of the logic-die map (R83); its pages as of the last commit (R91); the frozen companion half of the shared
  page (R90); the crosslink view (R35), at the addresses of the pages it shows. -/
  mem : Sparse Byte
  memC : Sparse Byte
  memF : Sparse Byte
  xview : Sparse Byte
  /-- The image header in force (R84), the fold task with its pipeline (R72, R117), the companion core (R104), the
  fold (R37), the collector (R297), the always-on record (R307) and the boot ROM (R334). -/
  hdr : Header
  core : FoldCore
  pipe : PipeSt
  comp : CompCore
  fold : FoldSt
  fc : FcSt
  aon : AonSt
  boot : BootSt
  /-- The event-log ring (R440): records; records in a message not yet acknowledged; DROP at the last message and at the
  last read of LOG_STAT. -/
  logRing : Sparse LogRec
  logInFlight : Nat
  logDropSent : Nat
  logDropSeen : Nat
  /-- The ends of the stile link (R316) and of the crosslink (R32). -/
  stl : LinkEnd
  xl : XlinkSt
  /-- Inputs, test-pulse sources and the input side (R169). -/
  inputs : Sparse InputSt
  sources : Sparse SourceSt
  inSide : InputSide
  /-- Capture queues of the timers (R431): numbered entries, and the next number per timer. -/
  gtCaps : Sparse (List (Nat × Word))
  gtCapNum : Sparse Nat
  /-- The recent counts of the timers (R194): the instant of each change and the count before it, the latest first. -/
  gtLog : Sparse (List (Nat × Nat))
  /-- The instant of the last tick of each timer, or at which it last took its count from the timebase (R424, R425). -/
  gtTicked : Sparse (Option Nat)
  /-- Check-value units (R433) and outputs (R201). -/
  cks : Sparse CkSt
  outs : Sparse OutSt
  /-- Outputs whose signature capture is in progress (R216), and the signature buffers by address (R217). -/
  sigBusy : List Nat
  buf : Sparse Word
  /-- Kinds of crook check whose last check failed (R221): bit 0 at the own pulse, bit 1 at the other channel's instant. -/
  crookPend : Nat
  /-- The instant of the last check that read the own crook output (R222), the instant its command last rose, and per
  kind of check the millisecond of the last one (R221). -/
  crookRead : Nat
  crookUp : Nat
  crookSeen : Sparse (Option Nat)
  /-- Lamp strings and the lamp side (R225), pattern engines (R247), the matrix (R262), converters (R270). -/
  lamps : Sparse LampSt
  lampSide : LampSide
  pes : Sparse PeSt
  mx : MxSt
  adcs : Sparse AdcSt
  /-- The instants at which trigger sources came that their converters have not taken yet (R272): 1 fold start, 2 Y, 3
  + n GTn. -/
  trigs : Sparse (Option Nat)
  /-- The instant REFEN last became 1, and the span of REFRDY before it last fell (R279). -/
  refAt : Nat
  refWas : Option (Nat × Nat)
  /-- Telegrams and flock (R352), power (R371), self-test (R449). -/
  vct : VctSt
  pw : PwrSt
  bist : BistSt
  /-- The open values of this die used so far (the model's own counter). -/
  fresh : Nat
  deriving DecidableEq, Repr

/-- The host die. -/
structure HostDie where
  /-- The registers behind BAR0, and as they stood when the present instant began (R13). -/
  regs : Sparse Word
  before : Sparse Word
  /-- Host SRAM, 32 MiB; the upper 16 MiB is the download window (R329). -/
  mem : Sparse Byte
  linkA : LinkEnd
  linkB : LinkEnd
  /-- A class-3 host fault has silenced the stile (R310). -/
  muted : Bool
  /-- Cell time as the host die has last seen it. -/
  now : Nat
  fc : FcSt
  /-- The merged log (R441), the records not yet streamed, SEQ of the die's own records. -/
  mlog : Sparse LogRec
  unstreamed : Nat
  logSeq : Nat
  /-- MSI-X vectors signalled, oldest first (R328). -/
  msix : List Nat
  snap : SnapSt
  down : DownSt
  req : ReqSt
  back : BackSt
  pw : HPwrSt
  sec : SecSt
  /-- BIST_CMD messages that lack their BIST_RES (R451). -/
  bistOut : Nat
  /-- BIST_CMD entries of the transmit ring that wait (R451), oldest first, each with its die. -/
  bistWait : List (Ch × BistCmd)
  /-- CRCERR of the quad-SPI target (R330). -/
  crcErr : Bool
  /-- The bytes that the last read by the host processor returned, and the posted writes to host memory: address and bytes,
  oldest first (the outside never takes them away here). -/
  answer : List Nat
  posted : List (Nat × List Nat)
  /-- The entry address of the running host image (R333), and the host cores HC0 to HC3 (R14). -/
  running : Option Nat
  cores : Sparse CompCore
  /-- What the host die has learnt of each link (R339; bit 0 link A): a FOLD_DONE since the die's last HELLO, and
  reason 3 in it. -/
  folds : Nat
  lastReason3 : Nat
  /-- The host half of the stile is not established (R448). -/
  xhCut : Bool
  deriving DecidableEq, Repr

/-- The device: the commands that wait, its dies, and the counter of the open values used so far (the model's own). -/
structure State where
  pending : List Instr
  la : LogicDie
  lb : LogicDie
  host : HostDie
  fresh : Nat
  deriving DecidableEq, Repr

/-- Why a command stops the machine. -/
inductive Fault where
  /-- Raised by no command: every command of this device has an effect or none, and the device goes on. Safe. -/
  | absent
  deriving DecidableEq, Repr

/-- Why the model does not take a command. -/
inductive Refusal where
  /-- The command has no meaning in this model yet. Safe. -/
  | notModelled (mnemonic : String)
  deriving DecidableEq, Repr

/-! ### Reset -/

def FoldCore.reset : FoldCore :=
  { w := [], wCommit := [], pc := 0, running := false, complete := false, rolling := false, firstCause := 0, firstCycles := 0,
    attempt := 0, cycles := 0, callDepth := 0, rets := [], loops := [], trapCause := 0#64, trapPc := 0#64,
    trapAddr := 0#64, events := 0#64, eventsAt := 0, eventsNew := 0#64, journal := [], jovf := false, ending := none, window := 0,
    stores := [], doms := [], cks := [], tels := [], logs := [], ckLost := [], slotFaults := [], masked := none, maskedAt := 0, maskedLast := none }

def PipeSt.reset : PipeSt := { ready := [], buf := [], lastStore := none, icache := [], dcache := [] }

def CompCore.reset : CompCore :=
  { w := [], pc := 0, spLo := 0#64, spHi := 0#64, irqEnable := 0#64, irqVbase := 0#64, trapVbase := 0#64,
    estatus := 0#64, epc := 0#64, ecause := 0#64, eaddr := 0#64, on := false, waiting := false, stepping := false,
    sharedAt := 0, sharedOld := [] }

def Header.none : Header :=
  { codeSplit := 0, dataSplit := 0, entry := 0, compEntry := 0, stackTop := 0, compStackTop := 0, spLo := 0, spHi := 0,
    triad := false }

def LinkEnd.reset : LinkEnd := ⟨false, false, [], [], 0, 0, none, false, false, 0, 0, 0⟩

def FoldSt.reset : FoldSt :=
  { phase := .idle, start := 0, lastStart := 0, begun := none, frame := ⟨0, 0, [], 0, [], 0⟩, sent := [], first := [], digest := 0,
    omitDigest := false, sinceMiss := 16, reacted := 0, moves := false, owed := none, short := 0, startAt := none, armTp := false, armLamp := false }

def BootSt.reset : BootSt :=
  { phase := .off, reason := 0, helloAt := 0, xlCut := false, total := 0, image := [], chunks := 0, params := [], lastMsg := 0,
    fails := [], blocks := 0, imgDigest := 0, parDigest := 0, pins := [], tally := 0, peerFiles := none, peerTally := none, peerVerdict := none,
    host := ⟨0, 0, 0, 0, []⟩, sync := none }

def FcSt.reset : FcSt := ⟨0, 0, 0, 0, none, none⟩

def VctSt.reset : VctSt :=
  { txSeq := [], last := [], got := [], early := [], held := [], changed := [], firstStart := none, causes := 0,
    beacon := none, stops := [], contribs := [], counted := [], lateRun := [], timeRun := [], number := 0, late := 0,
    lost := 0, tallyOk := 0, countedWas := [], lateWas := [], timeWas := [], lostWas := 0, fsafe := false, heldAt := (0, 0) }

def BackSt.reset : BackSt :=
  { txA := [], txB := [], seq := [], cntA := [], cntB := [], port1 := ⟨[], 0⟩, port2 := ⟨[], 0⟩, rtag := 0, egress := [], gcl0 := [], gcl1 := [], tokens := [], fdb := [], recov := [], holdAt := 0 }

def PwrSt.reset : PwrSt :=
  { down := 0, repeated := 0, woke := 0, fallow := 0, held := [], waking := false, plAt := 0, plMine := false, plTheirs := false,
    frstAt := none, frstLog := none, chkCode := 0, chkPins := 0, upAt := none, brown := false, ctlFail := false,
    saves := [], plBoth := 0, dipped := false, seqEnd := 0, pdSeen := [], frstOn := false, memSlept := false }

def BistSt.reset : BistSt :=
  { queue := [], cur := none, penAt := 0, penA := .none, penB := .none, cut := false, fuseOn := [], slOn := 0xFF, slPart := 0 }

def HPwrSt.reset : HPwrSt :=
  { down := 0, repeated := 0, fallow := 0, held := [], nrstAt := none, netFail := 0, saves := [], going := [], wakes := 0, failed := 0,
    rtcAt := 0 }

def SecSt.reset : SecSt :=
  { lcF := [], keyF := [], krevF := [], arbF := 0, ikF := 0, ikFlagF := 0, uid := 0#64, keyPart := 0, job := none,
    endAfter := false, secver := 0, asked := false, issued := 0, chal := [], chalAt := 0, chalScope := 0, chalTtl := 0, issScope := 0, issTtl := 0, chalNum := 0,
    refuse := 0, resp := none, verChal := [], verScope := 0, verTtl := 0, verNum := 0, waiting := none, lastSession := 0, sessEnd := 0, jtag := .idcode, jtagDr := 0x1964054F, jtagPins := none }

/-- A logic die that no supply has reached yet. -/
def LogicDie.reset : LogicDie :=
  { regs := [], before := [], posts := [], rwf := [], mem := [], memC := [], memF := [], xview := [], hdr := .none, core := .reset, pipe := .reset, comp := .reset,
    fold := .reset, fc := .reset, aon := ⟨[]⟩, boot := .reset, logRing := [], logInFlight := 0,
    logDropSent := 0, logDropSeen := 0, stl := .reset, xl := ⟨0, [], none, none, []⟩, inputs := [], sources := [],
    inSide := ⟨0, 0, 0, 0, []⟩, gtCaps := [], gtCapNum := [], gtLog := [], gtTicked := [], cks := [], outs := [], sigBusy := [], buf := [],
    crookPend := 0, crookRead := 0, crookUp := 0, crookSeen := [], lamps := [],
    lampSide := ⟨0, 0, [], [], 0, 0⟩, pes := [],
    mx := { cfg := 0x10050A3C3E8#64, next := none, linkOff := false, tested := none, colSeen := 0, colFail := 0, armCol := 0,
            armOcp := 0, armHi := 0, armNb := 0, drawn := none, image := [], tripTill := [] },
    adcs := [], trigs := [], refAt := 0, refWas := none,
    vct := .reset, pw := .reset, bist := .reset, fresh := 0
  }

def SnapSt.reset : SnapSt :=
  { bufA := [], bufB := [], curB := false, newer := false, lease := none, lastId := 0, waitA := none, waitB := none,
    missed := false, pubs := 0, slot := none, nextSlot := 0, expiredAt := none }

def DownSt.reset : DownSt :=
  { busy := false, sending := false, await := 0, due := false, got := 0, reasonA := 0, reasonB := 0, tallyA := 0, tallyB := 0 }

def HostDie.reset : HostDie :=
  { regs := [], before := [], mem := [], linkA := .reset, linkB := .reset, muted := false, now := 0, fc := .reset, mlog := [],
    unstreamed := 0, logSeq := 0, msix := [], snap := .reset, down := .reset, req := ⟨0, 0, 0, 0, 0, 0⟩,
    back := .reset, pw := .reset, sec := .reset, bistOut := 0, bistWait := [], crcErr := false, answer := [],
    posted := [], running := none, cores := [], folds := 0, lastReason3 := 0, xhCut := false
  }

/-- The device right after reset. -/
def State.reset : State :=
  { pending := []
    la := { LogicDie.reset with boot := { BootSt.reset with phase := .scrub } }
    lb := { LogicDie.reset with boot := { BootSt.reset with phase := .scrub } }
    host := { HostDie.reset with pw := { HPwrSt.reset with nrstAt := some 0 } }
    fresh := 0 }

end Sys2Proof.Machine
end

