-- ==== Sys2Proof/Machine/Ops.lean ====
section
/-! DEFINITION. The shared operations: register files and their fields (R7-R13), memory (R83-R89), the log (R438-R441), the
stile's transport (R316-R321), both fault collectors with their reactions (R297-R310), held effects (R127), open values. -/

namespace Sys2Proof.Machine

/-! ### Registers (R7-R13, R467) -/

/-- The number of a register family. -/
def Reg.num (r : Reg) : Nat := r.ctorIdx

/-- The register family of a number. -/
def Reg.ofNum (n : Nat) : Reg := regList.getD n .FOLD_CTRL

/-- The key of instance `i` of a register family in a register file. -/
def regKey (r : Reg) (i : Nat) : Nat := r.num + 512 * i

/-- The value that the fields of a register hold after reset. -/
def Reg.resetBase (r : Reg) : Nat :=
  r.layout.fields.foldl (fun v f => v + f.reset * 2 ^ f.lo) 0

/-- The reset value of a register instance: that of its fields, but PWR_DOM1 (TRIAD) starts OFF (R397) and CK_OWN3 is
the tally's (R435). -/
def Reg.reset (r : Reg) (i : Nat) : Word :=
  match r, i with
  | .PWR_DOM, 1 => BitVec.ofNat 64 (setBits (Reg.resetBase .PWR_DOM) 1 0 0)
  | .CK_OWN, 3 => 3#64
  | r, _ => BitVec.ofNat 64 r.resetBase

/-- What an unlisted key of a register file reads as. -/
def regDflt (k : Nat) : Word := (Reg.ofNum (k % 512)).reset (k / 512)

/-- Read a register of a register file. -/
def RegFile.rd (m : Sparse Word) (r : Reg) (i : Nat) : Word := Sparse.get regDflt m (regKey r i)

/-- Write a register of a register file, whatever its access types: what hardware does. -/
def RegFile.wr (m : Sparse Word) (r : Reg) (i : Nat) (v : Word) : Sparse Word := Sparse.put regDflt m (regKey r i) v

/-- A field of a register as a number. -/
def RegFile.g (m : Sparse Word) (f : Fld) (i : Nat) : Nat := Word.bits (RegFile.rd m f.reg i) f.hi f.lo

/-- Put a number into a field of a register, the other bits kept. -/
def RegFile.p (m : Sparse Word) (f : Fld) (i n : Nat) : Sparse Word :=
  RegFile.wr m f.reg i (Word.setBits (RegFile.rd m f.reg i) f.hi f.lo n)

/-- Read a register of a logic die (its power die's region included). -/
def LogicDie.rd (x : LogicDie) (r : Reg) (i : Nat := 0) : Word := RegFile.rd x.regs r i

/-- Hardware writes a register of a logic die. -/
def LogicDie.wr (x : LogicDie) (r : Reg) (i : Nat) (v : Word) : LogicDie := { x with regs := RegFile.wr x.regs r i v }

/-- A register field of a logic die. -/
def LogicDie.g (x : LogicDie) (f : Fld) (i : Nat := 0) : Nat := RegFile.g x.regs f i

/-- Hardware sets a register field of a logic die. -/
def LogicDie.p (x : LogicDie) (f : Fld) (n : Nat) (i : Nat := 0) : LogicDie := { x with regs := RegFile.p x.regs f i n }

/-- Add to a saturating count. -/
def LogicDie.count (x : LogicDie) (f : Fld) (n : Nat := 1) (i : Nat := 0) : LogicDie :=
  x.p f (satAdd (f.hi + 1 - f.lo) (x.g f i) n) i

/-- Bit `b` of a register field of a logic die. -/
def LogicDie.bit (x : LogicDie) (f : Fld) (b : Nat) (i : Nat := 0) : Bool := (x.g f i).testBit b

/-- Hardware sets or clears bit `b` of a register field of a logic die. -/
def LogicDie.setB (x : LogicDie) (f : Fld) (b : Nat) (v : Bool) (i : Nat := 0) : LogicDie :=
  x.p f (setBits (x.g f i) b b (b2n v)) i

/-- A one-bit field of a logic die is set. -/
def LogicDie.is (x : LogicDie) (f : Fld) (i : Nat := 0) : Bool := x.g f i == 1

/-- Read a register of the host die. -/
def HostDie.rd (h : HostDie) (r : Reg) (i : Nat := 0) : Word := RegFile.rd h.regs r i

/-- Hardware writes a register of the host die. -/
def HostDie.wr (h : HostDie) (r : Reg) (i : Nat) (v : Word) : HostDie := { h with regs := RegFile.wr h.regs r i v }

/-- A register field of the host die. -/
def HostDie.g (h : HostDie) (f : Fld) (i : Nat := 0) : Nat := RegFile.g h.regs f i

/-- Hardware sets a register field of the host die. -/
def HostDie.p (h : HostDie) (f : Fld) (n : Nat) (i : Nat := 0) : HostDie := { h with regs := RegFile.p h.regs f i n }

/-- Add to a saturating count of the host die. -/
def HostDie.count (h : HostDie) (f : Fld) (n : Nat := 1) (i : Nat := 0) : HostDie :=
  h.p f (satAdd (f.hi + 1 - f.lo) (h.g f i) n) i

/-- Bit `b` of a register field of the host die. -/
def HostDie.bit (h : HostDie) (f : Fld) (b : Nat) (i : Nat := 0) : Bool := (h.g f i).testBit b

/-- Hardware sets or clears bit `b` of a register field of the host die. -/
def HostDie.setB (h : HostDie) (f : Fld) (b : Nat) (v : Bool) (i : Nat := 0) : HostDie :=
  h.p f (setBits (h.g f i) b b (b2n v)) i

/-- A one-bit field of the host die is set. -/
def HostDie.is (h : HostDie) (f : Fld) (i : Nat := 0) : Bool := h.g f i == 1

/-! ### The two logic dies -/

/-- A logic die of the device. -/
def State.die (s : State) : Ch → LogicDie
  | .la => s.la
  | .lb => s.lb

/-- Replace a logic die. -/
def State.setDie (s : State) (d : Ch) (x : LogicDie) : State :=
  match d with
  | .la => { s with la := x }
  | .lb => { s with lb := x }

/-- Change one logic die. -/
def State.modDie (s : State) (d : Ch) (f : LogicDie → LogicDie) : State := s.setDie d (f (s.die d))

/-- Change the host die. -/
def State.modHost (s : State) (f : HostDie → HostDie) : State := { s with host := f s.host }

/-- The other logic die. -/
def other : Ch → Ch
  | .la => .lb
  | .lb => .la

/-- A fresh open value: the model's counter advances, the value is free. -/
def State.freeWord (s : State) : Word × State := (Config.freeValue (3 * s.fresh), { s with fresh := s.fresh + 1 })

/-- A fresh open value of one logic die, drawn from its own counter. -/
def LogicDie.freeWord (x : LogicDie) (d : Ch) : Word × LogicDie :=
  (Config.freeValue (3 * x.fresh + 1 + d.num), { x with fresh := x.fresh + 1 })

/-! ### Memory of a logic die (R83-R89) -/

/-- What a byte that nothing has written reads as: 0 after the scrub (R23), but safe-0 codes in the safe words of the
output image page (R89) and of its committed view. -/
def memDflt (a : Nat) : Byte := if 0x20001000 ≤ a ∧ a < 0x20001018 then 0x55#8 else 0#8

/-- One byte of a logic die's memory. -/
def LogicDie.mem8 (x : LogicDie) (a : Nat) : Byte := Sparse.get memDflt x.mem a

/-- `n` bytes of a byte table from address `a`, as a little-endian number (R8). -/
def readLE (m : Sparse Byte) (a : Nat) : Nat → Nat
  | 0 => 0
  | n + 1 => (Sparse.get memDflt m a).toNat + 256 * readLE m (a + 1) n

/-- Write the low `n` bytes of a number at address `a`, little-endian (R8). -/
def writeLE (m : Sparse Byte) (a : Nat) : Nat → Nat → Sparse Byte
  | 0, _ => m
  | n + 1, v => writeLE (Sparse.put memDflt m a (BitVec.ofNat 8 v)) (a + 1) n (v / 256)

/-- An 8-byte word of a logic die's memory. -/
def LogicDie.ld64 (x : LogicDie) (a : Nat) : Word := BitVec.ofNat 64 (readLE x.mem a 8)

/-- Write `n` bytes of a logic die's memory, without journal or check. -/
def LogicDie.poke (x : LogicDie) (a n v : Nat) : LogicDie := { x with mem := writeLE x.mem a n v }

/-- Write an 8-byte word of a logic die's memory, without journal or check. -/
def LogicDie.st64 (x : LogicDie) (a : Nat) (v : Word) : LogicDie := x.poke a 8 v.toNat

/-! ### Clock and log (R422, R438, R440) -/

/-- The safety timebase of a logic die, in ns of cell time. -/
def LogicDie.now (x : LogicDie) : Nat := x.g F.GT_TBASE_TIME

/-- The fold number that records made now carry (R58): the last committed number plus one; in the commit phase, once
the number has advanced, the number of the fold that commits. -/
def LogicDie.recFold (x : LogicDie) : Nat :=
  if x.fold.phase = .commit then x.g F.FOLD_NUMBER_NUMBER else (x.g F.FOLD_NUMBER_NUMBER + 1) % 2 ^ 64

/-- The empty log record. -/
def LogRec.zero : LogRec := ⟨0, 0, 0, 0, 0, 0⟩

/-- A record enters a logic die's ring (R438, R440): SEQ and the head advance; a record that overwrites an unsent one
counts in DROP. -/
def LogicDie.log (x : LogicDie) (d : Ch) (time fold code unit data : Nat) : LogicDie :=
  let h := x.g F.LOG_STAT_HEAD
  let n := x.g F.LOG_STAT_UNSENT
  let rec_ : LogRec := ⟨time, fold, code, (d.num + 1) + 4 * unit, data % 2 ^ 80, x.g F.LOG_STAT_SEQ⟩
  let x := { x with logRing := Sparse.put (fun _ => LogRec.zero) x.logRing h rec_ }
  let x := x.p F.LOG_STAT_HEAD ((h + 1) % 2048)
  let x := x.p F.LOG_STAT_SEQ ((x.g F.LOG_STAT_SEQ + 1) % 65536)
  if n < 2048 then x.p F.LOG_STAT_UNSENT (n + 1)
  else ({ x with logInFlight := x.logInFlight - 1 }).count F.LOG_STAT_DROP

/-! ### Names of parties, registers and addresses -/

/-- The writer field of an access error's DETAIL (R311). -/
def partyCode : Party → Nat
  | .foldTask => 0
  | .companion => 1
  | .hostReq => 2
  | .debug => 3
  | .boot => 4
  | .hostFirmware => 5
  | .hostBar => 6

/-- The offset of instance `i` in dimensions whose last index runs fastest. -/
def dimOffset : List (Nat × Nat) → Nat → Nat
  | [], _ => 0
  | (_, stride) :: ds, i =>
    let inner := ds.foldl (fun n d => n * d.1) 1
    (i / inner) * stride + dimOffset ds (i % inner)

/-- The die-local or BAR0 address of instance `i` of a register family. -/
def regAddr (r : Reg) (i : Nat) : Nat := r.layout.base + dimOffset r.layout.dims i

/-- A register of the die has been written at this instant (R13). -/
def LogicDie.softWrote (x : LogicDie) (r : Reg) (i : Nat) : Bool := x.posts.any (fun w => w.2.1 == regAddr r i)

/-- The STATE code of a power domain that is ON (R373). -/
def domOn : Nat := 2

/-! ### Safe words (R77-R79) -/

/-- The code of safe bit i of a word. -/
def safeCode (v : Word) (i : Nat) : Nat := Word.bits v (2 * i + 1) (2 * i)

/-- A valid safe code: 0b01 or 0b10. -/
def validCode (c : Nat) : Bool := c == 1 || c == 2

/-- All 32 codes of a word are valid. -/
def safeValid (v : Word) : Bool := (List.range 32).all (fun i => validCode (safeCode v i))

/-- The code of a Boolean. -/
def codeOf (b : Bool) : Nat := if b then 2 else 1

/-- Safe bit i is safe-1. -/
def safeOne (v : Word) (i : Nat) : Bool := safeCode v i == 2

/-- The safe word whose bit i is safe-1 exactly where `f i` holds. -/
def safeWord (f : Nat → Bool) : Word :=
  BitVec.ofNat 64 ((List.range 32).foldl (fun v i => v + codeOf (f i) * 4 ^ i) 0)

/-- The all-safe-0 word. -/
def safeZero : Word := 0x5555555555555555#64

/-- A word with the code of safe bit i replaced. -/
def setCode (v : Word) (i c : Nat) : Word := Word.setBits v (2 * i + 1) (2 * i) c

/-! ### Function slots (R143, R144) -/

/-- The address of word `off` of slot n (R143). -/
def slotAddr (n off : Nat) : Nat := 0x30000000 + n * 0x40 + off

/-- A word of a slot. -/
def LogicDie.slot (x : LogicDie) (n off : Nat) : Word := x.ld64 (slotAddr n off)

/-- The TYPE of a slot. -/
def LogicDie.slotType (x : LogicDie) (n : Nat) : Nat := Word.bits (x.slot n 0) 3 0

/-- A field of a slot's CFG_A. -/
def LogicDie.cfgA (x : LogicDie) (n hi lo : Nat) : Nat := Word.bits (x.slot n 0) hi lo

/-- The zone whose OUTMASK holds SOn, if one does (R144, R162). -/
def LogicDie.zoneOf (x : LogicDie) (n : Nat) : Option Nat :=
  (List.range 16).find? (fun z => x.slotType (1008 + z) == 10 && (x.slot (1008 + z) 0x10).toNat.testBit n)

/-! ### Outputs, crook input and signature buffers (R201, R217, R219) -/

/-- An output that has just been reset. -/
def OutSt.zero : OutSt :=
  { off := false, on := false, start := 0, spoiled := false, openAt := 0, openFrom := 0, closeAt := 0, offEnd := 0, heldMis := false,
    epOpen := none, epPulse := 0, epBridge := false, epLow := none, epOn := false, freed := false, readAt := 0, highAt := 0 }

/-- What the die keeps of SOn. -/
def LogicDie.out (x : LogicDie) (n : Nat) : OutSt := Sparse.get (fun _ => OutSt.zero) x.outs n

/-- Replace what the die keeps of SOn. -/
def LogicDie.setOut (x : LogicDie) (n : Nat) (q : OutSt) : LogicDie :=
  { x with outs := Sparse.put (fun _ => OutSt.zero) x.outs n q }

/-- The field of SO_CROOK that shows the own crook input of a die (R222). -/
def crookBit : Ch → Fld
  | .la => F.SO_CROOK_IN_A
  | .lb => F.SO_CROOK_IN_B

/-- The own crook input reads high. -/
def LogicDie.crookHigh (x : LogicDie) (d : Ch) : Bool := x.is (crookBit d)

/-- A word of a signature buffer, by its address. -/
def LogicDie.bufGet (x : LogicDie) (a : Nat) : Word := Sparse.get (fun _ => 0#64) x.buf a

/-- Write a word of a signature buffer. -/
def LogicDie.bufPut (x : LogicDie) (a : Nat) (v : Word) : LogicDie :=
  { x with buf := Sparse.put (fun _ => 0#64) x.buf a v }

/-- Set a bit of EVENTS (R103). -/
def LogicDie.setEvent (x : LogicDie) (b : Nat) : LogicDie :=
  let old := if x.core.eventsAt = x.now then x.core.eventsNew else 0#64
  { x with core := { x.core with
      events := Word.setBits x.core.events b b 1
      eventsAt := x.now
      eventsNew := Word.setBits old b b 1 } }

/-- The queue of converter c holds at least QTHR results (R278). -/
def LogicDie.atThreshold (x : LogicDie) (c : Nat) : Bool :=
  x.g F.ADC_CFG_QTHR c != 0 && decide (x.g F.ADC_CFG_QTHR c ≤ x.g F.ADC_QSTAT_COUNT c)

/-- The capture queue of a timer, oldest first: entry number and GT_CAP word. -/
def LogicDie.caps (x : LogicDie) (n : Nat) : List (Nat × Word) := Sparse.get (fun _ => []) x.gtCaps n

/-- An EVACK clear of EVENTS takes effect (R103): a bit that is set in the same cycle stays set, as do those that a
full queue keeps set (R278) and those of capture queues that still hold entries (DESIGN CHOICE, log 157). -/
def LogicDie.evack (x : LogicDie) (bits : Word) : LogicDie :=
  let kept := if x.core.eventsAt = x.now then x.core.eventsNew else 0#64
  let kept := [0, 1].foldl (fun k c => if x.atThreshold c then Word.setBits k (36 + c) (36 + c) 1 else k) kept
  let kept := (List.range 16).foldl (fun k n => if x.caps n = [] then k else Word.setBits k (16 + n) (16 + n) 1) kept
  { x with core := { x.core with events := x.core.events &&& ~~~(bits &&& ~~~kept) } }

/-- A trigger source of the converters comes at t (R272): 1 fold start, 2 Y, 3 + n GTn. -/
def LogicDie.trigFrom (x : LogicDie) (key t : Nat) : LogicDie :=
  { x with trigs := Sparse.put (fun _ => none) x.trigs key (some t) }

/-- The instant at which a trigger source came that has not been taken. -/
def LogicDie.trigAt (x : LogicDie) (key : Nat) : Option Nat := Sparse.get (fun _ => none) x.trigs key

/-- The converters take a trigger. -/
def LogicDie.trigTaken (x : LogicDie) (key : Nat) : LogicDie :=
  { x with trigs := Sparse.put (fun _ => none) x.trigs key none }

/-! ### The stile's transport (R316-R321) -/

/-- The priority of a message (R321, R322), doubled; telegrams that go before the others of priority 2 (R355) come at 4. -/
def StileMsg.prio : StileMsg → Nat
  | .faultNote _ => 1
  | .foldDone _ | .vctRx _ _ _ => 3
  | .vctTx _ _ _ _ ahead => if ahead then 4 else 5
  | .hostReq _ _ _ _ | .hostRep _ _ _ _ _ | .timeSync _ _ => 5
  | .hello _ | .imageVerdict _ _ _ _ | .paramAck _ _ _ | .powerReq _ _ _ _ | .debugReq _ _ _ | .debugRsp _ _ _
  | .bistCmd _ _ _ | .bistRes _ _ _ _ _ _ | .outside _ _ => 7
  | .imageBegin _ | .imageChunk _ _ _ | .imageEnd _ _ | .paramWrite _ _ _ | .logRecord _ _ => 9

/-- The message that starts next: the first of the lowest priority number (R321), and the rest of the queue. -/
def popMin : List StileMsg → Option (StileMsg × List StileMsg)
  | [] => none
  | m :: ms =>
    match popMin ms with
    | none => some (m, [])
    | some (n, rest) => if n.prio < m.prio then some (n, m :: rest) else some (m, ms)

/-- `n` rounded up to a multiple of `k`. -/
def roundUp (k n : Nat) : Nat := (n + k - 1) / k * k

/-- LEN of a message (R322, R325-R327). -/
def StileMsg.len : StileMsg → Nat
  | .hello _ => 256
  | .imageBegin _ | .imageEnd _ _ | .paramAck _ _ _ | .powerReq _ _ _ _ | .timeSync _ _ => 16
  | .imageChunk _ data _ | .paramWrite _ data _ => 8 + data.length
  | .imageVerdict _ _ _ _ => 72
  | .foldDone f => 8 * f.words.length
  | .hostReq _ _ _ _ | .hostRep _ _ _ _ _ => 24
  | .vctTx _ _ _ data _ => 16 + roundUp 8 data.length
  | .vctRx _ _ frame => 16 + roundUp 4 frame.length
  | .logRecord recs _ => 8 + 32 * recs.length
  | .faultNote _ | .bistCmd _ _ _ => 32
  | .debugReq _ _ data | .debugRsp _ _ data => 8 + roundUp 4 data.length
  | .bistRes _ _ _ _ _ _ => 64
  | .outside _ bs => bs.length - 12

/-- How long a message occupies its direction, in ns (R322). -/
def StileMsg.span (m : StileMsg) : Nat := (16 + m.len) * 4

/-- A link end without a session. -/
def LinkEnd.zero : LinkEnd := ⟨false, false, [], [], 0, 0, none, false, false, 0, 0, 0⟩

/-- A message starts at `b`: it takes the next number (R317) and occupies the direction (R321, R322); TIME_SYNC
carries the instant at which its first byte leaves (R326). -/
def LinkEnd.put (e : LinkEnd) (m : StileMsg) (b : Nat) : LinkEnd :=
  let m := match m with
    | .timeSync _ v => .timeSync b v
    | m => m
  { e with unacked := e.unacked ++ [⟨e.next, m, false, false, b + m.span⟩], next := (e.next + 1) % 2 ^ 32, busy := b + m.span }

/-- The next queued message starts, where a session is open, fewer than 8 are unacknowledged and the direction is free
by `t`; not before `f` (R318, R321). -/
def LinkEnd.begin (e : LinkEnd) (f t : Nat) : Option LinkEnd :=
  if e.opened ∧ e.heard ∧ ¬ e.down ∧ e.unacked.length < 8 ∧ max e.busy f ≤ t then
    (popMin e.queue).map (fun q => ({ e with queue := q.2 }).put q.1 (max e.busy f))
  else none

/-- The queued messages that start from `f` to `t` (R318, R321), and their count. -/
def LinkEnd.pump (f t : Nat) : Nat → LinkEnd → LinkEnd × Nat
  | 0, e => (e, 0)
  | n + 1, e =>
    match e.begin f t with
    | none => (e, 0)
    | some e =>
      let r := LinkEnd.pump f t n e
      (r.1, r.2 + 1)

/-- A new session opens with HELLO, number 0 (R317, R320); what the old session left unacknowledged is given up. -/
def LinkEnd.openSession (e : LinkEnd) (h : Hello) (t : Nat) : LinkEnd :=
  let gone := max e.busy t + (StileMsg.hello h).span
  { e with
    opened := true, down := false, missed := false, unacked := [⟨0, .hello h, false, false, gone⟩], next := 1, busy := gone
    cw := none, cwAt := t }

/-- A lasting link fault ends the session (R320): no control words for 10 µs, no messages until they arrive again. -/
def LinkEnd.fail (e : LinkEnd) (t : Nat) : LinkEnd :=
  { e with opened := false, heard := false, down := true, missed := false, unacked := [], cw := none, quiet := t + 10000 }

/-- The messages that the link of a logic die starts up to `t`; SENT counts them (R345). -/
def LogicDie.pumpTo (x : LogicDie) (t : Nat) : LogicDie :=
  let r := x.stl.pump x.now t 8
  ({ x with stl := r.1 }).count F.STL_CNT_SENT r.2

/-- Start what the link of a logic die can start now. -/
def LogicDie.pump (x : LogicDie) : LogicDie := x.pumpTo x.now

/-- A link end of the host die. -/
def HostDie.link (h : HostDie) : Ch → LinkEnd
  | .la => h.linkA
  | .lb => h.linkB

/-- Replace a link end of the host die. -/
def HostDie.setLink (h : HostDie) (l : Ch) (e : LinkEnd) : HostDie :=
  match l with
  | .la => { h with linkA := e }
  | .lb => { h with linkB := e }

/-- The messages that a link of the host die starts up to `t`. -/
def HostDie.pumpTo (h : HostDie) (l : Ch) (t : Nat) : HostDie :=
  let r := (h.link l).pump h.now t 8
  (h.setLink l r.1).count F.HSTL_CNT_SENT r.2

/-- Start what a link of the host die can start now. -/
def HostDie.pump (h : HostDie) (l : Ch) : HostDie := h.pumpTo l h.now

/-- A message joins the queue of a link of the host die. -/
def HostDie.send (h : HostDie) (l : Ch) (m : StileMsg) : HostDie :=
  (h.setLink l { h.link l with queue := (h.link l).queue ++ [m] }).pump l

/-! ### Messages -/

/-- A message joins the queue of a logic die's stile link (R317). -/
def LogicDie.send (x : LogicDie) (m : StileMsg) : LogicDie :=
  ({ x with stl := { x.stl with queue := x.stl.queue ++ [m] } }).pump

/-! ### The crosslink (R32-R35) -/

/-- The slot of a frame: 0 exchange, 1 output agreement, 2 background. -/
def XItem.slot : XItem → Nat
  | .exchange _ => 0
  | .agreement _ => 1
  | _ => 2

/-- The payload of a FAULT_NOTE (R325). -/
def FaultNote.bytes (n : FaultNote) : List Nat :=
  bytesLE 8 n.time ++ bytesLE 8 n.fold ++ bytesLE 2 n.first ++ bytesLE 2 n.csrc ++ [n.cls % 4] ++
    [b2n n.devsafe + 2 * b2n n.wire + 4 * b2n n.forced] ++ bytesLE 2 (min n.merged 65535) ++ bytesLE 8 (n.detail % 2 ^ 48)

/-- The payload of a note: a fault note as R325 lays it out; of the others the spec gives no layout (DESIGN CHOICE,
log 162). -/
def XNote.bytes : XNote → List Nat
  | .fault n => 0 :: FaultNote.bytes n
  | .resume n s => 1 :: bytesLE 8 n ++ bytesLE 8 s
  | .wake => [2]
  | .level pl => [3, pl % 4]
  | .hold => [4]
  | .accepted c a s => 5 :: bytesLE 1 c ++ bytesLE 2 a ++ bytesLE 4 s

/-- The payload of an item, of all its frames (R35, R49, R53, R335; layouts that the spec does not give: DESIGN
CHOICE, log 162). -/
def XItem.bytes : XItem → List Nat
  | .exchange p => p
  | .agreement p => p
  | .note n => n.bytes
  | .view ws => ws.flatMap (fun w => bytesLE 8 w.toNat)
  | .files f => bytesLE 48 f.image ++ bytesLE 48 f.params ++ f.pins.flatMap (bytesLE 8) ++ f.twins.flatMap (bytesLE 8)
  | .tally v => bytesLE 8 v
  | .verdict pass => [b2n pass]

/-- The header of a crosslink frame (R32): 8 bytes, of which four hold the sequence number. -/
def xHeader (seq slot : Nat) : List Nat :=
  let o := Config.crosslinkSeqAt % 5
  (List.range 8).map (fun i =>
    if o ≤ i ∧ i < o + 4 then seq / 256 ^ (i - o) % 256 else Config.crosslinkHeader i seq slot % 256)

/-- The bytes of a frame on the wire (R32): a header of 8 bytes that holds the sequence number, up to 64 bytes of
payload, and the CRC-32C over both, which is the check of the stile's frames. -/
def XSent.bytes (q : XSent) : List Nat :=
  let body := xHeader q.seq q.item.slot ++ (q.item.bytes.drop (64 * q.part)).take 64
  body ++ bytesLE 4 (crc32c body)

/-- The frames that an item takes: a payload has at most 64 bytes (R32). -/
def XItem.frames (i : XItem) : Nat := max 1 ((i.bytes.length + 63) / 64)

/-- A FAULT_NOTE with DEVSAFE set, which is not background traffic (R33). -/
def XItem.devsafe : XItem → Bool
  | .note (.fault n) => n.devsafe
  | _ => false

/-- The frames of an item wait for their turn on the crosslink (R33). A device-safe note goes before every other
frame: the one in transmission is aborted and sent again from its start, which counts neither as its attempt nor as
its resend. -/
def LogicDie.xsend (x : LogicDie) (i : XItem) : LogicDie :=
  let qs := (List.range i.frames).map (fun k => (⟨x.xl.seq + k, i, k, false⟩ : XSent))
  { x with xl := { x.xl with
      seq := x.xl.seq + i.frames
      tx := if i.devsafe then qs ++ x.xl.tx else x.xl.tx ++ qs } }

/-- A note joins the crosslink's background traffic to the other logic die (R33). -/
def LogicDie.note (x : LogicDie) (n : XNote) : LogicDie := x.xsend (.note n)

/-- The oldest frame of a slot that waits for its acknowledgement. -/
def LogicDie.xhead (x : LogicDie) (slot : Nat) : Option XSent := x.xl.tx.find? (fun q => q.item.slot == slot)

/-- The oldest frame of a slot may be in transmission (R33): no device-safe note waits before it, and a background
frame goes only while the running fold has no frame of its own to send. -/
def LogicDie.xclear (x : LogicDie) (q : XSent) : Bool :=
  q.item.devsafe ||
    (!x.xl.tx.any (fun p => p.item.devsafe) &&
      (q.item.slot != 2 ||
        !((x.fold.phase == .exchange && x.xl.tx.any (fun p => p.item.slot == 0)) ||
          ((x.fold.phase == .agree || x.fold.phase == .agreed) && x.xl.tx.any (fun p => p.item.slot == 1)))))

/-- A frame is missed twice (R34): the frames of its item leave the crosslink. -/
def LogicDie.xlose (x : LogicDie) (slot : Nat) : LogicDie :=
  match x.xhead slot with
  | none => x
  | some q => { x with xl := { x.xl with
      tx := x.xl.tx.filter (fun p => p.item.slot != slot || p.seq - p.part != q.seq - q.part) } }

/-- A frame leaves the crosslink: it is acknowledged. -/
def LogicDie.xdrop (x : LogicDie) (slot : Nat) : LogicDie :=
  { x with xl := { x.xl with tx := x.xl.tx.eraseP (fun q => q.item.slot == slot) } }

/-- The addresses of the words that the crosslink view shows (R35, R87, R88): the other words of both image pages read 0. -/
def viewAddrs : List Nat :=
  (List.range 16).map (fun i => 0x20000000 + 8 * i) ++ (List.range 4).map (fun i => 0x20001000 + 8 * i)

/-- A die has received all frames of an item over the crosslink (R35, R49, R53): a note waits for the command that
acts on it. -/
def LogicDie.xreceive (x : LogicDie) : XItem → LogicDie
  | .exchange p => { x with xl := { x.xl with rxExchange := some p } }
  | .agreement p => { x with xl := { x.xl with rxAgreement := some p } }
  | .note n => { x with xl := { x.xl with inbox := x.xl.inbox ++ [n] } }
  | .view ws => { x with
      xview := (viewAddrs.zip ws).foldl (fun (m : Sparse Byte) (e : Nat × Word) => writeLE m e.1 8 e.2.toNat) x.xview }.setEvent 38
  | .files f => { x with boot := { x.boot with peerFiles := some f } }
  | .tally v => { x with boot := { x.boot with peerTally := some v } }
  | .verdict pass => { x with boot := { x.boot with peerVerdict := some pass } }

/-! ### Core levels and the end of a fold (R11, R39, R41, R386, R387) -/

/-- The core clock in cycles per 20 ns (R386). -/
def coreClock (pl : Nat) : Nat := match pl with | 0 => 5 | 1 => 10 | 2 => 16 | _ => 20

/-- The minimum fold period in µs (R39). -/
def minPeriod (pl : Nat) (triad : Bool) : Nat :=
  if triad then (match pl with | 0 => 20 | 1 => 10 | _ => 8)
  else (match pl with | 0 => 16 | 1 => 8 | 2 => 5 | _ => 4)

/-- The admission condition for a level (R41). -/
def LogicDie.admits (x : LogicDie) (pl : Nat) : Bool :=
  let period := x.g F.FOLD_PERIOD_PERIOD * 1000
  let needed := 20 + 2 * x.g F.FOLD_BUDGET_BUDGET + (x.g F.FOLD_BUDGET_JLIMIT + 20)
  decide (x.g F.FOLD_BUDGET_BUDGET ≠ 0) && decide (1250 ≤ period) && decide (needed * 20 ≤ coreClock pl * (period - 1250)) &&
    decide (minPeriod pl x.hdr.triad * 1000 ≤ period)

/-- A core level request is released (R387): admitted or refused, and in either case a change that has not switched
yet is replaced; an admitted change tells the other die when the voltage allows the new clock. Before folds run it is
in force at once. -/
def LogicDie.plRequest (x : LogicDie) (pl : Nat) : LogicDie :=
  let x := x.p F.PWR_PL_REQ pl
  if ¬ x.is F.FOLD_CTRL_LOCK then (x.p F.PWR_PL_CUR pl).p F.FOLD_STATUS_PL pl
  else if ¬ x.admits pl then
    { (x.p F.PWR_PL_REFUSED 1).p F.PWR_PL_PEND 0 with pw := { x.pw with plMine := false, plTheirs := false } }
  else if pl = x.g F.PWR_PL_CUR then
    { x.p F.PWR_PL_PEND 0 with pw := { x.pw with plMine := false, plTheirs := false } }
  else
    ({ x.p F.PWR_PL_PEND 1 with pw := { x.pw with plAt := x.now, plMine := true, plTheirs := false } }).note (.level pl)

/-- The RWF pending stage of PWR_PL.REQ (R11, R387): a request within a fold waits for the next between-fold interval. -/
def LogicDie.levelWrite (x : LogicDie) (v : Word) : LogicDie :=
  if x.fold.phase = .idle then x.plRequest (Word.bits v 1 0)
  else { x with rwf := Sparse.put (fun _ => none) x.rwf (regKey .PWR_PL 0) (some v) }

/-- The pending value of PWR_PL at the between-fold interval (R11, R387). -/
def LogicDie.applyRwf (x : LogicDie) : LogicDie :=
  match Sparse.get (fun _ => none) x.rwf (regKey .PWR_PL 0) with
  | some v => ({ x with rwf := Sparse.put (fun _ => none) x.rwf (regKey .PWR_PL 0) none }).plRequest (Word.bits v 1 0)
  | none => x

/-- No fold is under way any more: the attempt is over, and the interval between folds begins (R11). -/
def LogicDie.foldStops (x : LogicDie) : LogicDie :=
  { x with
    core := { x.core with running := false, complete := false, rolling := false }
    fold := { x.fold with phase := .idle } }.applyRwf

/-- The end of C of the running fold (R37): 50 ns before the next fold start. -/
def LogicDie.cEnd (x : LogicDie) : Nat := x.fold.start + x.g F.FOLD_PERIOD_PERIOD * 1000 - 50

/-- The own switch of SOn opens outside close(n) (R24, R26): a pulse under way is spoiled (R213). -/
def LogicDie.openSwitch (x : LogicDie) (n : Nat) : LogicDie :=
  let q := x.out n
  let q := if x.bit F.SO_CMD_CLOSED n then { q with openAt := x.now, openFrom := x.now, epLow := none } else q
  let x := x.setOut n { q with spoiled := q.spoiled || q.off || q.on }
  let x := x.setB F.SO_CMD_CLOSED n false
  (x.p F.SO_SW_CMD 0 n).p F.SO_SW_CLOSED 0 n

/-- The test-pulse sources turn off (R182). -/
def LogicDie.sourcesOff (x : LogicDie) : LogicDie :=
  (List.range 8).foldl (fun x j => (x.p F.TP_STAT_CMD 0 j).p F.TP_DRV_CMD 0 j) (x.p F.TP_CTRL_ACTIVE 0)

/-- The hardware stop path of the power die (R392, R396): every switch opens, the crook output falls, stages,
test-pulse sources and matrix go dark. -/
def LogicDie.pathStop (x : LogicDie) : LogicDie :=
  let x := (List.range 32).foldl (fun x n => x.openSwitch n) x
  let x := ((x.wr .SO_CMD 0 0#64).p F.SO_CROOK_OUT_CMD 0).p F.SO_CROOKPD_OUT 0
  (List.range 24).foldl (fun x n => x.wr .LMP_STG n 0#64) x.sourcesOff

/-- The logic die is held in reset by FRST (R396): no fold is under way, no core runs, and the stop path shows as active. -/
def LogicDie.frstHolds (x : LogicDie) : LogicDie :=
  let x := (x.p F.PWR_PDSTAT_FRST 1).p F.PWR_PDSTAT_STOP 1
  let x := (x.p F.MX_CTRL_BLANKED 1).p F.MX_DRVSTAT_BLANKED 1
  let x := (x.p F.FOLD_STATUS_RUNNING 0).foldStops
  { x with
    boot := { x.boot with phase := .off }
    pw := { x.pw with frstOn := true }
    comp := { x.comp with on := false } }

/-- FRST acts (R396): the power die stops its outputs and lamps and holds its logic die in reset. -/
def LogicDie.frstAct (x : LogicDie) : LogicDie := x.pathStop.frstHolds

/-- How long FRST is high before it acts, between 1.0 and 1.5 µs (R395, log 177). -/
def frstDelay : Nat := 1000 + Config.frstFilter % 501

/-- The instant at or before `t` at which a FRST that is held and has not acted yet acts. -/
def LogicDie.frstDue (x : LogicDie) (t : Nat) : Option Nat :=
  match x.pw.frstAt with
  | some a => if x.pw.frstOn ∨ t < a + frstDelay then none else some (a + frstDelay)
  | none => none

/-- The timebase shows `t`; messages that waited for the link have started where it became free on the way (R321). -/
def LogicDie.setNow (x : LogicDie) (t : Nat) : LogicDie :=
  let x := x.pumpTo t
  { x.p F.GT_TBASE_TIME t with before := x.regs, posts := [] }

/-- The die reaches the instant `t` of cell time; its timebase never steps back. Where C ends on the way, the interval
between folds begins there (R37); a FRST that has been held for long enough acts on the way (R395). -/
def LogicDie.at (x : LogicDie) (t : Nat) : LogicDie :=
  if t ≤ x.now then x
  else if (x.frstDue t).isSome then
    ((x.setNow (max x.now ((x.frstDue t).getD t))).frstAct).setNow t
  else if (x.fold.phase = .commit ∨ x.fold.phase = .missed) ∧ x.cEnd ≤ t then
    ((x.setNow (max x.now x.cEnd)).foldStops).setNow t
  else x.setNow t

/-! ### Fault collector of a logic die (R297-R309) -/

/-- The default class of a logic-die source (R311). Sources whose default depends on the event supply it themselves. -/
def defaultClass (src : Nat) : Nat :=
  if src = 33 ∨ src = 34 ∨ src = 35 ∨ src = 36 ∨ src = 49 ∨ src = 51 ∨ src = 57 ∨ src = 58 ∨ src = 320 then 3
  else if src = 1 ∨ src = 2 ∨ src = 4 ∨ src = 6 ∨ src = 8 ∨ src = 37 ∨ src = 38 ∨ src = 39 ∨ src = 40 ∨ src = 53 ∨
      src = 54 ∨ src = 55 ∨ (17 ≤ src ∧ src < 32 ∧ src % 2 = 1) ∨ (160 ≤ src ∧ src < 172) then 2
  else if src = 0 ∨ src = 3 ∨ src = 5 ∨ src = 7 ∨ src = 32 ∨ src = 41 ∨ src = 48 ∨ src = 50 ∨ src = 52 ∨
      (16 ≤ src ∧ src < 32 ∧ src % 2 = 0) ∨ src = 436 ∨ src = 438 then 1
  else 0

/-- The class that the parameter blocks set for a source (FC_CLASSk, R299). -/
def LogicDie.paramClass (x : LogicDie) (src : Nat) : Nat :=
  bitsOf (x.g F.FC_CLASS_CLASS (src / 32)) (2 * (src % 32) + 1) (2 * (src % 32))

/-- The effective class of an event (R298, R299): the larger of the parameter class and the default; a WIRE event keeps
it if it is 2 or 3 and is class 0 otherwise. -/
def LogicDie.evClass (x : LogicDie) (e : FcEvent) : Nat :=
  let c := max (x.paramClass e.src) (e.dyn.getD (defaultClass e.src))
  if e.wire then (if c ≥ 2 then c else 0) else c

/-- The fold-task attempt ends without a commit: its held effects are discarded (R127). -/
def FoldCore.discard (c : FoldCore) : FoldCore :=
  { c with stores := [], doms := [], cks := [], tels := [], logs := [], ckLost := [], slotFaults := [] }

/-- Write the journal back in reverse order of recording; the newest entry stands first (R42, R291). -/
def unwind (m : Sparse Byte) : List JEntry → Sparse Byte
  | [] => m
  | e :: es => unwind (writeLE m e.addr 8 e.old.toNat) es

/-- Roll the attempt's stores back, restore the registers of the last commit and invalidate the data caches (R42, R75,
R109). -/
def LogicDie.rollback (x : LogicDie) : LogicDie :=
  { x with
    mem := unwind x.mem x.core.journal
    core := { x.core.discard with
      journal := [], jovf := false, ending := none, w := x.core.wCommit, loops := [], rets := [], callDepth := 0 }
    pipe := { x.pipe with ready := [], buf := [], dcache := [] } }

/-- The channel goes safe (R24, R60, R299): every own output command is cleared and every own switch opened, the own
crook output is driven low, folds stop; a running attempt is rolled back unless the journal overflowed (R110). A test
that runs ends early (R455). -/
def LogicDie.goSafe (x : LogicDie) : LogicDie :=
  let x := (List.range 32).foldl (fun x n => x.openSwitch n) x
  let x := x.wr .SO_CMD 0 0#64
  let x := (x.p F.SO_CROOK_OUT_CMD 0).p F.SO_CROOKPD_OUT 0
  let x := x.sourcesOff
  let x := { x with bist := { x.bist with cut := true } }
  let x := x.p F.FC_CTRL_SAFE 1
  let x := x.p F.FOLD_STATUS_SAFE 1
  let x := x.p F.FOLD_STATUS_RUNNING 0
  let x := x.p F.FOLD_CTRL_RUN 0
  let jovf := x.core.jovf
  let x := x.rollback
  (if jovf then x.p F.FC_CTRL_NORESUME 1 else x).foldStops

/-- The class-2 or class-3 reaction (R299): a channel that is not safe goes safe, and a resume proposal of an earlier
record no longer stands: the record that reacts must close first (R306). -/
def LogicDie.react (x : LogicDie) (cls : Nat) : LogicDie :=
  if cls ≥ 2 then
    let x := if x.is F.FC_CTRL_SAFE then x else x.goSafe
    { x.p F.FC_CTRL_READY 0 with fc := { x.fc with mine := none } }
  else x

/-- The fault note that the record as it stands gives (R303, R325). -/
def LogicDie.recordNote (x : LogicDie) : FaultNote :=
  { time := x.g F.FC_RECT_VALUE, fold := x.g F.FC_RECN_VALUE, first := x.g F.FC_RECA_SRC, csrc := x.g F.FC_RECB_SRC,
    cls := x.g F.FC_RECS_CLASS, devsafe := x.g F.FC_RECS_CLASS == 3, wire := x.is F.FC_RECS_WIRE,
    forced := x.is F.FC_RECS_FORCED, merged := x.g F.FC_RECS_MERGED, detail := x.g F.FC_RECB_DETAIL }

/-- Send the record's fault note over the crosslink and across the stile (R303). -/
def LogicDie.sendRecordNote (x : LogicDie) : LogicDie :=
  let n := x.recordNote
  (x.note (.fault n)).send (.faultNote n)

/-- The 80 data bits of the log record of a closing fault record (R303). -/
def LogicDie.recordData (x : LogicDie) : Nat :=
  x.g F.FC_RECA_SRC + x.g F.FC_RECB_SRC * 2 ^ 9 + x.g F.FC_RECS_CLASS * 2 ^ 18 + x.g F.FC_RECS_MERGED * 2 ^ 20 +
    x.g F.FC_RECS_WIRE * 2 ^ 36 + x.g F.FC_RECS_FORCED * 2 ^ 37 + (x.g F.FC_RECB_DETAIL % 2 ^ 42) * 2 ^ 38

/-- The collector enters LOCKED (R307): the class-2 reaction if the channel is not safe, LOCKED and NORESUME. -/
def LogicDie.lockCollector (x : LogicDie) : LogicDie :=
  let x := x.react 2
  (x.p F.FC_CTRL_LOCKED 1).p F.FC_CTRL_NORESUME 1

/-- A counted close (R307, R308): COUNT advances with its wrap, RECLAST takes the time, the close is kept with the last
16, and the collector locks if more than LIMIT such closes fall within the last WINDOW seconds. -/
def LogicDie.countClose (x : LogicDie) : LogicDie :=
  let n := x.g F.FC_RECCNT_COUNT
  let x := x.p F.FC_RECCNT_COUNT ((n + 1) % 2 ^ 32)
  let x := if n + 1 = 2 ^ 32 then x.p F.FC_RECCNT_WRAP 1 else x
  let x := x.p F.FC_RECLAST_TIME x.now
  let closes := (x.now :: x.aon.closes).take 16
  let x := { x with aon := ⟨closes⟩ }
  let recent := closes.filter (fun t => x.now - t ≤ x.g F.FC_RECCFG_WINDOW * 1000000000)
  if recent.length > x.g F.FC_RECCFG_LIMIT then x.lockCollector else x

/-- The record closes (R303, R305, R307): it writes its log record and, where it counts, the recovery count. -/
def LogicDie.closeRecord (x : LogicDie) (d : Ch) : LogicDie :=
  let x := x.p F.FC_RECS_OPEN 0
  let x := x.p F.FC_CTRL_OPEN 0
  let x := x.log d (x.g F.FC_RECT_VALUE) (x.g F.FC_RECN_VALUE) 0x0100 1 x.recordData
  if x.g F.FC_RECS_CLASS ≥ x.g F.FC_RECCFG_MINCLASS ∧ ¬ x.is F.FC_RECS_FORCED then x.countClose else x

/-- A FC_RECA or FC_RECB value (R313). -/
def recWord (e : FcEvent) : Word :=
  BitVec.ofNat 64 (e.src % 512 + b2n e.wire * 2 ^ 9 + b2n e.forced * 2 ^ 10 + (e.detail % 2 ^ 48) * 2 ^ 16)

/-- The lowest-numbered event among those satisfying `p`. -/
def lowest (p : FcEvent → Bool) : List FcEvent → Option FcEvent
  | [] => none
  | e :: es =>
    match lowest p es with
    | none => if p e then some e else none
    | some f => if p e && decide (e.src ≤ f.src) then some e else some f

/-- The events of one sample set their FC_SEEN bits (R302). -/
def LogicDie.seen (x : LogicDie) (es : List FcEvent) : LogicDie :=
  es.foldl (fun x e => x.setB F.FC_SEEN_BITS (e.src % 64) true (e.src / 64)) x

/-- The source is a finding of a penned unit (R452). -/
def LogicDie.muted (x : LogicDie) (src : Nat) : Bool :=
  x.bist.mutes.any (fun r => decide (r.1 ≤ src) && decide (src ≤ r.2))

/-- Sources that the power-down sequence keeps from being raised wait for its end (R392). -/
def LogicDie.suppress (x : LogicDie) (es : List FcEvent) : LogicDie :=
  { x with pw := { x.pw with pdSeen := x.pw.pdSeen ++ es.map (fun e => e.src) } }

/-- The events confirmed in one sample reach the collector (R301, R302, R303): they open the record or merge into it,
their class reaction is taken, and a note goes out where a record of class 1 or above opens or its class rises. A lasting
stile link fault, source 51, sets NORESUME (R306, R311). While
the power-down sequence runs, a logic die raises no source (R392). -/
def LogicDie.collect (x : LogicDie) (d : Ch) (all : List FcEvent) : LogicDie :=
  let heard := all.filter (fun e => !x.muted e.src)
  let es := if x.is F.PWR_STAT_PDSEQ then [] else heard
  let x := if x.is F.PWR_STAT_PDSEQ then x.suppress heard else x
  match es with
  | [] => x
  | e0 :: _ =>
    let x := x.seen es
    let x := if es.any (fun e => e.src == 51) then x.p F.FC_CTRL_NORESUME 1 else x
    let cls := maxOr0 (es.map x.evClass)
    let top := (lowest (fun e => x.evClass e == cls) es).getD e0
    let x := { x with fc := { x.fc with lastEvent := x.now } }
    if x.is F.FC_CTRL_OPEN then
      let old := x.g F.FC_RECS_CLASS
      let x := x.p F.FC_RECS_MERGED (satAdd 16 (x.g F.FC_RECS_MERGED) es.length)
      let x := if es.any (·.wire) then x.p F.FC_RECS_WIRE 1 else x
      let x := if es.all (·.forced) then x else x.p F.FC_RECS_FORCED 0
      if cls > old then
        let x := x.p F.FC_RECS_CLASS cls
        let x := x.wr .FC_RECB 0 (recWord top)
        (x.sendRecordNote).react cls
      else x
    else
      let first := (lowest (fun _ => true) es).getD e0
      let x := x.wr .FC_RECS 0 0#64
      let x := x.p F.FC_RECS_OPEN 1
      let x := x.p F.FC_CTRL_OPEN 1
      let x := x.p F.FC_RECS_CLASS cls
      let x := x.p F.FC_RECS_FORCED (b2n (es.all (·.forced)))
      let x := x.p F.FC_RECS_WIRE (b2n (es.any (·.wire)))
      let x := x.p F.FC_RECS_MERGED (satAdd 16 0 (es.length - 1))
      let x := x.wr .FC_RECA 0 (recWord first)
      let x := x.wr .FC_RECB 0 (recWord top)
      let x := x.p F.FC_RECT_VALUE x.now
      let x := x.p F.FC_RECN_VALUE x.recFold
      if cls = 0 then x.closeRecord d else (x.sendRecordNote).react cls

/-- A force or wire-force bit drives the pair of a source (R304): no cause of its own changes what the pair shows. -/
def LogicDie.driven (x : LogicDie) (src : Nat) : Bool :=
  x.bit F.FC_FORCE_BITS (src % 64) (src / 64) || x.bit F.FC_FORCEW_BITS (src % 64) (src / 64)

/-- Sources of one sample whose pairs no force bit drives are asserted (R297, R302, R304). -/
def LogicDie.raiseAll (x : LogicDie) (d : Ch) (all : List FcEvent) : LogicDie :=
  x.collect d (all.filter (fun e => !x.driven e.src))

/-- A source of a logic die is asserted (R297): one event with its table's default class. -/
def LogicDie.raise (x : LogicDie) (d : Ch) (src detail : Nat) : LogicDie :=
  x.raiseAll d [⟨src, detail, none, false, false⟩]

/-- A source whose default class the hardware supplies with the event (R299). -/
def LogicDie.raiseDyn (x : LogicDie) (d : Ch) (src detail cls : Nat) : LogicDie :=
  x.raiseAll d [⟨src, detail, some cls, false, false⟩]

/-- An access error of a logic die (R10): source 9 with the address and the writer. -/
def LogicDie.accessError (x : LogicDie) (d : Ch) (w : Party) (addr : Nat) : LogicDie :=
  x.raise d 9 (addr % 2 ^ 32 + partyCode w * 2 ^ 32)

/-! ### The host die's log and collector (R310, R312, R314, R441) -/

/-- A record enters the merged log (R441): at a full log the oldest is overwritten, and MLOST counts it if it had not
been streamed. -/
def HostDie.merge (h : HostDie) (r : LogRec) : HostDie :=
  let w := h.g F.LOG_HSTAT_WRITE
  let h := { h with mlog := Sparse.put (fun _ => LogRec.zero) h.mlog w r }
  let h := h.p F.LOG_HSTAT_WRITE ((w + 1) % 32768)
  if h.unstreamed < 32768 then { h with unstreamed := h.unstreamed + 1 } else h.count F.LOG_HSTAT_MLOST

/-- A record of the host die itself (R438, R441): cell time as the host die holds it, the last published fold number. -/
def HostDie.log (h : HostDie) (code unit data : Nat) : HostDie :=
  let r : LogRec := ⟨h.now, h.g F.FOLD_SNAP_LAST_NUMBER, code, 4 * unit, data % 2 ^ 80, h.logSeq⟩
  ({ h with logSeq := (h.logSeq + 1) % 65536 }).merge r

/-- The default class of a host-die source (R312). -/
def hostClass (src : Nat) : Nat :=
  if src < 4 then 2
  else if src = 9 then 2
  else if src = 8 ∨ src = 16 ∨ src = 18 ∨ src = 34 then 1
  else if src = 48 ∨ src = 49 then 3
  else 0

/-- A host-die source that may be asserted (R312). -/
def hostSource (src : Nat) : Bool :=
  [0, 1, 2, 3, 8, 9, 16, 17, 18, 24, 25, 26, 27, 32, 33, 34, 35, 40, 41, 48, 49, 50].contains src

/-- The effective class of an event of the host collector (R298, R299, R310). -/
def HostDie.evClass (h : HostDie) (e : FcEvent) : Nat :=
  let c := max (bitsOf (h.g F.HFC_CLASS_CLASS (e.src / 32)) (2 * (e.src % 32) + 1) (2 * (e.src % 32)))
    (hostClass e.src)
  if e.wire then (if c ≥ 2 then c else 0) else c

/-- A host core out of reset: HC0 at ENTRY where an image runs; HC1 to HC3 are held until HC0 releases them (R333). -/
def HostDie.resetCore (h : HostDie) (n : Nat) : HostDie :=
  let k := match h.running with
    | some a => if n = 0 then { CompCore.reset with on := true, pc := a } else CompCore.reset
    | none => CompCore.reset
  { h with cores := Sparse.put (fun _ => CompCore.reset) h.cores n k }

/-- A port of the bridge forgets what it has learnt and its gate list in force. -/
def HostDie.resetPort (h : HostDie) (p : Nat) : HostDie :=
  let b := h.back
  { h with back := { b with
      fdb := b.fdb.filter (fun e => e.2.2 != p)
      gcl0 := if p = 0 then [] else b.gcl0
      gcl1 := if p = 1 then [] else b.gcl1 } }

/-- An event of class 2 resets the block of its source (R310, R312): a host core restarts; host SRAM is scrubbed; the
PCIe endpoint loses the vectors and writes not yet delivered; a port forgets its dynamic state. -/
def HostDie.blockReset (h : HostDie) (e : FcEvent) : HostDie :=
  if h.evClass e ≠ 2 then h
  else if e.src < 4 then h.resetCore e.src
  else if e.src = 9 then { h with mem := [] }
  else if e.src = 17 then { h with msix := [], posted := [] }
  else if 24 ≤ e.src ∧ e.src ≤ 26 then h.resetPort (e.src - 24)
  else h

/-- The fault note of the host record (R310, R325). -/
def HostDie.hostNote (h : HostDie) (src : Nat) : FaultNote :=
  { time := h.g F.HFC_RECT_VALUE, fold := h.g F.HFC_RECN_VALUE, first := src, csrc := src, cls := 3, devsafe := true,
    wire := h.is F.HFC_RECS_WIRE, forced := h.is F.HFC_RECS_FORCED, merged := h.g F.HFC_RECS_MERGED,
    detail := h.g F.HFC_RECB_DETAIL }

/-- The class-3 reaction of the host die (R310): device-safe notes to both logic dies, then no acknowledgement. -/
def HostDie.react3 (h : HostDie) (src : Nat) : HostDie :=
  if h.muted then h
  else
    let n := h.hostNote src
    { (h.send .la (.faultNote n)).send .lb (.faultNote n) with muted := true }

/-- The 80 data bits of a closing host record (R303). -/
def HostDie.recordData (h : HostDie) : Nat :=
  h.g F.HFC_RECA_SRC + h.g F.HFC_RECB_SRC * 2 ^ 9 + h.g F.HFC_RECS_CLASS * 2 ^ 18 + h.g F.HFC_RECS_MERGED * 2 ^ 20 +
    h.g F.HFC_RECS_WIRE * 2 ^ 36 + h.g F.HFC_RECS_FORCED * 2 ^ 37 + (h.g F.HFC_RECB_DETAIL % 2 ^ 42) * 2 ^ 38

/-- The host record closes (R303, R310): its log record, and the count of closes of class 2 or 3 not forced. -/
def HostDie.closeRecord (h : HostDie) : HostDie :=
  let h := h.p F.HFC_RECS_OPEN 0
  let h := h.p F.HFC_CTRL_OPEN 0
  let r : LogRec := ⟨h.g F.HFC_RECT_VALUE, h.g F.HFC_RECN_VALUE, 0x0100, 4, h.recordData % 2 ^ 80, h.logSeq⟩
  let h := ({ h with logSeq := (h.logSeq + 1) % 65536 }).merge r
  if h.g F.HFC_RECS_CLASS ≥ 2 ∧ ¬ h.is F.HFC_RECS_FORCED then
    let n := h.g F.HFC_RECCNT_COUNT
    let h := h.p F.HFC_RECCNT_COUNT ((n + 1) % 2 ^ 32)
    if n + 1 = 2 ^ 32 then h.p F.HFC_RECCNT_WRAP 1 else h
  else h

/-- The events confirmed in one sample reach the host collector (R301, R302, R310). -/
def HostDie.collect (h : HostDie) (es : List FcEvent) : HostDie :=
  match es with
  | [] => h
  | e0 :: _ =>
    let h := es.foldl (fun h e => h.setB F.HFC_SEEN_BITS (e.src % 64) true (e.src / 64)) h
    let cls := maxOr0 (es.map h.evClass)
    let top := (lowest (fun e => h.evClass e == cls) es).getD e0
    let h := es.foldl HostDie.blockReset h
    let h := { h with fc := { h.fc with lastEvent := h.now }, msix := h.msix ++ [0] }
    if h.is F.HFC_CTRL_OPEN then
      let old := h.g F.HFC_RECS_CLASS
      let h := h.p F.HFC_RECS_MERGED (satAdd 16 (h.g F.HFC_RECS_MERGED) es.length)
      let h := if es.any (·.wire) then h.p F.HFC_RECS_WIRE 1 else h
      let h := if es.all (·.forced) then h else h.p F.HFC_RECS_FORCED 0
      if cls > old then
        let h := h.p F.HFC_RECS_CLASS cls
        let h := h.wr .HFC_RECB 0 (recWord top)
        if cls = 3 then h.react3 top.src else h
      else h
    else
      let first := (lowest (fun _ => true) es).getD e0
      let h := h.wr .HFC_RECS 0 0#64
      let h := h.p F.HFC_RECS_OPEN 1
      let h := h.p F.HFC_CTRL_OPEN 1
      let h := h.p F.HFC_RECS_CLASS cls
      let h := h.p F.HFC_RECS_FORCED (b2n (es.all (·.forced)))
      let h := h.p F.HFC_RECS_WIRE (b2n (es.any (·.wire)))
      let h := h.p F.HFC_RECS_MERGED (satAdd 16 0 (es.length - 1))
      let h := h.wr .HFC_RECA 0 (recWord first)
      let h := h.wr .HFC_RECB 0 (recWord top)
      let h := h.p F.HFC_RECT_VALUE h.now
      let h := h.p F.HFC_RECN_VALUE (h.g F.FOLD_SNAP_LAST_NUMBER)
      if cls = 0 then h.closeRecord else if cls = 3 then h.react3 top.src else h

/-- A force or wire-force bit drives the pair of a host source (R304, R310). -/
def HostDie.driven (h : HostDie) (src : Nat) : Bool :=
  h.bit F.HFC_FORCE_BITS (src % 64) (src / 64) || h.bit F.HFC_FORCEW_BITS (src % 64) (src / 64)

/-- Host sources of one sample whose pairs no force bit drives are asserted (R304, R310). -/
def HostDie.raiseAll (h : HostDie) (es : List FcEvent) : HostDie := h.collect (es.filter (fun e => !h.driven e.src))

/-- A source of the host die is asserted (R312, which leaves DETAIL open). -/
def HostDie.raise (h : HostDie) (src arg : Nat) : HostDie :=
  h.raiseAll [⟨src, Config.hostDetail src arg h.now, none, false, false⟩]

/-- An access error of the host die (R10): host source 33. -/
def HostDie.accessError (h : HostDie) (w : Party) (addr : Nat) : HostDie :=
  h.raise 33 (addr % 2 ^ 32 + partyCode w * 2 ^ 32)

/-! ### The egress of the backbone (R347, R348, R352) -/

/-- The kind of a cell connection (R357). -/
def cellKind (conn : Nat) : Nat :=
  if conn = 252 then 4 else if conn = 253 then 3 else if conn = 254 then 2 else 5

/-- PCP of a telegram of a kind (R354). -/
def kindPcp (kind : Nat) : Nat := if kind = 0 ∨ kind = 3 ∨ kind = 4 then 6 else 7

/-- The kind of a connection as the host die knows it. -/
def HostDie.txKind (h : HostDie) (conn : Nat) : Nat := if conn < 252 then h.g F.BB_TXC_KIND conn else cellKind conn

/-- The frame of a pair (R352) that the bridge starts at `t`: from the destination address to CRCB. -/
def HostDie.buildFrame (h : HostDie) (a b : TxHalf) (seq t : Nat) : List Nat :=
  let n := a.conn
  let kind := h.txKind n
  let dmac := if kind = 0 then h.g F.BB_TXMAC_DMAC n else h.g F.BB_CELLMAC_MAC
  let dst := if n < 252 then h.g F.BB_TXC_DSTDEV n else 0xFF
  let dzone := if n < 252 then h.g F.BB_TXC_DZONE n else if n = 255 then 0xFFFF else 0
  let cper := h.g F.BB_CELLPER_CPER * 1000
  let cfold := if cper = 0 then 0 else (t / cper) % 2 ^ 32
  bytesBE 6 dmac ++ bytesBE 6 (h.g F.BB_CFG_MAC) ++ bytesBE 2 0x8100 ++ bytesBE 2 (kindPcp kind * 2 ^ 13 + h.g F.BB_VCT_VID) ++
    bytesBE 2 (h.g F.BB_VCT_ETYPE) ++ [1, kind, h.g F.BB_CFG_DEV, dst] ++ bytesBE 2 dzone ++ [n, a.payload.length] ++
    bytesBE 4 seq ++ bytesBE 4 cfold ++ bytesBE 8 a.fold ++ bytesBE 8 t ++ a.payload ++ bytesBE 4 a.crc ++
    bytesBE 4 b.crc

/-- The egress of P1 (0) or P2 (1). -/
def HostDie.port (h : HostDie) (p : Nat) : PortSt := if p = 0 then h.back.port1 else h.back.port2

/-- Replace an egress. -/
def HostDie.setPort (h : HostDie) (p : Nat) (q : PortSt) : HostDie :=
  if p = 0 then { h with back := { h.back with port1 := q } } else { h with back := { h.back with port2 := q } }

/-- How long a frame of `len` bytes occupies a port, in ns, with preamble and gap (PRESUMED, log 172), at the speed of
BB_PORT. -/
def wireTime (speed len : Nat) : Nat :=
  ((len + 20) * (match speed with | 0 => 8 | 1 => 16 | 2 => 32 | _ => 80) + 9) / 10

/-- The first place at or after `pos` of a cycle of `cyc` ns at which the gate of a class stands open (R347); the last
entry of a list lasts to the end of the cycle. -/
def gateOpens (cls cyc pos : Nat) : Nat → List (Nat × Nat) → Option Nat
  | _, [] => none
  | o, e :: es =>
    let stop := if es.isEmpty then cyc else min cyc (o + e.2)
    if e.1.testBit cls ∧ o < cyc ∧ pos < stop then some (max pos o) else gateOpens cls cyc pos (o + e.2) es

/-- The first instant from `b` on at which a frame of a class may start at a port, by the list in force (R348). -/
def HostDie.mayStart (h : HostDie) (p cls b : Nat) : Option Nat :=
  let l := if p = 0 then h.back.gcl0 else h.back.gcl1
  let cyc := h.g F.BB_QBV_CYCLE p
  if l = [] ∨ cyc = 0 then some b
  else
    let pos := (b + cyc - h.g F.BB_QBV_BASE p % cyc) % cyc
    match gateOpens cls cyc pos 0 l with
    | some q => some (b + (q - pos))
    | none => (gateOpens cls cyc 0 0 l).map (fun q => b + (cyc - pos) + q)

/-- The frame that starts next at a port from `b` on (R347): the one that may start first, of those the highest class,
of those the oldest; its instant, class and place in the queue. -/
def HostDie.nextFrame (h : HostDie) (p b : Nat) : Nat → List QFrame → Option (Nat × Nat × Nat)
  | _, [] => none
  | i, q :: qs =>
    match h.mayStart p q.cls b, h.nextFrame p b (i + 1) qs with
    | none, r => r
    | some a, none => some (a, q.cls, i)
    | some a, some r => if r.1 < a ∨ (r.1 = a ∧ q.cls < r.2.1) then some r else some (a, q.cls, i)

/-- Place `i` of the queue of a port starts at `b`: FRAMES counts it, and a telegram made here gets its TIME (R352, R369). -/
def HostDie.startFrame (h : HostDie) (p i b : Nat) : HostDie :=
  let e := h.port p
  match e.queue[i]? with
  | none => h
  | some q =>
    let h := h.setPort p ⟨e.queue.eraseIdx i, b + wireTime (h.g F.BB_PORT_SPEED p) (q.len + (if q.rtag = none then 0 else 6))⟩
    let h := h.count F.BB_PCNT_FRAMES 1 p
    match q.tel with
    | none => h
    | some (a, c, seq) =>
      { h with back := { h.back with egress := h.back.egress ++ [(h.buildFrame a c seq b, q.rtag)] } }

/-- The frames that start at a port from `f` to `t`. -/
def HostDie.drain (h : HostDie) (p f t : Nat) : Nat → HostDie
  | 0 => h
  | n + 1 =>
    let e := h.port p
    match h.nextFrame p (max e.busy f) 0 e.queue with
    | none => h
    | some r => if t < r.1 then h else (h.startFrame p r.2.2 r.1).drain p f t n

/-- Both ports send what they can from `f` to `t`. -/
def HostDie.drainTo (h : HostDie) (f t : Nat) : HostDie :=
  let h := h.drain 0 f t h.back.port1.queue.length
  h.drain 1 f t h.back.port2.queue.length

/-- The host die reaches the instant `t` of cell time. -/
def HostDie.at (h : HostDie) (t : Nat) : HostDie :=
  if h.now < t then
    let h := ((h.pumpTo .la t).pumpTo .lb t).drainTo h.now t
    { h with now := t, before := h.regs }
  else h

/-- A held register store of the fold task (R127): 32 per attempt; one more is discarded with source 8. -/
def LogicDie.holdStore (x : LogicDie) (d : Ch) (h : HeldStore) : LogicDie :=
  if x.core.stores.length < 32 then { x with core := { x.core with stores := x.core.stores ++ [h] } }
  else x.raise d 8 0

/-- The link end of link `l` at the host die or at its logic die. -/
def State.linkEnd (s : State) (l : Ch) (atHost : Bool) : LinkEnd := if atHost then s.host.link l else (s.die l).stl

/-- The die is powered and released, its boot scrub is done, and its stile lanes work (R316, R337, R448). -/
def BootPhase.alive (p : BootPhase) : Bool := p != .off && p != .cut && p != .scrub

/-- Replace a link end. -/
def State.setLinkEnd (s : State) (l : Ch) (atHost : Bool) (e : LinkEnd) : State :=
  if atHost then s.modHost (·.setLink l e) else s.modDie l (fun x => { x with stl := e })

/-- An end of link `l` starts its next message although its own clock has not come to that instant: the other end
receives it, and the two clocks may differ (log 163). -/
def State.begun (s : State) (l : Ch) (atHost : Bool) : State :=
  let e := s.linkEnd l atHost
  match e.begin (if atHost then s.host.now else (s.die l).now) e.busy with
  | none => s
  | some e =>
    let s := s.setLinkEnd l atHost e
    if atHost then s.modHost (fun h => h.count F.HSTL_CNT_SENT) else s.modDie l (fun x => x.count F.STL_CNT_SENT)

/-- The message that an end of link `l` accepts next (R317): the number it expects is on the link, or the other end
starts it. -/
def State.sentTo (s : State) (l : Ch) (atHost : Bool) : Option Sent :=
  let find := fun (s : State) =>
    (s.linkEnd l (!atHost)).unacked.find? (fun e => e.seq == (s.linkEnd l atHost).expect)
  (find s).or (find (s.begun l (!atHost)))

/-- What an end of link `l` accepts next, where it can receive. -/
def State.incoming (s : State) (l : Ch) (atHost : Bool) : Option StileMsg :=
  let me := s.linkEnd l atHost
  if me.down ∨ (atHost ∧ (s.host.muted ∨ s.host.pw.nrstAt.isSome ∨ s.host.xhCut)) ∨ (¬ atHost ∧ ¬ (s.die l).boot.phase.alive) then none
  else (s.sentTo l atHost).map (·.msg)

/-- The end of link `l` accepts the next message (R317). -/
def State.accepted (s : State) (l : Ch) (atHost : Bool) : State :=
  let me := s.linkEnd l atHost
  let s := if (s.linkEnd l (!atHost)).unacked.any (fun e => e.seq == me.expect) then s else s.begun l (!atHost)
  s.setLinkEnd l atHost { me with expect := (me.expect + 1) % 2 ^ 32 }

/-! ### Open roundings -/

/-- A fraction that the spec leaves as an integer without saying how: exact where it is one, else one of its two
neighbours, left open (the free value's lowest bit). -/
def State.roundOpen (s : State) (num : Int) (den : Nat) : Int × State :=
  if num % (den : Int) = 0 then (num / (den : Int), s)
  else
    let f := s.freeWord
    (num / (den : Int) + (f.1.toNat % 2 : Nat), f.2)

/-- A fraction rounded to the nearest integer; which way a tie goes is open. -/
def State.roundNearest (s : State) (num : Int) (den : Nat) : Int × State :=
  let q := num / (den : Int)
  let r := num % (den : Int)
  if 2 * r < den then (q, s)
  else if (den : Int) < 2 * r then (q + 1, s)
  else
    let f := s.freeWord
    (q + (f.1.toNat % 2 : Nat), f.2)

end Sys2Proof.Machine
end

