-- ==== Sys2Proof/Machine/So.lean ====
section
/-! DEFINITION. Safe outputs and the crook chain (07): the own switch (R201), overload (R203, R204), findings (R209,
R214), pulse tests (R210-R213), crook pins (R219-R221). -/

namespace Sys2Proof.Machine

/-! ### The own switch (R201) -/

/-- permit (R201): folds running, the output domain ON, the own crook input high, output n neither held nor latched. -/
def LogicDie.permit (x : LogicDie) (d : Ch) (n : Nat) : Bool :=
  x.is F.FOLD_STATUS_RUNNING && !x.is F.FOLD_STATUS_SAFE && x.g F.PWR_DOM_STATE 6 == domOn && x.crookHigh d &&
    !x.bit F.SO_HELD_BITS n && !x.is F.SO_STAT_LATCHED n

/-- close(n) (R201). -/
def LogicDie.closeWant (x : LogicDie) (d : Ch) (n : Nat) : Bool :=
  x.permit d n && ((x.bit F.SO_CMD_CMD n && !(x.out n).off) || (x.out n).on)

/-- The own switch of SOn takes the state that close(n) gives, at `t` (R201); where permit has fallen, a pulse under way
is spoiled (R213). -/
def LogicDie.drive (x : LogicDie) (d : Ch) (n t : Nat) : LogicDie :=
  let q := x.out n
  let x := if x.permit d n || !(q.off || q.on) then x else x.setOut n { q with spoiled := true }
  let want := x.closeWant d n
  let was := x.bit F.SO_CMD_CLOSED n
  let p := x.out n
  let x :=
    if was && !want then x.setOut n { p with openAt := if q.off then p.openAt else t, openFrom := t, epLow := none }
    else if !was && want then x.setOut n { p with closeAt := t, epOpen := none }
    else x
  let x := x.setB F.SO_CMD_CLOSED n want
  (x.p F.SO_SW_CMD (b2n want) n).p F.SO_SW_CLOSED (b2n want) n

/-- Every own switch takes the state that close gives. -/
def LogicDie.driveAll (x : LogicDie) (d : Ch) (t : Nat) : LogicDie :=
  (List.range 32).foldl (fun x n => x.drive d n t) x

/-- cmd(n) changes (R201); a pulse under way is not judged (R213). -/
def LogicDie.setCmd (x : LogicDie) (d : Ch) (n : Nat) (v : Bool) (t : Nat) : LogicDie :=
  if x.bit F.SO_CMD_CMD n = v then x
  else
    let q := x.out n
    ((x.setB F.SO_CMD_CMD n v).setOut n { q with spoiled := q.spoiled || q.off || q.on }).drive d n t

/-- The own crook output takes a level; its register views follow (R220). -/
def LogicDie.setCrookOut (x : LogicDie) (v : Bool) : LogicDie :=
  let x := if v && !x.is F.SO_CROOK_OUT_CMD then { x with crookUp := x.now } else x
  (x.p F.SO_CROOK_OUT_CMD (b2n v)).p F.SO_CROOKPD_OUT (b2n v)

/-- A low own crook input acts (R164, R219, R220): every own switch opens and is held, the crook output falls, the crook
hold is set. -/
def LogicDie.crookAct (x : LogicDie) (d : Ch) (t : Nat) : LogicDie :=
  let x := (x.p (crookBit d) 0).p F.SO_CROOKPD_IN 0
  let x := x.p F.SO_CROOKPD_STOP 1
  let x := x.p F.SO_HELD_BITS (2 ^ 32 - 1)
  let x := x.p F.SO_CROOK_HOLD 1
  let x := x.setCrookOut false
  x.driveAll d t

/-- The own crook input has fallen for at least 1.0 µs (R219, R222): it counts and acts. -/
def LogicDie.crookLow (x : LogicDie) (d : Ch) (t : Nat) : LogicDie := (x.count F.SO_CROOKCNT_STOPS).crookAct d t

/-- The die reads both crook inputs (R27, R219): a high own input ends the hardware stop, a low one acts. -/
def LogicDie.readCrooks (x : LogicDie) (d : Ch) (inA inB : Bool) (t : Nat) : LogicDie :=
  let x := (x.p F.SO_CROOK_IN_A (b2n inA)).p F.SO_CROOK_IN_B (b2n inB)
  if x.crookHigh d then ((x.p F.SO_CROOKPD_IN 1).p F.SO_CROOKPD_STOP 0).driveAll d t else x.crookAct d t

/-- CROOK_IN_LOW (R27, R219): the crook input of channel x has been low for at least 1.0 µs; both dies read it. -/
def execCrookInLow (x : Ch) (t : Time) (s : State) : Host.Outcome State Fault Refusal :=
  let s := s.modDie (other x) (fun y => (y.at t).p (crookBit x) 0)
  .next (s.modDie x (fun y => (y.at t).crookLow x t))

/-! ### Overload (R203, R204) -/

/-- A limit or thermal finding of SOn (R203, R209): `fld` is OVL or OVT. -/
def LogicDie.overload (x : LogicDie) (d : Ch) (n : Nat) (thermal : Bool) : LogicDie :=
  let x := x.p (if thermal then F.SO_STAT_OVT else F.SO_STAT_OVL) 1 n
  let x := x.count F.SO_CNT_LIMIT 1 n
  x.raise d (256 + n) (b2n thermal)

/-- The own switch of SOn opens and latches (R203). -/
def LogicDie.latch (x : LogicDie) (d : Ch) (n t : Nat) : LogicDie := (x.p F.SO_STAT_LATCHED 1 n).drive d n t

/-- CURRENT_LIMIT_EXPIRY (R203): the B-switch of SOn, closed all the while, has limited for 5 ms; LB opens and latches
it, both dies record OVL. -/
def execCurrentLimitExpiry (n : Fin 32) (t : Time) (s : State) : Host.Outcome State Fault Refusal :=
  if ¬ (s.lb.at t).bit F.SO_CMD_CLOSED n.val ∨ t < ((s.lb.at t).out n.val).closeAt + 5000000 then .next ((s.modDie .la (·.at t)).modDie .lb (·.at t))
  else
    let s := s.modDie .lb (fun x => (((x.at t).p F.SO_SW_LIMIT 1 n.val).latch .lb n.val t).overload .lb n.val false)
    .next (s.modDie .la (fun x => (x.at t).overload .la n.val false))

/-- THERMAL_SHUTDOWN (R203): a switch of SOn overheats; its die latches it, both dies record OVT. -/
def execThermalShutdown (sw : Ch) (n : Fin 32) (t : Time) (s : State) : Host.Outcome State Fault Refusal :=
  let s := s.modDie sw (fun x => (((x.at t).p F.SO_SW_THERMAL 1 n.val).latch sw n.val t).overload sw n.val true)
  .next (s.modDie (other sw) (fun x => (x.at t).overload (other sw) n.val true))

/-- GROUP_OVERLOAD (R204): the 100 ms mean of a group current and VOUTg as the die measured them; a mean above 6.5 A sets
GRPOVL. -/
def execGroupOverload (d : Ch) (g : Fin 4) (curr vout : Fin 65536) (t : Time) (s : State) :
    Host.Outcome State Fault Refusal :=
  .next (s.modDie d (fun x =>
    let x := (x.at t).p F.SO_GRP_CURR curr.val g.val
    let x := x.p F.SO_GRP_VOUT vout.val g.val
    let x := x.p F.SO_GRP_VOUTLOW (b2n (decide (vout.val < 18000))) g.val
    if curr.val > 6500 then x.p F.SO_GRP_GRPOVL 1 g.val else x))

/-! ### Findings (R209, R214) -/

/-- The zone state of SOn was safe-1 in the last committed fold (R214). -/
def LogicDie.zoneRan (x : LogicDie) (n : Nat) : Bool :=
  match x.zoneOf n with
  | none => false
  | some z => safeOne (BitVec.ofNat 64 (readLE x.memC 0x20001010 8)) z

/-- A STAYON entry (R209, R214): the finding with its cause and partner, SO_SHORT, and source 192 + n, class 3 where the
zone was running in the last committed fold and class 0 otherwise. -/
def LogicDie.stayOn (x : LogicDie) (d : Ch) (n cause partner : Nat) : LogicDie :=
  let x := x.p F.SO_STAT_STAYON 1 n
  let x := x.p F.SO_STAT_CAUSE cause n
  let x := x.p F.SO_STAT_PARTNER partner n
  let x := x.setB F.SO_SHORT_BITS n true
  x.raiseDyn d (192 + n) (cause + partner * 4) (if x.zoneRan n then 3 else 0)

/-- A check reads the nodes of SOn (R208, R222): a level that has gone ends the finding it held (R209). -/
def LogicDie.readNodes (x : LogicDie) (n : Nat) (node mid : Bool) : LogicDie :=
  let q := x.out n
  ((x.p F.SO_STAT_NODE (b2n node) n).p F.SO_STAT_MID (b2n mid) n).setOut n { q with
    readAt := x.now
    highAt := if node then x.now else q.highAt
    epOpen := if node then q.epOpen else none
    epLow := if node then none else q.epLow }

/-- A check reads the output node of SOn alone. -/
def LogicDie.readNode (x : LogicDie) (n : Nat) (node : Bool) : LogicDie := x.readNodes n node (x.is F.SO_STAT_MID n)

/-- STAYON (R209): the output node has read high while the own switch has been open for OFFT, an own off-pulse left
out; `flows`: more than 20 mA through the own switch. The command is the entry, which the hardware raises once: a
later one tells that the level has gone and come again (log 47). -/
def execStayon (d : Ch) (n : Fin 32) (flows : Bool) (t : Time) (s : State) : Host.Outcome State Fault Refusal :=
  .next (s.modDie d (fun x =>
    let x := x.at t
    let q := x.out n.val
    if ¬ x.bit F.SO_CMD_CLOSED n.val ∧ ¬ q.off ∧ q.epOpen.all (fun e => decide (e < t)) ∧
        max q.openAt q.offEnd + x.g F.SO_CFG_OFFT n.val * 1000 ≤ t then
      let x := x.readNode n.val true
      (x.setOut n.val { x.out n.val with epOpen := some t }).stayOn d n.val (b2n flows) 0x3F
    else x))

/-- A NOON entry (R209, R212): the finding and source 224 + n with the node levels. -/
def LogicDie.noOn (x : LogicDie) (d : Ch) (n : Nat) (mid : Bool) : LogicDie :=
  ((x.readNodes n false mid).p F.SO_STAT_NOON 1 n).raise d (224 + n) (2 * b2n mid)

/-- NOON (R209): an energised output has read low for ONT with its own switch closed. The command is the entry: a later one
needs ONT of low level anew (log 47). -/
def execNoon (d : Ch) (n : Fin 32) (mid : Bool) (t : Time) (s : State) : Host.Outcome State Fault Refusal :=
  .next (s.modDie d (fun x =>
    let x := x.at t
    let q := x.out n.val
    if x.bit F.SO_CMD_CMD n.val ∧ x.bit F.SO_CMD_CLOSED n.val ∧ q.epLow.all (fun e => decide (e + x.g F.SO_CFG_ONT n.val * 1000 ≤ t ∧ e < t)) ∧
        q.closeAt + x.g F.SO_CFG_ONT n.val * 1000 ≤ t then
      (x.setOut n.val { q with epLow := some t }).noOn d n.val mid
    else x))

/-- SHORT_CLEAR (R214): the node has read low for 10 ms without a break, in every check of the die, while the own
switch was open. -/
def execShortClear (d : Ch) (n : Fin 32) (t : Time) (s : State) : Host.Outcome State Fault Refusal :=
  .next (s.modDie d (fun x =>
    let x := x.at t
    if ¬ x.bit F.SO_CMD_CLOSED n.val ∧ max (x.out n.val).openFrom (x.out n.val).highAt + 10000000 ≤ t then
      (x.readNode n.val false).setB F.SO_SHORT_BITS n.val false
    else x))

/-! ### Pulse tests (R210-R213) -/

/-- The test slot that holds the instant t (R210). -/
def LogicDie.testSlot (x : LogicDie) (t : Nat) : Nat := (t / (1000 * x.g F.SO_TCFG_SLOT)) % 64

/-- A test in a slot starts 10 µs after the slot start (R210). -/
def LogicDie.slotPoint (x : LogicDie) (t : Nat) : Bool := decide (t % (1000 * x.g F.SO_TCFG_SLOT) = 10000)

/-- OFF_PULSE (R210, R211): in the slot of its switch the die that owns it opens the switch of an energised output. -/
def execOffPulse (sw : Ch) (n : Fin 32) (t : Time) (s : State) : Host.Outcome State Fault Refusal :=
  .next (s.modDie sw (fun x =>
    let x := x.at t
    let q := x.out n.val
    if x.slotPoint t ∧ x.testSlot t = 2 * n.val + sw.num ∧ x.is F.SO_CFG_OFFTEST n.val ∧ x.bit F.SO_CMD_CMD n.val ∧
        x.permit sw n.val ∧ ¬ q.off ∧ ¬ q.on
    then (x.setOut n.val { x.out n.val with off := true, start := t, spoiled := false }).drive sw n.val t
    else x))

/-- One die judges an off-pulse (R209, R211): the pending flag of the switch, and STAYON at the second failure in a
row; its source is raised at the entry. -/
def LogicDie.judgeOff (x : LogicDie) (d sw : Ch) (n : Nat) (node mid flows : Bool) : LogicDie :=
  let pend := match sw with | .la => F.SO_STAT_PENDA | .lb => F.SO_STAT_PENDB
  let x := (x.readNodes n node mid).count F.SO_CNT_JUDGED 1 n
  let pass := match sw with | .la => !node && !mid | .lb => !node
  if pass then (x.p pend 0 n).setOut n { x.out n with epPulse := clrBit (x.out n).epPulse sw.num }
  else
    let x := x.count F.SO_CNT_FAILED 1 n
    if ¬ x.is pend n then x.p pend 1 n
    else if (x.out n).epPulse.testBit sw.num then x
    else (x.setOut n { x.out n with epPulse := setBit (x.out n).epPulse sw.num }).stayOn d n (b2n flows) 0x3F

/-- OFF_PULSE_END (R208, R211, R213): OPW after its start the switch closes again where close(n) lets it, and each die
judges the pulse from its own copies of the levels held in its last 1 µs and of the current through the switch. -/
def execOffPulseEnd (sw : Ch) (n : Fin 32) (nodeA midA nodeB midB : Bool) (flows : Flows) (t : Time) (s : State) :
    Host.Outcome State Fault Refusal :=
  let q := ((s.die sw).at t).out n.val
  if ¬ q.off ∨ t ≠ q.start + ((s.die sw).at t).g F.SO_CFG_OPW n.val * 1000 then .next s
  else
    let s := s.modDie sw (fun x =>
      let x := x.at t
      (x.setOut n.val { q with off := false, offEnd := t + x.g F.SO_CFG_OFFT n.val * 1000 }).drive sw n.val t)
    if q.spoiled then .next s
    else
      let s := s.modDie .la (fun x => (x.at t).judgeOff .la sw n.val nodeA midA flows.la)
      .next (s.modDie .lb (fun x => (x.at t).judgeOff .lb sw n.val nodeB midB flows.lb))

/-- The bridge check of another output in an on-pulse of SOn (R209, R212). -/
def LogicDie.judgeBridge (x : LogicDie) (d : Ch) (m n : Nat) (high : Bool) : LogicDie :=
  let x := x.readNode m high
  let q := x.out m
  if ¬ high then x.setOut m { q with epBridge := false }
  else if q.epBridge then x
  else (x.setOut m { q with epBridge := true }).stayOn d m 2 n

/-- ON_PULSE (R207, R210, R212): in slot 2n the die closes its switch of a de-energised output that has energised before. -/
def execOnPulse (d : Ch) (n : Fin 32) (t : Time) (s : State) : Host.Outcome State Fault Refusal :=
  .next (s.modDie d (fun x =>
    let x := x.at t
    let q := x.out n.val
    if x.slotPoint t ∧ x.testSlot t = 2 * n.val ∧ x.is F.SO_CFG_ONTEST n.val ∧ x.is F.FOLD_STATUS_STARTED ∧
        ¬ x.bit F.SO_CMD_CMD n.val ∧ x.permit d n.val ∧ q.freed ∧ ¬ q.off ∧ ¬ q.on then
      (x.setOut n.val { x.out n.val with on := true, start := t, spoiled := false }).drive d n.val t
    else x))

/-- ON_PULSE_END (R209, R212, R213): OPON after its start the switch follows the command again; the die judges the
pulsed output, and every other output whose own switches stayed open and whose node read low before and high during
the pulse. -/
def execOnPulseEnd (d : Ch) (n : Fin 32) (high mid : Bool) (lowBefore highDuring : BitVec 32) (t : Time) (s : State) :
    Host.Outcome State Fault Refusal :=
  let q := ((s.die d).at t).out n.val
  if ¬ q.on ∨ t ≠ q.start + ((s.die d).at t).g F.SO_CFG_OPON n.val * 1000 then .next s
  else
    let open_ := fun (x : LogicDie) (m : Nat) => !x.bit F.SO_CMD_CLOSED m && decide ((x.out m).openFrom ≤ q.start)
    let stayedOpen := fun (m : Nat) => open_ (s.la.at t) m && open_ (s.lb.at t) m
    .next (s.modDie d (fun x =>
      let x := x.at t
      let x := (x.setOut n.val { q with on := false }).drive d n.val t
      if q.spoiled then x
      else
        let x := x.count F.SO_CNT_JUDGED 1 n.val
        let x :=
          if high then
            let x := x.readNode n.val true
            x.setOut n.val { x.out n.val with epOn := false }
          else
            let x := x.count F.SO_CNT_FAILED 1 n.val
            if (x.out n.val).epOn then x.readNodes n.val false mid
            else (x.setOut n.val { x.out n.val with epOn := true }).noOn d n.val mid
        (List.range 32).foldl (fun x m => if m ≠ n.val ∧ stayedOpen m ∧ lowBefore.getLsbD m then
          x.judgeBridge d m n.val (highDuring.getLsbD m) else x) x))

/-! ### Crook pins (R220, R221) -/

/-- A check reads the own crook output (R221, R222). -/
def LogicDie.readCrookOut (x : LogicDie) (high : Bool) : LogicDie :=
  { x.p F.SO_CROOK_OUT_RB (b2n high) with crookRead := x.now }

/-- A crook check of kind `k` (0 at the own pulse, 1 at the other channel's instant) fails or passes (R221): the count
and PEND; a failure while PEND is set records STUCK, source 320. A pass clears its own kind, so that a crossing of the
A and B wires, which passes the one kind and fails the other, is recorded within 2 ms (log 119). -/
def LogicDie.crookCheck (x : LogicDie) (d : Ch) (k : Nat) (pass : Bool) : LogicDie :=
  let was := x.crookPend != 0
  let x := { x with crookSeen := Sparse.put (fun _ => none) x.crookSeen k (some (x.now / 1000000)) }
  let n := setBits x.crookPend k k (b2n (!pass))
  let x := ({ x with crookPend := n }).p F.SO_CROOK_PEND (b2n (n != 0))
  if pass then x
  else
    let x := x.count F.SO_CROOKCNT_PFAIL
    if was then (x.p F.SO_CROOK_STUCK 1).raise d 320 0 else x

/-- A crook check of kind `k` has not been judged yet at its instant in the millisecond of `t` (R221). -/
def LogicDie.crookOpen (x : LogicDie) (k t : Nat) : Bool := Sparse.get (fun _ => none) x.crookSeen k != some (t / 1000000)

/-- CROOK_PULSE (R221): the die's own pulse instant; the check passes if the pulse ends by a low readback. -/
def execCrookPulse (d : Ch) (low : Bool) (t : Time) (s : State) : Host.Outcome State Fault Refusal :=
  .next (s.modDie d (fun x =>
    let x := x.at t
    if x.is F.SO_CROOK_OUT_CMD ∧ x.is F.SO_CROOK_CPEN ∧ x.crookOpen 0 t ∧ t % 1000000 = 250000 + 500000 * d.num then (x.readCrookOut (!low)).crookCheck d 0 low
    else x))

/-- CROOK_PARTNER_CHECK (R221): in the 500 ns that start at the other channel's pulse instant the own output,
commanded high, must read high; one judgement for each instant. -/
def execCrookPartnerCheck (d : Ch) (high : Bool) (t : Time) (s : State) : Host.Outcome State Fault Refusal :=
  .next (s.modDie d (fun x =>
    let x := x.at t
    let at_ := 750000 - 500000 * d.num
    if x.is F.SO_CROOK_OUT_CMD ∧ x.crookOpen 1 t ∧ at_ ≤ t % 1000000 ∧ t % 1000000 ≤ at_ + 500 then
      (x.readCrookOut high).crookCheck d 1 high
    else x))

/-- CROOK_OUTPUT_LOW (R221): a high crook command, given at least 2 µs ago, whose readback has read low for 2 µs. -/
def execCrookOutputLow (d : Ch) (t : Time) (s : State) : Host.Outcome State Fault Refusal :=
  .next (s.modDie d (fun x =>
    let x := x.at t
    if x.is F.SO_CROOK_OUT_CMD ∧ x.crookUp + 2000 ≤ t then ((x.readCrookOut false).p F.SO_CROOK_LOW 1).raise d 321 0 else x))

/-- SO_SUM (R222): the outputs with any of SO_STATn bits [4] and [10:7] set. -/
def LogicDie.soSum (x : LogicDie) : Nat :=
  (List.range 32).foldl (fun v n =>
    v + b2n (Word.bits (x.rd .SO_STAT n) 4 4 != 0 || Word.bits (x.rd .SO_STAT n) 10 7 != 0) * 2 ^ n) 0

/-- SO_SIGSTATn.DONE of any output. -/
def LogicDie.sigDone (x : LogicDie) : Bool := (List.range 32).any (fun n => x.is F.SO_SIGSTAT_DONE n)

/-! ### Y and the commit (R53, R54, R203, R209, R220) -/

/-- SOn is energising in an output image held at words `out` and `zones` (R162); `io`: LA_IO, LB_IO, P0_OUT and P1_OUT are
ON, and no quiet-marked unit is penned (R380, R452). -/
def LogicDie.energising (x : LogicDie) (io : Bool) (out zones : Word) (n : Nat) : Bool :=
  io && safeOne out n && (match x.zoneOf n with | none => false | some z => safeOne zones z)

/-- The fold's Y changes the command of some output (R272). -/
def LogicDie.cmdMoves (x : LogicDie) (io : Bool) (out zones : Word) : Bool :=
  (List.range 32).any (fun n => x.bit F.SO_CMD_CMD n != x.energising io out zones n)

/-- At the end of Y the latch of an output that does not energise clears, and the hold of one whose zone is safe-0 and
not held by the cell (R164, R203). -/
def LogicDie.clearHolds (x : LogicDie) (zones : Word) (on : Bool) (n : Nat) : LogicDie :=
  let kept := match x.zoneOf n with
    | none => false
    | some z => safeOne zones z || x.bit F.VCT_STAT_CHOLD z
  let x := if kept then x else x.setB F.SO_HELD_BITS n false
  if on then x else x.p F.SO_STAT_LATCHED 0 n

/-- An output that energises while it is held records HELDMIS, once at the entry (R209). -/
def LogicDie.noteHeld (x : LogicDie) (d : Ch) (on : Bool) (n : Nat) : LogicDie :=
  let q := x.out n
  let mis := on && x.bit F.SO_HELD_BITS n
  let x := x.setOut n { q with heldMis := mis, freed := q.freed || (on && x.is F.FOLD_STATUS_STARTED) }
  if mis && !q.heldMis then (x.p F.SO_STAT_HELDMIS 1 n).raise d (288 + n) (b2n (x.is F.SO_CROOK_HOLD)) else x

/-- The end of Y of an agreeing fold (R53, R203, R209, R220): latches and holds clear, energising outputs are commanded
on, held ones record HELDMIS, and the crook output rises where it may. -/
def LogicDie.energise (x : LogicDie) (d : Ch) (io : Bool) (out crook zones : Word) (t : Nat) : LogicDie :=
  let moves := x.fold.moves || x.cmdMoves io out zones
  let x := (List.range 32).foldl (fun x n =>
    let on := x.energising io out zones n
    ((x.clearHolds zones on n).noteHeld d on n).setCmd d n on t) x
  let x := if moves then x.trigFrom 2 t else x
  let x := if ¬ safeOne crook d.num ∧ x.crookHigh d then x.p F.SO_CROOK_HOLD 0 else x
  let up := x.is F.FOLD_STATUS_RUNNING && !x.is F.FOLD_STATUS_SAFE && x.is F.FOLD_STATUS_STARTED && x.crookHigh d &&
    safeOne crook d.num && !x.is F.SO_CROOK_HOLD
  x.setCrookOut up

end Sys2Proof.Machine
end

