-- ==== Sys2Proof/Machine/Adc.lean ====
section
/-! DEFINITION. Interleaved converters (10): passes and their constituents (R270-R273), urgent conversions (R274),
results and queues (R275-R278), the reference (R279), correction and slices (R280-R282), calibration (R283, R284); coil signatures
(R216, R217), which are urgent captures, and the start of Y that requests them (R53, R220). -/

namespace Sys2Proof.Machine

/-- An idle converter. -/
def AdcSt.zero_ : AdcSt :=
  { pass := false, entry := 0, rot := 0, next := 0, mux := 0, free := [], runs := [], parts := [], ids := 0, urgent := [], cal := none,
    zero := [], strikes := 0, shadow := 0, shadowed := 0, checked := false, tally := [], slowAt := 0, queue := [] }

/-- What a die keeps of converter c. -/
def LogicDie.adc (x : LogicDie) (c : Nat) : AdcSt := Sparse.get (fun _ => AdcSt.zero_) x.adcs c

/-- Replace what a die keeps of converter c. -/
def LogicDie.setAdc (x : LogicDie) (c : Nat) (v : AdcSt) : LogicDie :=
  { x with adcs := Sparse.put (fun _ => AdcSt.zero_) x.adcs c v }

/-- The first instant of the 12.5 ns grid at or after an instant in ns (R272). -/
def gridAt (t : Nat) : Nat := (2 * t + 24) / 25

/-- A grid instant rounded down to whole ns (R271). -/
def gridNs (g : Nat) : Nat := g * 25 / 2

/-- The AFE domain of the controlled power die is ON (PWR_DOM8). -/
def LogicDie.afeOn (x : LogicDie) : Bool := x.g F.PWR_DOM_STATE 8 == domOn

/-- The converter may convert (R272, R279, R282, R452): a mode that is not off, the AFE domain ON, no FAULT, not penned. -/
def LogicDie.converts (x : LogicDie) (c : Nat) : Bool :=
  (x.g F.ADC_CFG_MODE c == 1 || x.g F.ADC_CFG_MODE c == 2) && x.afeOn && !x.is F.ADC_STAT_FAULT c && !x.bist.penAdc.testBit c

/-- A signature capture occupies converter c (R274). -/
def LogicDie.capturing (x : LogicDie) (c : Nat) : Bool := x.sigBusy.any (fun n => n / 16 == c)

/-- The converter has a pass, an urgent conversion, a capture or a calibration in progress (R272, ADC_STATc.RUN). -/
def LogicDie.adcBusy (x : LogicDie) (c : Nat) : Bool :=
  let q := x.adc c
  q.pass || !q.urgent.isEmpty || q.runs.any (fun r => r.kind == .urgent) || q.cal.isSome || x.capturing c

/-! ### Passes and triggers (R270-R273) -/

/-- A pass starts at grid instant g: constituent 0 goes to rotation position 0 (R270). -/
def LogicDie.startPass (x : LogicDie) (c g : Nat) : LogicDie :=
  let q := x.adc c
  x.setAdc c { q with pass := true, entry := 0, rot := 0, next := max q.next g }

/-- A trigger at the instant t reaches a converter in triggered mode (R272): a pass starts at the first grid instant
from then on, or TRIGMISS is set. -/
def LogicDie.trigger (x : LogicDie) (c t : Nat) : LogicDie :=
  if x.g F.ADC_CFG_MODE c ≠ 2 then x
  else if x.adcBusy c then x.p F.ADC_STAT_TRIGMISS 1 c
  else if ¬ x.converts c then x
  else x.startPass c (gridAt t)

/-- TRIGGER (R272, R273): a source of the table, which came at this instant, reaches the converters that select it;
`timer` names GTn for source 3. A write of ADC_SWTRIG, source 0, triggers by itself. -/
def execAdcTrigger (d : Ch) (src : Fin 4) (timer : Fin 16) (t : Time) (s : State) : Host.Outcome State Fault Refusal :=
  .next (s.modDie d (fun x =>
    let x := x.at t
    let key := if src.val = 3 then 3 + timer.val else src.val
    if src.val = 0 ∨ x.trigAt key ≠ some t then x
    else
      [0, 1].foldl (fun x c =>
        if x.g F.ADC_CFG_TRIG c = src.val ∧ (src.val ≠ 3 ∨ x.g F.ADC_CFG_TRIGGT c = timer.val) then x.trigger c t else x)
        (x.trigTaken key)))

/-- A write of ADC_SWTRIG (R272). -/
def LogicDie.swTrig (x : LogicDie) (mask : Nat) : LogicDie :=
  [0, 1].foldl (fun x c => if mask.testBit c ∧ x.g F.ADC_CFG_TRIG c = 0 then x.trigger c x.now else x) x

/-- ADC_SWTRIG (R272). -/
def execAdcSwtrig (d : Ch) (mask : Fin 4) (t : Time) (s : State) : Host.Outcome State Fault Refusal :=
  .next (s.modDie d (fun x => (x.at t).swTrig mask.val))

/-! ### Urgent requests (R274) -/

/-- An urgent request at grid instant g abandons every acquisition in progress (R274): an entry of the sequence that
has a constituent acquiring, or constituents still to come, is dropped and starts over later; so is every entry not
delivered where a capture takes the converter (`all`), and an urgent conversion or a calibration. A repeat that was
acquiring is due again. What has been held converts on, and its check follows (R281). -/
def AdcSt.abandon (q : AdcSt) (all : Bool) (g : Nat) : AdcSt :=
  let gone := q.parts.filter (fun p => decide (g < p.hold))
  let cut := q.runs.filter (fun r => all || r.kind == .seq && (decide (r.issued < r.count) ||
    gone.any (fun p => p.run == r.id && p.again.isNone)))
  let lives := fun (i : Nat) => !cut.any (fun r => r.id == i)
  let runs := (q.runs.filter (fun r => lives r.id)).map (fun r =>
    { r with redo := (gone.filter (fun p => p.run == r.id)).map (fun p => (p.slice, p.again.getD false)) ++ r.redo })
  { q with
    entry := match cut.find? (fun r => r.kind == .seq) with | some r => r.entry | none => q.entry
    urgent := (cut.filter (fun r => r.kind == .urgent)).map (·.entry) ++ q.urgent
    runs := runs
    parts := q.parts.filter (fun p => decide (p.hold ≤ g))
    free := gone.foldl (fun m p => Sparse.put (fun _ => 0) m p.slice g) q.free
    mux := if gone.isEmpty then q.mux else g
    next := max q.next g }

/-- Urgent work of software or of a calibration waits or runs at grid instant g: it is complete when all of it has
been held (R274). -/
def AdcSt.pressed (q : AdcSt) (g : Nat) : Bool :=
  !q.urgent.isEmpty || q.cal.isSome ||
    q.runs.any (fun r => r.kind == .urgent && (decide (r.issued < r.count) || !r.redo.isEmpty || decide (g < r.hold)))

/-- A software urgent request (R274): discarded with URGMISS during a capture or a calibration; behind urgent work
under way it waits. -/
def LogicDie.urgentReq (x : LogicDie) (c e : Nat) : LogicDie :=
  let q := x.adc c
  if x.capturing c ∨ q.cal.isSome then x.p F.ADC_STAT_URGMISS 1 c
  else if ¬ x.converts c then x
  else
    let q := if q.pressed (gridAt x.now) then q else q.abandon false (gridAt x.now)
    x.setAdc c { q with urgent := q.urgent ++ [e] }

/-- A write of ADC_URG (R274). -/
def LogicDie.writeUrg (x : LogicDie) (req0 : Bool) (e0 : Nat) (req1 : Bool) (e1 : Nat) : LogicDie :=
  let x := if req0 then x.urgentReq 0 e0 else x
  if req1 then x.urgentReq 1 e1 else x

/-- ADC_URG (R274). -/
def execAdcUrg (d : Ch) (req0 : Bool) (e0 : Fin 16) (req1 : Bool) (e1 : Fin 16) (t : Time) (s : State) :
    Host.Outcome State Fault Refusal :=
  .next (s.modDie d (fun x => (x.at t).writeUrg req0 e0.val req1 e1.val))

/-! ### Constituents (R270, R271, R274, R281) -/

/-- The lowest-numbered sequence entry with the input and gain of calibration slot k (R284). -/
def LogicDie.calEntry (x : LogicDie) (c k : Nat) : Option Nat :=
  (List.range (x.g F.ADC_CFG_LAST c + 1)).find? (fun e =>
    x.g F.ADC_SEQ_CH (c * 16 + e) == x.g F.ADC_CAL_CH (c * 16 + k) &&
      x.g F.ADC_SEQ_GAIN (c * 16 + e) == x.g F.ADC_CAL_GAIN (c * 16 + k))

/-- A sequence entry has the slot's input and gain, and the slot is configured (R284). -/
def LogicDie.calUsable (x : LogicDie) (c k : Nat) : Bool :=
  (x.calEntry c k).isSome && (x.g F.ADC_CAL_ZT (c * 16 + k) != 0 || x.g F.ADC_CAL_FT (c * 16 + k) != 0)

/-- The constituents of an entry: 2^AVG, and 4,096 for a calibration (R284). -/
def LogicDie.constituents (x : LogicDie) (c : Nat) (kind : AdcKind) (e : Nat) : Nat :=
  if kind = .cal then 4096 else 2 ^ x.g F.ADC_SEQ_AVG (c * 16 + e)

/-- What one kind of work converts next: a repeat behind an entry's last constituent, the next constituent of an
entry, or the first of the entry `fresh`. -/
def LogicDie.taskOf (x : LogicDie) (c : Nat) (kind : AdcKind) (fresh : Option Nat) : Option AdcTask :=
  let mine := (x.adc c).runs.filter (fun r => r.kind == kind)
  match mine.find? (fun r => r.issued == r.count && !r.redo.isEmpty) with
  | some r => some (.again r (r.redo.headD (0, false)))
  | none =>
    match mine.find? (fun r => decide (r.issued < r.count)) with
    | some r => some (.more r)
    | none => fresh.map (fun e => .first ⟨(x.adc c).ids, kind, e, x.constituents c kind e, 0, 0, [], false, false⟩)

/-- What the converter converts next (R274): software requests in their order, then a calibration, then the sequence. -/
def LogicDie.task (x : LogicDie) (c : Nat) : Option AdcTask :=
  let q := x.adc c
  let cal := match q.cal with
    | some (k, _) => if x.calUsable c k && !q.runs.any (fun r => r.kind == .cal) then x.calEntry c k else none
    | none => none
  (x.taskOf c .urgent q.urgent.head?).or ((x.taskOf c .cal cal).or
    (x.taskOf c .seq (if q.pass ∧ q.entry ≤ x.g F.ADC_CFG_LAST c then some q.entry else none)))

/-- The grid instant from which a slice is free (R270). -/
def AdcSt.freeAt (q : AdcSt) (k : Nat) : Nat := Sparse.get (fun _ => 0) q.free k

/-- The start of the next constituent and its rotation position (R270): one turn after the last, its slice free, and
at the first of an entry, or behind a repeat of another entry, the mux free. Urgent work takes the next position whose
slice is free (R274); a repeat goes to the slice that failed (R281). -/
def AdcSt.startOf (q : AdcSt) : AdcTask → Nat × Nat
  | .again _ k => (max q.next (max (q.freeAt k.1) q.mux), k.1)
  | .more r =>
    let own := q.runs.getLast?.all (fun l => l.id == r.id)
    (max (if own then q.next else max q.next q.mux) (q.freeAt q.rot), q.rot)
  | .first r =>
    let t := max q.next q.mux
    if r.kind = .seq then (max t (q.freeAt q.rot), q.rot)
    else
      let order := (List.range 8).map (fun i => (q.rot + i) % 8)
      let g := max t (minOr 0 (order.map q.freeAt))
      (g, (order.find? (fun k => decide (q.freeAt k ≤ g))).getD q.rot)

/-- A constituent of a run starts acquiring at grid instant g on position k (R270). The spare stands at the position
of a retired slice (R281). -/
def LogicDie.acquire (x : LogicDie) (c g k : Nat) (r : AdcRun) (again : Option Bool) : LogicDie :=
  let q := x.adc c
  let hold := g + x.g F.ADC_SEQ_SMP (c * 16 + r.entry) + 1
  let r := { r with
    issued := if again.isSome then r.issued else r.issued + 1
    redo := if again.isSome then r.redo.tail else r.redo
    hold := hold
    spare := r.spare || (x.is F.ADC_STAT_SUBST c && x.g F.ADC_STAT_RETIRED c == k) }
  x.setAdc c { q with
    next := g + 1
    mux := max q.mux hold
    free := Sparse.put (fun _ => 0) q.free k (hold + 7)
    rot := if again.isSome then q.rot else (k + 1) % 8
    parts := q.parts ++ [⟨k, r.id, hold, again⟩]
    runs := q.runs.filter (fun p => p.id != r.id) ++ [r] }

/-- The first constituent of an entry: the entry is under way, and the one after it is next; in continuous mode the
next pass follows at once (R271). -/
def LogicDie.begins (x : LogicDie) (c : Nat) (r : AdcRun) : LogicDie :=
  let q := { x.adc c with ids := (x.adc c).ids + 1 }
  match r.kind with
  | .urgent => x.setAdc c { q with urgent := q.urgent.tail }
  | .cal => x.setAdc c q
  | .seq => x.setAdc c { q with entry := r.entry + 1 }

/-- Behind the last constituent of a pass in continuous mode the next pass starts (R271). -/
def LogicDie.passWraps (x : LogicDie) (c : Nat) : LogicDie :=
  let q := x.adc c
  if x.g F.ADC_CFG_MODE c = 1 ∧ q.pass ∧ x.g F.ADC_CFG_LAST c < q.entry ∧
      ¬ q.runs.any (fun r => r.kind == .seq && decide (r.issued < r.count)) then
    x.setAdc c { q with entry := 0, rot := 0 }
  else x

/-- CONSTITUENT (R270, R271, R274): at grid instant g the next constituent starts acquiring, where R270 has it start
then; the first pass of continuous mode starts with the first of these. -/
def execConstituent (d : Ch) (c : Fin 2) (g : Nat) (s : State) : Host.Outcome State Fault Refusal :=
  .next (s.modDie d (fun x =>
    let x := x.at (gridNs g)
    let c := c.val
    if ¬ x.converts c ∨ x.capturing c then x
    else
      let x := if x.g F.ADC_CFG_MODE c = 1 ∧ ¬ (x.adc c).pass ∧ ¬ (x.adc c).pressed g then x.startPass c g else x
      match x.task c with
      | none => x
      | some k =>
        let p := (x.adc c).startOf k
        if g ≠ p.1 then x
        else
          match k with
          | .again r k => x.acquire c g p.2 r (some k.2)
          | .more r => (x.acquire c g p.2 r none).passWraps c
          | .first r => ((x.begins c r).acquire c g p.2 r none).passWraps c))

/-! ### Slices (R280-R282) -/

/-- The spare shadows: it is sound, free, and the converter works (R280, R282). -/
def LogicDie.shadowing (x : LogicDie) (c : Nat) : Bool :=
  !x.is F.ADC_STAT_SUBST c && !x.is F.ADC_STAT_NOSPARE c && !x.is F.ADC_STAT_FAULT c

/-- The converter enters FAULT (R282). -/
def LogicDie.adcFault (x : LogicDie) (d : Ch) (c slice situation : Nat) : LogicDie :=
  let x := ((x.p F.ADC_STAT_FAULT 1 c).p F.ADC_STAT_RETEVT 1 c).raise d (437 + 2 * c) (slice + situation * 16)
  x.setAdc c { x.adc c with pass := false, urgent := [], runs := [], parts := [] }

/-- A slice is retired (R281, R282): the spare takes its rotation position; without one the converter enters FAULT. -/
def LogicDie.retireSlice (x : LogicDie) (d : Ch) (c k : Nat) : LogicDie :=
  if x.is F.ADC_STAT_SUBST c ∨ x.is F.ADC_STAT_NOSPARE c then x.adcFault d c k 2
  else
    let x := ((x.p F.ADC_STAT_RETIRED k c).p F.ADC_STAT_SUBST 1 c).p F.ADC_STAT_RETEVT 1 c
    let x := x.setAdc c { x.adc c with strikes := clrBit (x.adc c).strikes k }
    x.raise d (437 + 2 * c) (k + 1 * 16)

/-- The conversions of a slice in the present 100 ms count up (R280). -/
def AdcSt.tallied (q : AdcSt) (k : Nat) : AdcSt :=
  { q with tally := Sparse.put (fun _ => 0) q.tally k (Sparse.get (fun _ => 0) q.tally k + 1) }

/-- The check of one conversion by slice k (R281); `run`: the entry that repeats it where it is the slice's first
failure, none during a capture (R282). The spare shadows 4,096 conversions of one slice (R280), and a repeat of a
conversion that was shadowed (`again`). -/
def LogicDie.judgeSlice (x : LogicDie) (d : Ch) (c k : Nat) (late : Bool) (diff : Nat) (run : Option Nat)
    (again : Option Bool) : LogicDie :=
  let q := (x.adc c).tallied k
  let turn := q.shadow == k && decide (q.shadowed < 4096)
  let sh := x.shadowing c && (turn || again == some true)
  let q := if sh ∧ turn then { q with shadowed := q.shadowed + 1 } else q
  let x := x.setAdc c q
  let struck := q.strikes.testBit k
  if late ∨ (sh ∧ diff > x.g F.ADC_CFG_SHWIN c) then
    if struck then x.retireSlice d c k
    else x.setAdc c { q with
      strikes := setBit q.strikes k
      runs := q.runs.map (fun r => if run = some r.id then { r with redo := r.redo ++ [(k, sh)], retried := true } else r) }
  else if struck then
    let x := x.count F.ADC_SLCNT_TRANS 1 c
    (x.setAdc c { q with strikes := clrBit q.strikes k }).raise d (436 + 2 * c) k
  else x

/-- CONVERSION (R281): slice `slice` finishes the conversion of its oldest constituent, late where that is more than
87.5 ns after the hold; `diff`: the raw difference from the spare if it was shadowed. -/
def execConversion (d : Ch) (c : Fin 2) (slice : Fin 8) (late : Bool) (diff : Fin 65536) (t : Time) (s : State) :
    Host.Outcome State Fault Refusal :=
  .next (s.modDie d (fun x =>
    let x := x.at t
    let c := c.val
    let k := slice.val
    if ¬ x.converts c then x
    else
      let q := x.adc c
      match q.parts.find? (fun p => p.slice == k) with
      | none => if x.capturing c then x.judgeSlice d c k late diff.val none none else x
      | some p =>
        if t < gridNs p.hold ∨ late ≠ decide (gridNs (p.hold + 7) < t) then x
        else (x.setAdc c { q with parts := q.parts.erase p }).judgeSlice d c k late diff.val (some p.run) p.again))

/-- SHADOW_MOVE (R280): after 4,096 shadowed conversions the spare moves on; a round covers all eight slices. -/
def execShadowMove (d : Ch) (c : Fin 2) (t : Time) (s : State) : Host.Outcome State Fault Refusal :=
  .next (s.modDie d (fun x =>
    let x := x.at t
    let c := c.val
    let q := x.adc c
    if ¬ x.shadowing c ∨ q.shadowed < 4096 then x
    else
      let x := x.setAdc c { q with shadow := (q.shadow + 1) % 8, shadowed := 0, checked := q.checked && q.shadow != 7 }
      if q.shadow = 7 then (x.count F.ADC_SLCNT_ROUNDS 1 c).p F.ADC_STAT_CONVERGED 1 c else x))

/-- SPARE_SELF_CHECK (R280, R282): the spare's reading of the reference, once per round, 62,500 ± 500. -/
def execSpareSelfCheck (d : Ch) (c : Fin 2) (code : Fin 65536) (t : Time) (s : State) :
    Host.Outcome State Fault Refusal :=
  .next (s.modDie d (fun x =>
    let x := x.at t
    let c := c.val
    if ¬ x.converts c ∨ x.is F.ADC_STAT_NOSPARE c ∨ (x.shadowing c ∧ (x.adc c).checked) then x
    else
      let x := x.setAdc c { x.adc c with checked := true }
      if 62000 ≤ code.val ∧ code.val ≤ 63000 then x
      else if x.is F.ADC_STAT_SUBST c then x.adcFault d c 8 3
      else (x.p F.ADC_STAT_NOSPARE 1 c).raise d (437 + 2 * c) (8 + 4 * 16)))

/-- SLOWCAL (R280): at the end of each 100 ms, here the `j`-th, corrections are held where a slice has made fewer than
4,096 conversions in it. -/
def execSlowcal (d : Ch) (c : Fin 2) (j : Nat) (t : Time) (s : State) : Host.Outcome State Fault Refusal :=
  .next (s.modDie d (fun x =>
    let x := x.at t
    let c := c.val
    let q := x.adc c
    if t ≠ (j + 1) * 100000000 ∨ t ≤ q.slowAt ∨ ¬ x.afeOn then x
    else
      let slow := (List.range 8).any (fun k => decide (Sparse.get (fun _ => 0) q.tally k < 4096))
      (x.setAdc c { q with tally := [], slowAt := t }).p F.ADC_STAT_SLOWCAL (b2n slow) c))

/-! ### Results (R275-R278, R283) -/

/-- The calibration slot with VALID set that matches an input and gain (R283). -/
def LogicDie.calSlot (x : LogicDie) (c ch gain : Nat) : Option Nat :=
  (List.range 16).find? (fun k => x.is F.ADC_CAL_VALID (c * 16 + k) && x.g F.ADC_CAL_CH (c * 16 + k) == ch &&
    x.g F.ADC_CAL_GAIN (c * 16 + k) == gain)

/-- The queue of converter c, COUNT following it. -/
def LogicDie.setQueue (x : LogicDie) (c : Nat) (q : List Word) : LogicDie :=
  (x.setAdc c { x.adc c with queue := q }).p F.ADC_QSTAT_COUNT q.length c

/-- A result enters the queue (R277, R278). -/
def LogicDie.enqueue (x : LogicDie) (c : Nat) (w : Word) : LogicDie :=
  let q := (x.adc c).queue
  let x := if q.length < 256 then x.setQueue c (q ++ [w])
    else ((x.setQueue c (q.tail ++ [w])).p F.ADC_QSTAT_OVF 1 c).count F.ADC_QSTAT_LOST 1 c
  if x.atThreshold c then x.setEvent (36 + c) else x

/-- REFRDY was 1 at the instant `ts` (R279), also where REFEN has fallen since. -/
def LogicDie.refReadyAt (x : LogicDie) (ts : Nat) : Bool :=
  (x.is F.ADC_CTRL_REFRDY && decide (x.refAt + 300000 ≤ ts)) || x.refWas.any (fun w => decide (w.1 ≤ ts) && decide (ts < w.2))

/-- The result word of entry e (R275), corrected value `v` not yet clamped. -/
def LogicDie.resultWord (x : LogicDie) (c e : Nat) (v : Int) (cal urg sat retried spare : Bool) (ts : Nat) : Word :=
  let r := (min (max v 0) 65535).toNat
  let ovr := sat || decide (v < 0) || decide (65535 < v)
  BitVec.ofNat 64 (r + x.g F.ADC_SEQ_CH (c * 16 + e) * 2 ^ 16 + b2n (!x.refReadyAt ts) * 2 ^ 22 + b2n retried * 2 ^ 23 +
    (e % 16) * 2 ^ 24 + b2n ovr * 2 ^ 28 + b2n urg * 2 ^ 29 + b2n spare * 2 ^ 30 + b2n cal * 2 ^ 31 + (ts % 2 ^ 32) * 2 ^ 32)

/-- The entry whose result is delivered next (R271, R277, in timestamp order): of those with all constituents issued
and none to repeat, the one held first. -/
def AdcSt.due (q : AdcSt) : Option AdcRun :=
  (q.runs.filter (fun r => r.kind != .cal && r.issued == r.count && r.redo.isEmpty)).foldl (fun best r =>
    if best.all (fun b => decide (r.hold < b.hold)) then some r else best) none

/-- A run leaves the converter; with the last result of a pass a triggered pass ends. -/
def LogicDie.runEnds (x : LogicDie) (c id : Nat) : LogicDie :=
  let q := x.adc c
  let runs := q.runs.filter (fun r => r.id != id)
  let ends := x.g F.ADC_CFG_MODE c == 2 && decide (x.g F.ADC_CFG_LAST c < q.entry) && !runs.any (fun r => r.kind == .seq)
  x.setAdc c { q with runs := runs, pass := q.pass && !ends }

/-- RESULT (R271, R275-R277, R283): the averaged raw value of entry e is `code` and `frac` / 256, its last constituent
held at grid instant `hold`; `at0`, `atFull`: a constituent converted at 0, at 65,535. No result is produced while a
capture runs (R274). -/
def execAdcResult (d : Ch) (c : Fin 2) (e : Fin 16) (urg : Bool) (code : Fin 65536) (frac : Fin 256) (at0 atFull : Bool)
    (hold : Nat) (s : State) :
    Host.Outcome State Fault Refusal :=
  let ts := gridNs hold
  let s := s.modDie d (fun x => x.at ts)
  let x := s.die d
  let c := c.val
  let e := e.val
  let r256 := code.val * 256 + frac.val
  let q := x.adc c
  match q.due with
  | none => .next s
  | some run =>
    if ¬ x.converts c ∨ x.capturing c ∨ run.entry ≠ e ∨ urg ≠ (run.kind == .urgent) ∨ run.hold ≠ hold ∨
        q.parts.any (fun p => p.run == run.id) then .next s
    else
      let slot := x.calSlot c (x.g F.ADC_SEQ_CH (c * 16 + e)) (x.g F.ADC_SEQ_GAIN (c * 16 + e))
      let r : Int × State :=
        match slot with
        | none => s.roundNearest (r256 : Int) 256
        | some k =>
          let ofs := (BitVec.ofNat 32 (x.g F.ADC_COEF_OFS (c * 16 + k))).toInt
          let v := s.roundNearest (((r256 : Int) - ofs) * x.g F.ADC_COEF_GAIN (c * 16 + k)) (2 ^ 32)
          (v.1 + x.g F.ADC_CAL_ZT (c * 16 + k), v.2)
      .next (r.2.modDie d (fun x =>
        let w := x.resultWord c e r.1 slot.isSome urg (at0 || atFull) run.retried run.spare ts
        let x := x.wr .ADC_LAST (c * 16 + e) w
        let x := x.setB F.ADC_STAT_LVALID e true c
        let x := if x.is F.ADC_SEQ_QEN (c * 16 + e) ∨ urg then x.enqueue c w else x
        x.runEnds c run.id))

/-- What ADC_POPc reads: the oldest result, 0 where the queue is empty (R277). -/
def LogicDie.popHead (x : LogicDie) (c : Nat) : Word := (x.adc c).queue.headD 0#64

/-- The side effect of a read of ADC_POPc (R277): UNDER on an empty queue; a companion read removes the oldest. -/
def LogicDie.popEffect (x : LogicDie) (c : Nat) (party : Party) : LogicDie :=
  match (x.adc c).queue with
  | [] => x.p F.ADC_QSTAT_UNDER 1 c
  | _ :: q => if party = .companion then x.setQueue c q else x

/-- ADC_POP (R277). -/
def execAdcPop (d : Ch) (c : Fin 2) (party : Party) (t : Time) (s : State) : Host.Outcome State Fault Refusal :=
  .next (s.modDie d (fun x => (x.at t).popEffect c.val party))

/-! ### Reference and AFE domain (R279) -/

/-- REFEN takes effect (R279); the power die's view follows. -/
def LogicDie.setRefen (x : LogicDie) (on : Bool) : LogicDie :=
  let rise := on && !x.is F.ADC_CTRL_REFEN
  let x := if ¬ on ∧ x.is F.ADC_CTRL_REFRDY then { x with refWas := some (x.refAt + 300000, x.now) } else x
  let x := (x.p F.ADC_CTRL_REFEN (b2n on)).p F.ADC_AFE_REFON (b2n on)
  if rise then { x with refAt := x.now }
  else if on then x
  else (x.p F.ADC_CTRL_REFRDY 0).p F.ADC_AFE_READY 0

/-- REFRDY (R279): 300 µs after REFEN took effect. -/
def execRefrdy (d : Ch) (t : Time) (s : State) : Host.Outcome State Fault Refusal :=
  .next (s.modDie d (fun x =>
    let x := x.at t
    if x.is F.ADC_CTRL_REFEN ∧ x.afeOn ∧ x.refAt + 300000 ≤ t then
      (x.p F.ADC_CTRL_REFRDY 1).p F.ADC_AFE_READY 1
    else x))

/-- A converter abandons what it works on. -/
def AdcSt.dropWork (q : AdcSt) : AdcSt :=
  { q with pass := false, entry := 0, rot := 0, free := [], mux := 0, runs := [], parts := [], urgent := [], cal := none }

/-- Background correction starts again from the factory values (R280, R456). -/
def AdcSt.recorrect (q : AdcSt) : AdcSt := { q with shadow := 0, shadowed := 0, checked := false, tally := [] }

/-- The AFE domain leaves ON (R279, R280): the reference goes, passes and measurements are abandoned, and correction
starts again from the factory values when it is ON again. A software write of REFEN at this instant stands (R13). -/
def LogicDie.afeOff (x : LogicDie) : LogicDie :=
  let soft := x.softWrote .ADC_CTRL 0
  let x := ((x.setRefen false).p F.ADC_CALSTAT_BUSY 0).p F.ADC_CTRL_REFEN (b2n (soft && x.is F.ADC_CTRL_REFEN))
  [0, 1].foldl (fun x c =>
    (x.setAdc c (x.adc c).dropWork.recorrect).p F.ADC_STAT_CONVERGED 0 c) { x with sigBusy := [] }

/-- The fused retired slice of converter c of a die in effect, 0xF for none (R460). -/
def LogicDie.fusedSlice (x : LogicDie) (c : Nat) : Nat := bitsOf x.bist.slOn (4 * c + 3) (4 * c)

/-- The ADC_ lock is set: a slice named in PRERET, or fused (R460), is retired from the start (R282). -/
def LogicDie.adcLock (x : LogicDie) : LogicDie :=
  [0, 1].foldl (fun x c =>
    let fused := x.fusedSlice c
    let slice := if fused < 8 then fused else x.g F.ADC_CFG_PRERET c
    if slice < 8 then (x.p F.ADC_STAT_RETIRED slice c).p F.ADC_STAT_SUBST 1 c
    else x) (x.p F.ADC_CTRL_LOCK 1)

/-! ### Calibration (R284) -/

/-- CALSTAT names the last command. -/
def LogicDie.calName (x : LogicDie) (c k : Nat) : LogicDie := (x.p F.ADC_CALSTAT_CONV c).p F.ADC_CALSTAT_SLOT k

/-- A write of ADC_CALCMD (R284): op 1 ZERO, 2 FULL, 3 CLEAR, 0 nothing. A measurement is an urgent conversion (R274). -/
def LogicDie.calCommand (x : LogicDie) (d : Ch) (c k op : Nat) (party : Party) : LogicDie :=
  let q := x.adc c
  if ¬ x.is F.ADC_CTRL_CALEN then x.accessError d party (regAddr .ADC_CALCMD 0)
  else if op = 0 ∨ q.cal.isSome then x
  else if op = 3 then
    let f := x.freeWord d
    let x := (f.2.p F.ADC_CAL_VALID 0 (c * 16 + k)).wr .ADC_COEF (c * 16 + k) (Reg.reset .ADC_COEF 0)
    ((x.calName c k).p F.ADC_CALSTAT_DONE 1).p F.ADC_CALSTAT_RESULT (f.1.toNat % 4)
  else if ¬ x.converts c then x
  else
    let q := if q.pressed (gridAt x.now) then q else q.abandon false (gridAt x.now)
    ((x.calName c k).p F.ADC_CALSTAT_BUSY 1).setAdc c { q with cal := some (k, op == 2) }

/-- ZERO (R284). -/
def execCalZero (d : Ch) (c : Fin 2) (k : Fin 16) (party : Party) (t : Time) (s : State) :
    Host.Outcome State Fault Refusal := .next (s.modDie d (fun x => (x.at t).calCommand d c.val k.val 1 party))

/-- FULL (R284). -/
def execCalFull (d : Ch) (c : Fin 2) (k : Fin 16) (party : Party) (t : Time) (s : State) :
    Host.Outcome State Fault Refusal := .next (s.modDie d (fun x => (x.at t).calCommand d c.val k.val 2 party))

/-- CLEAR (R284). -/
def execCalClear (d : Ch) (c : Fin 2) (k : Fin 16) (party : Party) (t : Time) (s : State) :
    Host.Outcome State Fault Refusal := .next (s.modDie d (fun x => (x.at t).calCommand d c.val k.val 3 party))

/-- The measurement ends with a RESULT (R284). -/
def LogicDie.calEnd (x : LogicDie) (c result : Nat) : LogicDie :=
  let q := x.adc c
  let x := x.setAdc c { q with cal := none, runs := q.runs.filter (fun r => r.kind != .cal) }
  ((x.p F.ADC_CALSTAT_BUSY (b2n ((x.adc (1 - c)).cal.isSome))).p F.ADC_CALSTAT_DONE 1).p F.ADC_CALSTAT_RESULT result

/-- The 4,096 conversions of a measurement have been made (R284). -/
def AdcSt.measured (q : AdcSt) : Bool :=
  match q.runs.find? (fun r => r.kind == .cal) with
  | none => false
  | some r => r.issued == r.count && r.redo.isEmpty && !q.parts.any (fun p => p.run == r.id)

/-- CALIBRATION_DONE (R284): the sum of the 4,096 raw codes, and whether one converted at 0 or 65,535. -/
def execCalibrationDone (d : Ch) (c : Fin 2) (sum : Nat) (sat : Bool) (t : Time) (s : State) :
    Host.Outcome State Fault Refusal :=
  let s0 := s.modDie d (·.at t)
  let x := s0.die d
  let c := c.val
  let q := x.adc c
  match q.cal with
  | none => .next s0
  | some (k, full) =>
    let i := c * 16 + k
    let s := s0.modDie d (fun x => x.calName c k)
    let fin := fun (s : State) (r : Nat) => s.modDie d (fun x => x.calEnd c r)
    if ¬ x.calUsable c k then .next (fin s 3)
    else if ¬ q.measured ∨ ¬ x.converts c ∨ x.capturing c then .next s0
    else if sat then .next (fin s 2)
    else if ¬ full then
      .next (fin (s.modDie d (fun x => x.setAdc c { x.adc c with zero := Sparse.put (fun _ => none) q.zero k (some sum) })) 0)
    else
      match Sparse.get (fun _ => none) q.zero k with
      | none => .next (fin s 1)
      | some z =>
        let a : Int := ((x.g F.ADC_CAL_FT i : Int) - x.g F.ADC_CAL_ZT i) * 4096
        let b : Int := (sum : Int) - z
        let num := if b < 0 then -a else a
        let den := b.natAbs
        if den = 0 ∨ 2 * num < den ∨ 2 * (den : Int) < num then .next (fin s 1)
        else
          let ofs := s.roundNearest (z : Int) 16
          let gain := ofs.2.roundNearest (num * 2 ^ 24) den
          .next (fin (gain.2.modDie d (fun x =>
            ((x.p F.ADC_COEF_OFS ofs.1.toNat i).p F.ADC_COEF_GAIN gain.1.toNat i).p F.ADC_CAL_VALID 1 i)) 0)

/-! ### Coil signatures (R216, R217) -/

/-- The address of word k of the reference buffer of SOn. -/
def sigRefAddr (n k : Nat) : Nat := 0x40024000 + n * 0x200 + k * 8

/-- The address of word k of the capture buffer of SOn. -/
def sigCapAddr (n k : Nat) : Nat := 0x40028000 + n * 0x200 + k * 8

/-- A signature capture takes converter c for SOn (R216, R274): the urgent request abandons what the converter does,
and the capture runs for DELAY and 256 points of DEC + 1 samples from the first free slice. -/
def LogicDie.capture (x : LogicDie) (c n t : Nat) : LogicDie :=
  let q := (x.adc c).abandon true (gridAt t)
  let start := max q.next (minOr 0 ((List.range 8).map q.freeAt))
  let x := (x.p F.SO_SIGSTAT_VALID 0 n).setAdc c { q with
    next := start + x.g F.SO_SIGCFG_DELAY n + 256 * (x.g F.SO_SIGCFG_DEC n + 1), mux := 0 }
  { x with sigBusy := x.sigBusy ++ [n] }

/-- De-energising transitions commanded at the start of Y request captures (R216): per converter, the lowest-numbered
output with SIGEN is captured, the others set SIGMISS; so do all of them where a capture is in progress or the
converter converts nothing. -/
def LogicDie.sigRequest (x : LogicDie) (ns : List Nat) (t : Nat) : LogicDie :=
  let want := ns.filter (fun n => x.is F.SO_SIGCFG_SIGEN n)
  [0, 1].foldl (fun x c =>
    let mine := want.filter (fun n => n / 16 == c)
    let can := x.converts c && !x.capturing c
    match mine with
    | [] => x
    | n :: rest =>
      let x := (if can then rest else mine).foldl (fun x m => x.p F.SO_SIGSTAT_SIGMISS 1 m) x
      if can then x.capture c n t else x) x

/-- Point i of a buffer: four 16-bit points to a word, point 4k at bits [15:0]. -/
def LogicDie.sigPoint (x : LogicDie) (base i : Nat) : Nat :=
  Word.bits (x.bufGet (base + 8 * (i / 4))) (16 * (i % 4) + 15) (16 * (i % 4))

/-- Copy 256 points into a buffer. -/
def LogicDie.sigStore (x : LogicDie) (base : Nat) (pts : List Nat) : LogicDie :=
  (List.range 64).foldl (fun x k =>
    let v := (List.range 4).foldl (fun v i => v + (pts.getD (4 * k + i) 0) * 2 ^ (16 * i)) 0
    x.bufPut (base + 8 * k) (BitVec.ofNat 64 v)) x

/-- CAPTURE_COMPLETE (R216, R217): 256 points of the capture in progress of SOn. A capture under way when its
converter enters FAULT completes like any other (DESIGN CHOICE, log 155). -/
def execCaptureComplete (d : Ch) (n : Fin 32) (points : List (BitVec 16)) (t : Time) (s : State) :
    Host.Outcome State Fault Refusal :=
  .next (s.modDie d (fun x =>
    let x := x.at t
    let n := n.val
    if ¬ x.sigBusy.contains n ∨ points.length ≠ 256 ∨ t < gridNs (x.adc (n / 16)).next then x
    else
      let pts := points.map (·.toNat)
      let x := { x with sigBusy := x.sigBusy.filter (· != n) }
      let x := x.sigStore (sigCapAddr n 0) pts
      let x := x.p F.SO_SIGSTAT_VALID 1 n
      let dev := (List.range 256).foldl (fun v i => v + absDiff (pts.getD i 0) (x.sigPoint (sigRefAddr n 0) i)) 0
      let x := x.p F.SO_SIGSTAT_DONE 1 n
      if x.is F.SO_SIGCFG_LEARN n then
        let x := x.sigStore (sigRefAddr n 0) pts
        (x.p F.SO_SIGSTAT_REF 1 n).p F.SO_SIGCFG_LEARN 0 n
      else
        let x := x.p F.SO_SIGSTAT_DEV dev n
        if x.is F.SO_SIGSTAT_REF n ∧ dev > x.g F.SO_SIGCFG_THR n then x.p F.SO_SIGSTAT_SIGDEV 1 n else x))

/-! ### The start of Y (R53, R216, R220, R272) -/

/-- The start of Y (R53, R216, R220): the outputs that fall are commanded off, their captures requested, and a crook
output whose bit falls goes low; a fold that changes a command triggers converters here and at the end of Y (R272). -/
def LogicDie.deenergise (x : LogicDie) (d : Ch) (io : Bool) (out crook zones : Word) (t : Nat) : LogicDie :=
  let moves := x.cmdMoves io out zones
  let off := (List.range 32).filter (fun n => x.bit F.SO_CMD_CMD n && !x.energising io out zones n)
  let x := off.foldl (fun x n => x.setCmd d n false t) x
  let x := x.sigRequest off t
  let x := { x with fold := { x.fold with moves := moves } }
  let x := if moves then x.trigFrom 2 t else x
  if safeOne crook d.num then x else x.setCrookOut false

end Sys2Proof.Machine
end

