-- ==== Sys2Proof/Machine/Vct.lean ====
section
/-! DEFINITION. Verier cell telegrams and the flock on a logic die (13): sending (R353-R355), receiving and agreement
(R358, R359), stops (R360), cell holds (R361), supervision (R362), the bellwether (R363, R364), the tally list (R365,
R366), cell events (R368). -/

namespace Sys2Proof.Machine

/-! ### Events, holds, sending -/

/-- A cell event (R368): its VCT_EVT bit and its log record, with the last committed fold number. -/
def LogicDie.vctEvent (x : LogicDie) (d : Ch) (b data : Nat) : LogicDie :=
  (x.setB F.VCT_EVT_EVT b true).log d x.now (x.g F.FOLD_NUMBER_NUMBER) (0x0300 + b) 3 data

/-- Outputs of the zones in a mask. -/
def LogicDie.zoneOutputs (x : LogicDie) (zones : Nat) : List Nat :=
  (List.range 32).filter (fun n => match x.zoneOf n with | none => false | some z => zones.testBit z)

/-- The cell holds of zones are set (R361): the own switches of their outputs open and stay open. -/
def LogicDie.cellHold (x : LogicDie) (d : Ch) (zones t : Nat) : LogicDie :=
  let x := x.p F.VCT_STAT_CHOLD (Nat.lor (x.g F.VCT_STAT_CHOLD) zones)
  let was := if x.vct.heldAt.1 = x.now then x.vct.heldAt.2 else 0
  let x := { x with vct := { x.vct with heldAt := (x.now, Nat.lor was zones) } }
  (x.zoneOutputs zones).foldl (fun x n => (x.setB F.SO_HELD_BITS n true).drive d n t) x

/-- The cell holds at the end of Y of a committed fold (R361): those of zones in safe-0 without a cause clear, unless
they were set at this instant. -/
def LogicDie.cellClear (x : LogicDie) (zones : Word) : LogicDie :=
  let fresh := if x.vct.heldAt.1 = x.now then x.vct.heldAt.2 else 0
  let keep := (List.range 16).foldl (fun v z =>
    v + b2n (x.bit F.VCT_STAT_CHOLD z && (safeOne zones z || x.vct.causes.testBit z || fresh.testBit z)) * 2 ^ z) 0
  x.p F.VCT_STAT_CHOLD keep

/-- The polynomial of a channel (R353). -/
def vctPoly : Ch → Nat
  | .la => 0x741B8CD7
  | .lb => 0x814141AB

/-- The bytes that both CRCs cover (R353): offsets 18 to 29, 34 to 41, DATA. -/
def vctBytes (kind dev dst dzone conn seq fold : Nat) (data : List Nat) : List Nat :=
  [1, kind, dev, dst] ++ bytesBE 2 dzone ++ [conn, data.length] ++ bytesBE 4 seq ++ bytesBE 8 fold ++ data

/-- The SEED of a connection for sending (R354). -/
def LogicDie.txSeed (x : LogicDie) (conn : Nat) : Nat :=
  if conn < 252 then x.g F.VCT_TXC_SEED conn else x.g F.VCT_CSEED_CSEED

/-- A telegram is queued (R355): SEQ advances, the own CRC is computed, VCT_TX is queued; every kind but DATA goes ahead of
the other messages of its priority. -/
def LogicDie.vctQueue (x : LogicDie) (d : Ch) (conn fold : Nat) (data : List Nat) : LogicDie :=
  let was := Sparse.get (fun _ => 0) x.vct.txSeq conn
  let seq := if was + 1 = 2 ^ 32 then 1 else was + 1
  let x := { x with vct := { x.vct with txSeq := Sparse.put (fun _ => 0) x.vct.txSeq conn seq } }
  let kind := if conn < 252 then x.g F.VCT_TXC_KIND conn else cellKind conn
  let dst := if conn < 252 then x.g F.VCT_TXC_DSTDEV conn else 0xFF
  let dzone := if conn < 252 then x.g F.VCT_TXC_DZONE conn else if conn = 255 then 0xFFFF else 0
  let crc := crcFeed 32 (vctPoly d) (x.txSeed conn)
    (vctBytes kind (x.g F.VCT_CFG_DEV) dst dzone conn seq fold data)
  x.send (.vctTx conn crc fold data (kind != 0))

/-- The connection is configured for transmission (R130, R354). -/
def LogicDie.txConfigured (x : LogicDie) (conn : Nat) : Bool := decide (conn < 252) && x.is F.VCT_TXC_EN conn

/-- The telegram step of commit (R355): held telegrams in program order, with the fold number of R58. -/
def LogicDie.releaseTels (x : LogicDie) (d : Ch) (fold : Nat) (ts : List HeldTel) : LogicDie :=
  ts.foldl (fun x h => x.vctQueue d h.conn fold h.payload) x

/-- CPER in ns. -/
def LogicDie.cper (x : LogicDie) : Nat := x.g F.VCT_CELL_CPER * 1000

/-- RXCUT in ns. -/
def LogicDie.rxcut (x : LogicDie) : Nat := x.g F.VCT_CFG_RXCUT * 1000

/-- The CONTRIB of a committed fold that opens a cell fold (R354, R355). -/
def LogicDie.contrib (x : LogicDie) (d : Ch) (fold start : Nat) : LogicDie :=
  if x.cper = 0 ∨ start % x.cper ≥ x.g F.FOLD_PERIOD_PERIOD * 1000 then x
  else
    let zones := x.ld64 0x20001010
    let zbits := (List.range 16).foldl (fun v z => v + b2n (safeOne zones z) * 2 ^ z) 0
    let flags := x.g F.FOLD_STATUS_STARTED + 2 * x.g F.VCT_STAT_LISTMIS + 4 * b2n (x.g F.VCT_STAT_CHOLD != 0)
    x.vctQueue d 252 fold
      (bytesBE 8 (x.g F.STL_TALLY_TALLY) ++ bytesBE 2 zbits ++ bytesBE 2 flags ++ bytesBE 4 0 ++
        bytesBE 8 (x.g F.VCT_TMIS_VALUE))

/-! ### Receiving (R358) -/

/-- `n` bytes of a frame from offset `i`, most significant first. -/
def frameAt (f : List Nat) (i n : Nat) : Nat := ofBytesBE ((f.drop i).take n)

/-- The key under which the last accepted SEQ is kept (R358): per connection, on cell connections per source too. -/
def lastKey (conn src : Nat) : Nat := if conn < 252 then conn else conn + 256 * (src + 1)

/-- The checks of R358 other than CRC and SEQ. -/
def LogicDie.vctChecks (x : LogicDie) (conn : Nat) (f : List Nat) : Bool :=
  let kind := frameAt f 19 1
  let dst := frameAt f 21 1
  decide (f.length ≥ 58) && frameAt f 18 1 == 1 &&
    (if conn < 252 then
       x.is F.VCT_RXC_EN conn && kind == x.g F.VCT_RXC_KIND conn && frameAt f 20 1 == x.g F.VCT_RXC_PEERDEV conn &&
         frameAt f 24 1 == x.g F.VCT_RXC_PEERCONN conn
     else kind == cellKind conn) &&
    (dst == x.g F.VCT_CFG_DEV || dst == 0xFF) && f.length == 58 + frameAt f 25 1 && decide (frameAt f 25 1 ≤ 64)

/-- The die's own CRC passes (R353). -/
def LogicDie.vctCrcOk (x : LogicDie) (d : Ch) (conn : Nat) (f : List Nat) : Bool :=
  let seed := if conn < 252 then x.g F.VCT_RXC_SEED conn else x.g F.VCT_CSEED_CSEED
  let len := frameAt f 25 1
  let bytes := (f.drop 18).take 12 ++ (f.drop 34).take 8 ++ (f.drop 50).take len
  crcFeed 32 (vctPoly d) seed bytes == frameAt f (50 + len + (match d with | .la => 0 | .lb => 4)) 4

/-- SEQ is fresh (R358). -/
def LogicDie.seqFresh (x : LogicDie) (conn src seq : Nat) : Bool :=
  match Sparse.get (fun _ => none) x.vct.last (lastKey conn src) with
  | none => seq != 0
  | some l =>
    let k := (seq + 2 ^ 32 - l) % 2 ^ 32
    decide (1 ≤ k) && decide (k ≤ 2 ^ 31)

/-! ### Stops and supervision (R360, R362) -/

/-- The device is a member of the flock. -/
def LogicDie.member (x : LogicDie) (dev : Nat) : Bool := x.is F.VCT_PEER_MEMBER dev

/-- Who must acknowledge a supervised stop (R362). -/
def LogicDie.ackers (x : LogicDie) (q : StopSup) : List Nat :=
  (List.range 64).filter (fun dev =>
    x.member dev && !x.vct.lost.testBit dev && dev != q.src && (q.dst == 0xFF || q.dst == dev))

/-- The acting bellwether finds a stop failed (R362): FSTOP, FSAFE, its own cell holds, event 6. -/
def LogicDie.stopFailed (x : LogicDie) (d : Ch) (q : StopSup) (cause t : Nat) : LogicDie :=
  let me := x.g F.VCT_CFG_DEV
  let dev := (((x.ackers q).filter (fun k => k != me && !q.acked.contains k)).head?).getD 0xFF
  let dev := if cause = 1 then dev else 0xFF
  let x := x.vctQueue d 255 0 ([cause, dev, 0, 0] ++ bytesBE 4 q.seq)
  let x := { x with vct := { x.vct with fsafe := true } }
  let x := x.p F.VCT_STAT_FSAFE 1
  (x.vctEvent d 6 (cause + dev * 256 + q.seq * 2 ^ 16)).cellHold d (x.g F.VCT_POL_FSAFEZ) t

/-- STOP_SUPERVISION (R362): stops whose stamp plus ACKTO plus RXCUT has come are checked. -/
def execStopSupervision (d : Ch) (t : Time) (s : State) : Host.Outcome State Fault Refusal :=
  .next (s.modDie d (fun x =>
    let x := x.at t
    let due := fun (q : StopSup) => decide (q.stamp + x.g F.VCT_CFG_ACKTO * 1000 + x.rxcut ≤ t)
    let now := x.vct.stops.filter due
    let me := x.g F.VCT_CFG_DEV
    let missing := fun (q : StopSup) => (x.ackers q).any (fun k => k != me && !q.acked.contains k)
    let y := { x with vct := { x.vct with stops := x.vct.stops.filter (fun q => !due q) } }
    if x.is F.VCT_STAT_BWL then (now.filter missing).foldl (fun y q => y.stopFailed d q 1 t) y else y))

/-- A logic die accepts a STOP (R360): the zones of DZONE and STOPZ are held and an ACK is queued, without agreement. -/
def LogicDie.interceptStop (x : LogicDie) (d : Ch) (f : VFrame) (dzone t : Nat) : LogicDie :=
  let zones := Nat.land dzone (x.g F.VCT_RXZ_STOPZ f.conn)
  let x := x.cellHold d zones t
  let x := x.vctEvent d 0 (f.src + f.srcConn * 256 + f.seq * 2 ^ 16 + zones * 2 ^ 48)
  x.vctQueue d 254 0 ([f.src, f.srcConn, 0, 0] ++ bytesBE 4 f.seq)

/-- A logic die accepts an FSTOP (R360). -/
def LogicDie.interceptFstop (x : LogicDie) (d : Ch) (f : VFrame) (t : Nat) : LogicDie :=
  let x := x.cellHold d (x.g F.VCT_POL_FSAFEZ) t
  x.vctEvent d 6 (frameAt f.data 0 1 + frameAt f.data 1 1 * 256 + frameAt f.data 4 4 * 2 ^ 16)

/-! ### Agreement (R359) -/

/-- The content of a BEACON frame (R354). -/
def beaconOf (f : VFrame) : Beacon :=
  let flags := frameAt f.data 4 4
  { src := f.src, stamp := f.stamp, cper := frameAt f.data 0 4, fsafe := flags.testBit 0, rank := bitsOf flags 15 8,
    number := frameAt f.data 8 8, late := frameAt f.data 16 8, lost := frameAt f.data 24 8,
    tallyOk := frameAt f.data 32 8, digest := frameAt f.data 40 8 }

/-- The role of bellwether is left (R363, R368). -/
def LogicDie.leaveRole (x : LogicDie) (d : Ch) : LogicDie :=
  if ¬ x.is F.VCT_STAT_BWL then x
  else
    let x := { x.p F.VCT_STAT_BWL 0 with vct := { x.vct with stops := [], fsafe := false } }
    x.vctEvent d 5 0

/-- An agreed ACK acknowledges a supervised stop if its stamp is in time (R362). -/
def LogicDie.takeAck (x : LogicDie) (f : VFrame) : LogicDie :=
  let hit := fun (q : StopSup) => q.src == frameAt f.data 0 1 && q.conn == frameAt f.data 1 1 &&
    q.seq == frameAt f.data 4 4 && decide (f.stamp ≤ q.stamp + x.g F.VCT_CFG_ACKTO * 1000)
  { x with vct := { x.vct with
      stops := x.vct.stops.map (fun q => if hit q then { q with acked := q.acked ++ [f.src] } else q) } }

/-- What an agreed frame does at once (R362, R363): a STOP is supervised by the acting bellwether (16 at once, one more
fails with cause 2), an ACK acknowledges, a CONTRIB is kept, a beacon of lower rank ends the role. -/
def LogicDie.agreedFrame (x : LogicDie) (d : Ch) (f : VFrame) (t : Nat) : LogicDie :=
  if f.stop then
    let q : StopSup := ⟨f.src, f.srcConn, f.seq, f.dst, f.stamp, []⟩
    if ¬ x.is F.VCT_STAT_BWL then x
    else if x.vct.stops.length < 16 then { x with vct := { x.vct with stops := x.vct.stops ++ [q] } }
    else x.stopFailed d q 2 t
  else if f.conn = 254 then x.takeAck f
  else if f.conn = 252 then
    { x with vct := { x.vct with
        contribs := Sparse.put (fun _ => none) x.vct.contribs f.src (some ⟨f.seq, f.stamp, frameAt f.data 0 8⟩) } }
  else if f.conn = 253 ∧ (beaconOf f).rank < x.g F.VCT_CFG_RANK then x.leaveRole d
  else x

/-- The frame and the other die's announcement of it are both here (R359). -/
def LogicDie.agreeOn (x : LogicDie) (d : Ch) (conn src seq t : Nat) : LogicDie :=
  let hit := fun (f : VFrame) => f.conn == conn && f.src == src && f.seq == seq && !f.agreed
  match x.vct.got.find? hit with
  | none => { x with vct := { x.vct with early := x.vct.early ++ [(conn, src, seq)] } }
  | some f =>
    let x := { x with vct := { x.vct with
      got := x.vct.got.map (fun g => if hit g then { g with agreed := true } else g) } }
    x.agreedFrame d f t

/-- A logic die takes a VCT_RX (R358): the checks with their counts; an accepted frame is announced, and a STOP or an
FSTOP is intercepted. -/
def LogicDie.vctTake (x : LogicDie) (d : Ch) (conn stamp : Nat) (f : List Nat) (t : Nat) : LogicDie :=
  let src := frameAt f 20 1
  let seq := frameAt f 26 4
  if ¬ x.vctChecks conn f then x.count F.VCT_CNT_CHKERR
  else if ¬ x.vctCrcOk d conn f then x.count F.VCT_CNT_CRCERR
  else if ¬ x.seqFresh conn src seq then x.count F.VCT_CNT_SEQERR
  else
    let stop := frameAt f 19 1 == 1
    let v : VFrame := ⟨conn, src, frameAt f 24 1, seq, frameAt f 21 1, stop, stamp, (f.drop 50).take (frameAt f 25 1), false⟩
    let x := { x with vct := { x.vct with
      last := Sparse.put (fun _ => none) x.vct.last (lastKey conn src) (some seq)
      got := x.vct.got ++ [v] } }
    let x := x.note (.accepted conn src seq)
    let x := if stop then x.interceptStop d v (frameAt f 22 2) t
      else if conn = 255 then x.interceptFstop d v t else x
    if x.vct.early.contains (conn, src, seq) then
      let x := { x with vct := { x.vct with early := x.vct.early.filter (· != (conn, src, seq)) } }
      x.agreeOn d conn src seq t
    else x

/-- VCT_RX (R358): the logic die at the end of a link takes the VCT_RX that comes next on it. -/
def execVctRx (d : Ch) (t : Time) (s : State) : Host.Outcome State Fault Refusal :=
  let s := s.modDie d (·.at t)
  match s.incoming d false with
  | some (.vctRx conn stamp f) => .next ((s.accepted d false).modDie d (fun x => x.vctTake d conn stamp f t))
  | _ => .next s

/-- The first announcement among the notes received, and the notes without it. -/
def popAccepted : List XNote → Option ((Nat × Nat × Nat) × List XNote)
  | [] => none
  | .accepted c v q :: ns => some ((c, v, q), ns)
  | n :: ns => (popAccepted ns).map (fun r => (r.1, n :: r.2))

/-- VCT_ANNOUNCEMENT (R358, R359): the die receives the other die's oldest announcement. -/
def execVctAnnouncement (d : Ch) (t : Time) (s : State) : Host.Outcome State Fault Refusal :=
  let s := s.modDie d (·.at t)
  match popAccepted (s.die d).xl.inbox with
  | none => .next s
  | some ((c, v, q), ns) =>
    .next (s.modDie d (fun x => { x with xl := { x.xl with inbox := ns } }.agreeOn d c v q t))

/-! ### The bellwether (R363) -/

/-- The device holds an agreed beacon of a rank below `r` with a stamp later than `lim`. -/
def LogicDie.leadHeard (x : LogicDie) (r : Nat) (lim : Int) : Bool :=
  (match x.vct.beacon with
   | none => false
   | some b => decide (b.rank < r) && decide (lim < (b.stamp : Int)) && b.src != x.g F.VCT_CFG_DEV) ||
  x.vct.got.any (fun f => f.agreed && f.conn == 253 && decide ((beaconOf f).rank < r) && decide (lim < (f.stamp : Int)))

/-- The list digest (R366). -/
def LogicDie.listDigest (x : LogicDie) : Nat :=
  crc64 ((List.range 64).flatMap (fun dev => bytesBE 8 (x.g F.VCT_TLIST_TALLY dev)))

/-- The acting bellwether's own values in the form of a beacon (R354, R364), with the marks of the last cell fold that
it has closed. -/
def LogicDie.ownBeacon (x : LogicDie) (stamp : Nat) : Beacon :=
  let me := x.g F.VCT_CFG_DEV
  let v := x.vct
  let own := b2n (x.g F.STL_TALLY_TALLY == x.g F.VCT_TLIST_TALLY me)
  ⟨me, stamp, x.g F.VCT_CELL_CPER, v.fsafe, x.g F.VCT_CFG_RANK, v.number, v.late, v.lost, setBits v.tallyOk me me own, x.listDigest⟩

/-- The values that the acting bellwether uses in place of a received beacon for a fold (R364): the marks of the last
cell fold whose beacon it has queued, which no later agreement changes (DEDUCED, log 174); FSAFE, the list digest and
the own tally as they are. -/
def LogicDie.ownValues (x : LogicDie) (start : Nat) : Beacon :=
  let b := x.ownBeacon start
  match x.vct.beacon with
  | none => b
  | some q => { b with number := q.number, late := q.late, lost := q.lost, tallyOk := setBits q.tallyOk b.src b.src (bitsOf b.tallyOk b.src b.src) }

/-- The role at the start of cell fold n (R363): taken when no lower rank has been heard for its time; FSAFE starts
clear, LATE and lost counts start at zero, and the device uses its own values from here on (R364). -/
def LogicDie.takeRole (x : LogicDie) (d : Ch) (n : Nat) : LogicDie :=
  let r := x.g F.VCT_CFG_RANK
  let lim : Int := (n : Int) * x.cper - ((x.g F.VCT_CFG_BMISS + r : Nat) - 1 : Int) * x.cper
  if r = 0 ∨ x.is F.VCT_STAT_BWL ∨ x.leadHeard r lim then x
  else
    let x := { x.p F.VCT_STAT_BWL 1 with vct := { x.vct with
      stops := [], lateRun := [], timeRun := [], number := x.g F.VCT_CFOLD_VALUE, late := 0, lost := 0, tallyOk := 0, fsafe := false } }
    let x := { x with vct := { x.vct with beacon := some (x.ownBeacon x.now) } }
    x.vctEvent d 5 1

/-- BELLWETHER_ROLE (R362, R363): a cell fold starts; both dies decide the role, and a pending FSCLR on both dies of the
acting bellwether clears FSAFE. -/
def execBellwetherRole (t : Time) (s : State) : Host.Outcome State Fault Refusal :=
  let go := fun (d : Ch) (x : LogicDie) =>
    let x := x.at t
    if x.cper = 0 ∨ t % x.cper ≠ 0 then x else x.takeRole d (t / x.cper)
  let s := (s.modDie .la (go .la)).modDie .lb (go .lb)
  let starts := fun (x : LogicDie) => x.cper != 0 && t % x.cper == 0
  let both := starts s.la && starts s.lb && s.la.is F.VCT_CTRL_FSCLR && s.lb.is F.VCT_CTRL_FSCLR && s.la.is F.VCT_STAT_BWL && s.lb.is F.VCT_STAT_BWL
  let clear := fun (x : LogicDie) =>
    { (x.p F.VCT_CTRL_FSCLR 0).p F.VCT_STAT_FSAFE 0 with vct := { x.vct with fsafe := false } }
  .next (if both then (s.modDie .la clear).modDie .lb clear else s)

/-- The marks of one member at the close of cell fold n (R363). -/
def LogicDie.closeMember (n : Nat) (x : LogicDie) (dev : Nat) : LogicDie :=
  if ¬ x.member dev ∨ dev = x.g F.VCT_CFG_DEV then x
  else
    let v := x.vct
    let lo := n * x.cper
    let hi := lo + x.g F.VCT_CELL_DEADLINE * 1000
    let was := Sparse.get (fun _ => 0) v.countedWas dev
    let onTime := match Sparse.get (fun _ => none) v.contribs dev with
      | none => none
      | some c =>
        let k := (c.seq + 2 ^ 32 - was) % 2 ^ 32
        if lo < c.stamp ∧ c.stamp ≤ hi ∧ (was = 0 ∨ (1 ≤ k ∧ k ≤ 2 ^ 31)) then some c else none
    let bit := 2 ^ dev
    match onTime with
    | some c =>
      let run := Sparse.get (fun _ => 0) v.timeWas dev + 1
      let lost := if run ≥ x.g F.VCT_CFG_K then setBits v.lost dev dev 0 else v.lost
      { x with vct := { v with
          counted := Sparse.put (fun _ => 0) v.counted dev c.seq
          timeRun := Sparse.put (fun _ => 0) v.timeRun dev run
          lateRun := Sparse.put (fun _ => 0) v.lateRun dev 0
          late := setBits v.late dev dev 0
          lost := lost
          tallyOk := setBits v.tallyOk dev dev (b2n (x.g F.VCT_TLIST_TALLY dev == c.tally)) } }
    | none =>
      let run := Sparse.get (fun _ => 0) v.lateWas dev + 1
      { x with vct := { v with
          lateRun := Sparse.put (fun _ => 0) v.lateRun dev run
          timeRun := Sparse.put (fun _ => 0) v.timeRun dev 0
          late := Nat.lor v.late bit
          lost := if run ≥ x.g F.VCT_CFG_K then Nat.lor v.lost bit else v.lost
          tallyOk := setBits v.tallyOk dev dev 0 } }

/-- The acting bellwether closes cell fold n from its counts before the close and the contributions agreed so far. -/
def LogicDie.closeCell (x : LogicDie) (n : Nat) : LogicDie :=
  let x := { x with vct := { x.vct with lost := x.vct.lostWas, counted := x.vct.countedWas, lateRun := x.vct.lateWas,
                                        timeRun := x.vct.timeWas } }
  (List.range 64).foldl (LogicDie.closeMember n) x

/-- CELL_FOLD_CLOSE (R363): at n × CPER + DEADLINE the acting bellwether marks the members. -/
def execCellFoldClose (d : Ch) (t : Time) (s : State) : Host.Outcome State Fault Refusal :=
  .next (s.modDie d (fun x =>
    let x := x.at t
    let dl := x.g F.VCT_CELL_DEADLINE * 1000
    if ¬ x.is F.VCT_STAT_BWL ∨ x.cper = 0 ∨ t < dl ∨ (t - dl) % x.cper ≠ 0 then x
    else
      let n := (t - dl) / x.cper
      let v := x.vct
      let x := { x with vct := { v with number := n, countedWas := v.counted, lateWas := v.lateRun, timeWas := v.timeRun,
                                        lostWas := v.lost } }
      x.closeCell n))

/-- BEACON (R354, R363): at n × CPER + DEADLINE + RXCUT the acting bellwether queues the beacon for n, from every
contribution stamped in time; its own values stand in place of a received beacon (R364). -/
def execBeacon (d : Ch) (t : Time) (s : State) : Host.Outcome State Fault Refusal :=
  .next (s.modDie d (fun x =>
    let x := x.at t
    if ¬ x.is F.VCT_STAT_BWL ∨ x.cper = 0 ∨
        t ≠ x.vct.number * x.cper + x.g F.VCT_CELL_DEADLINE * 1000 + x.rxcut then x
    else
      let x := x.closeCell x.vct.number
      let b := x.ownBeacon t
      let x := x.vctQueue d 253 0
        (bytesBE 4 b.cper ++ bytesBE 4 (b2n b.fsafe + b.rank * 256) ++ bytesBE 8 b.number ++ bytesBE 8 b.late ++
          bytesBE 8 b.lost ++ bytesBE 8 b.tallyOk ++ bytesBE 8 b.digest ++ bytesBE 16 0)
      { x with vct := { x.vct with beacon := some b } }))

/-- FSCLR (R362): a party writes 1 to VCT_CTRL.FSCLR; it reads 1 until taken. -/
def execFsclr (d : Ch) (t : Time) (s : State) : Host.Outcome State Fault Refusal :=
  .next (s.modDie d (fun x => (x.at t).p F.VCT_CTRL_FSCLR 1))

/-- TLARM (R365): a party writes 1 to VCT_CTRL.TLARM. -/
def execTlarm (d : Ch) (t : Time) (s : State) : Host.Outcome State Fault Refusal :=
  .next (s.modDie d (fun x => (x.at t).p F.VCT_CTRL_TLARM 1))

/-! ### Fold start (R359, R361, R364, R365, R366) -/

/-- The frame of a connection for a fold that starts at F (R359): the newest agreed one stamped by F - RXCUT. -/
def LogicDie.heldFor (x : LogicDie) (conn lim : Nat) : Option VFrame :=
  (x.vct.got.reverse.find? (fun f => f.conn == conn && f.agreed && decide (f.stamp ≤ lim))).or
    (Sparse.get (fun _ => none) x.vct.held conn)

/-- Connections that can hold a frame: 0 to 251, and 253. -/
def rxConns : List Nat := List.range 252 ++ [253]

/-- The held frames of a fold that starts at F (R359); frames that became held or were passed over leave the store, and
those not agreed within RXCUT count in NOAGREE. -/
def LogicDie.holdFrames (x : LogicDie) (lim : Nat) : LogicDie :=
  let r := rxConns.foldl (fun (r : Sparse (Option VFrame) × List Nat) c =>
    match x.heldFor c lim with
    | none => r
    | some f =>
      if Sparse.get (fun _ => none) x.vct.held c = some f then r
      else (Sparse.put (fun _ => none) r.1 c (some f), r.2 ++ [c])) (x.vct.held, [])
  let old := x.vct.got.filter (fun f => decide (f.stamp ≤ lim))
  let x := x.count F.VCT_CNT_NOAGREE (old.filter (fun f => !f.agreed)).length
  { x with vct := { x.vct with held := r.1, changed := r.2, got := x.vct.got.filter (fun f => decide (lim < f.stamp)) } }

/-- VCT_RXSn at a fold start, and event 1 on expiry (R359, R368). -/
def LogicDie.rxStatus (d : Ch) (start : Nat) (x : LogicDie) (c : Nat) : LogicDie :=
  let h := Sparse.get (fun _ => none) x.vct.held c
  let x := match h with
    | none => x
    | some f => (x.p F.VCT_RXS_SEQ f.seq c).p F.VCT_RXS_HELD 1 c
  if c ≥ 252 ∨ ¬ x.is F.VCT_RXC_EN c then x
  else
    let stamp := match h with | some f => f.stamp | none => x.vct.firstStart.getD start
    let exp := decide (stamp + x.rxcut + x.g F.VCT_RXT_WDT c * 1000 < start)
    let was := x.is F.VCT_RXS_EXPIRED c
    let x := x.p F.VCT_RXS_EXPIRED (b2n exp) c
    if exp && !was then x.vctEvent d 1 c else x

/-- The tally bits that the agreed contributions give (R366), and event 3 for those that rise. -/
def LogicDie.tallyBits (d : Ch) (lim : Nat) (x : LogicDie) (dev : Nat) : LogicDie :=
  match Sparse.get (fun _ => none) x.vct.contribs dev with
  | none => x
  | some c =>
    if lim < c.stamp then x
    else
      let mis := !x.member dev || c.tally != x.g F.VCT_TLIST_TALLY dev
      let was := x.bit F.VCT_TMIS_VALUE dev
      let x := x.setB F.VCT_TMIS_VALUE dev mis
      if mis && !was then x.vctEvent d 3 (dev + c.tally * 2 ^ 16) else x

/-- The beacon registers and cell events from the beacon in force (R364, R368). -/
def LogicDie.showBeacon (x : LogicDie) (d : Ch) (start : Nat) : LogicDie :=
  let me := x.g F.VCT_CFG_DEV
  let wasLost := x.g F.VCT_LOST_VALUE
  let hadBeacon := x.is F.VCT_STAT_BEACON
  match x.vct.beacon with
  | none => x.p F.VCT_STAT_BEACON 0
  | some b =>
    let missing := decide (b.stamp + x.rxcut + x.g F.VCT_CFG_BMISS * x.cper < start)
    let x := x.p F.VCT_STAT_BEACON (b2n !missing)
    let x := x.p F.VCT_CFOLD_VALUE b.number
    let x := x.p F.VCT_LATE_VALUE b.late
    let x := x.p F.VCT_LOST_VALUE b.lost
    let x := x.p F.VCT_STAT_FSAFE (b2n b.fsafe)
    let x := x.p F.VCT_STAT_SELFLOST (b2n (b.lost.testBit me))
    let x := (x.p F.VCT_STAT_BWRANK b.rank).p F.VCT_STAT_BWDEV b.src
    let x := if missing && hadBeacon then x.vctEvent d 4 b.number else x
    (List.range 64).foldl (fun x dev =>
      if wasLost.testBit dev = b.lost.testBit dev then x else x.vctEvent d 2 (dev + 256 * b2n (b.lost.testBit dev))) x

/-- The own tally bit and LISTMIS (R366). -/
def LogicDie.listState (x : LogicDie) (d : Ch) : LogicDie :=
  let me := x.g F.VCT_CFG_DEV
  let notOk := match x.vct.beacon with
    | none => false
    | some b => !b.tallyOk.testBit me && !b.late.testBit me && !b.lost.testBit me
  let mis := x.g F.STL_TALLY_TALLY != x.g F.VCT_TLIST_TALLY me || notOk
  let was := x.bit F.VCT_TMIS_VALUE me
  let x := x.setB F.VCT_TMIS_VALUE me mis
  let x := if mis && !was then x.vctEvent d 3 (me + x.g F.STL_TALLY_TALLY * 2 ^ 16) else x
  let differs := match x.vct.beacon with
    | none => false
    | some b => b.digest != x.listDigest || b.cper != x.g F.VCT_CELL_CPER
  x.p F.VCT_STAT_LISTMIS (b2n (!x.is F.VCT_CTRL_TLACT || differs))

/-- The zones that the causes of R361 hold at a fold start. -/
def LogicDie.holdCauses (x : LogicDie) : Nat :=
  let exp := (List.range 252).foldl (fun v c =>
    if x.is F.VCT_RXC_EN c ∧ x.is F.VCT_RXS_EXPIRED c then Nat.lor v (x.g F.VCT_RXZ_EXPZ c) else v) 0
  let lost := (List.range 64).foldl (fun v dev =>
    if x.bit F.VCT_LOST_VALUE dev then Nat.lor v (x.g F.VCT_PEER_LOSTZ dev) else v) 0
  let on := fun (b : Bool) (z : Nat) => if b then z else 0
  [exp, lost, on (!x.is F.VCT_STAT_BEACON) (x.g F.VCT_POL_BCNZ), on (x.is F.VCT_STAT_SELFLOST) (x.g F.VCT_POL_SELFZ),
   on (x.is F.VCT_STAT_FSAFE) (x.g F.VCT_POL_FSAFEZ),
   on (x.g F.VCT_TMIS_VALUE != 0 || x.is F.VCT_STAT_LISTMIS) (x.g F.VCT_POL_TMISZ)].foldl Nat.lor 0

/-- The list becomes active at a fold start where both dies hold TLARM and equal digests (R365). -/
def LogicDie.listActivate (x peer : LogicDie) : LogicDie :=
  if x.is F.VCT_CTRL_TLARM ∧ peer.is F.VCT_CTRL_TLARM ∧ x.listDigest = peer.listDigest then x.p F.VCT_CTRL_TLACT 1 else x

/-- What a fold start that lies at F does to telegrams and the flock. -/
def LogicDie.vctFoldStart (x peer : LogicDie) (d : Ch) (start t : Nat) : LogicDie :=
  let lim := start - x.rxcut
  let x := if x.vct.firstStart = none then { x with vct := { x.vct with firstStart := some start } } else x
  let x := x.holdFrames lim
  let x := rxConns.foldl (LogicDie.rxStatus d start) x
  let x := match x.is F.VCT_STAT_BWL, Sparse.get (fun _ => none) x.vct.held 253 with
    | true, _ => { x with vct := { x.vct with beacon := some (x.ownValues start) } }
    | false, some f => { x with vct := { x.vct with beacon := some (beaconOf f) } }
    | false, none => x
  let x := x.listActivate peer
  let x := (List.range 64).foldl (LogicDie.tallyBits d lim) x
  let x := (x.showBeacon d start).listState d
  let zones := x.holdCauses
  let x := { x with vct := { x.vct with causes := zones } }
  if zones = 0 then x else x.cellHold d zones t

/-! ### TRECV (R131, R359) -/

/-- TRECV finds the connection configured for reception: an enabled one up to 251, or 253. -/
def LogicDie.rxConfigured (x : LogicDie) (conn : Nat) : Bool :=
  conn == 253 || (decide (conn < 252) && x.is F.VCT_RXC_EN conn)

/-- The payload that TRECV copies: that of the held frame while the watchdog has not expired. -/
def LogicDie.recvPayload (x : LogicDie) (conn : Nat) : List Nat :=
  match Sparse.get (fun _ => none) x.vct.held conn with
  | none => []
  | some f => if x.rxConfigured conn ∧ ¬ x.is F.VCT_RXS_EXPIRED conn then f.data else []

/-- The status word of TRECV (R131). -/
def LogicDie.recvStatus (x : LogicDie) (conn : Nat) : Nat :=
  if ¬ x.rxConfigured conn then 2 ^ 43
  else
    let exp := x.is F.VCT_RXS_EXPIRED conn
    match Sparse.get (fun _ => none) x.vct.held conn with
    | none => b2n exp * 2 ^ 42
    | some f =>
      f.seq + f.data.length * 2 ^ 32 + b2n (!exp) * 2 ^ 40 + b2n (x.vct.changed.contains conn) * 2 ^ 41 + b2n exp * 2 ^ 42

end Sys2Proof.Machine
end

