-- ==== Sys2Proof/Machine/Bb.lean ====
section
/-! DEFINITION. The cell backbone on the host die (13): the bridge (R347-R349), the time engine (R351), pairing and framing
of telegrams (R352, R356), their way to the logic dies (R357). -/

namespace Sys2Proof.Machine

/-! ### The bridge (R347-R349) -/

/-- The first enabled stream filter that a frame matches (R349). -/
def HostDie.stream (h : HostDie) (dmac vid pcp : Nat) : Option Nat :=
  (List.range 64).find? (fun k =>
    h.is F.BB_PSF_EN k && h.g F.BB_PSF_DMAC k == dmac && h.g F.BB_PSF_VID k == vid && h.g F.BB_PSF_PCP k == pcp)

/-- The level of meter k at `t`, in thousandths of a bit: it fills at CIR up to CBS, and starts full. -/
def HostDie.meterLevel (h : HostDie) (k t : Nat) : Nat :=
  let top := h.g F.BB_PSM_CBS k * 8000
  match Sparse.get (fun _ => none) h.back.tokens k with
  | none => top
  | some (v, t0) => min top (v + h.g F.BB_PSM_CIR k * (t - t0))

/-- A frame of `len` bytes meets meter k (R349): it passes and takes its bits, or it is dropped and counted. -/
def HostDie.meter (h : HostDie) (k len t : Nat) : HostDie × Bool :=
  let v := h.meterLevel k t
  let ok := decide (len * 8000 ≤ v)
  let v := if ok then v - len * 8000 else v
  let h := { h with back := { h.back with tokens := Sparse.put (fun _ => none) h.back.tokens k (some (v, t)) } }
  if ok then (h, true) else ((h.count F.BB_PSM_DROPS 1 k).count F.BB_CNT_QCIDROP, false)

/-- Filtering and policing at P1 and P2 (R349); the internal port is not filtered. -/
def HostDie.police (h : HostDie) (port dmac vid pcp len t : Nat) : HostDie × Bool :=
  if port = 2 then (h, true)
  else
    match h.stream dmac vid pcp with
    | some k => h.meter k len t
    | none => if pcp ≥ 6 then (h.count F.BB_CNT_QCIDROP, false) else (h, true)

/-- The bridge knows a VLAN, or has room for it (R347): 64 VLANs. -/
def HostDie.vlanRoom (h : HostDie) (vid : Nat) : Bool :=
  let vids := (h.back.fdb.map (fun e => e.2.1)).eraseDups
  vids.contains vid || decide (vids.length < 64)

/-- A source address is learnt (R347): 2,048 entries, in 64 VLANs. -/
def HostDie.learn (h : HostDie) (smac vid port : Nat) : HostDie :=
  let rest := h.back.fdb.filter (fun e => !(e.1 == smac && e.2.1 == vid))
  if rest.length < 2048 ∧ h.vlanRoom vid then { h with back := { h.back with fdb := rest ++ [(smac, vid, port)] } } else h

/-- The egress ports of a frame: the port learnt for its destination, or every other enabled port. -/
def HostDie.egressPorts (h : HostDie) (port dmac vid : Nat) : List Nat :=
  let all := [0, 1, 2].filter (fun p => p != port && h.is F.BB_PORT_EN p)
  match h.back.fdb.find? (fun e => e.1 == dmac && e.2.1 == vid) with
  | some e => all.filter (fun p => p == e.2.2)
  | none => all

/-- A frame joins the queues of ports (R347); at the internal port it goes at once. What may start now does. -/
def HostDie.sendOn (h : HostDie) (ports : List Nat) (q : QFrame) : HostDie :=
  (ports.foldl (fun h p =>
    if p = 2 then h.count F.BB_PCNT_FRAMES 1 2 else h.setPort p { h.port p with queue := (h.port p).queue ++ [q] }) h).drainTo h.now h.now

/-- A frame has come in at a port, whose link is up (R369). -/
def HostDie.linkUp (h : HostDie) (port : Nat) : HostDie := h.p F.BB_PORT_LINK 1 port

/-- BRIDGE_FRAME (R347, R349): a frame arrives at a port; `full`: the egress ports that have no room and drop it. -/
def execBridgeFrame (port : Fin 3) (dmac smac : BitVec 48) (vid : Fin 4096) (pcp : Fin 8) (len : Fin 1523)
    (full : BitVec 3) (t : Time) (s : State) : Host.Outcome State Fault Refusal :=
  .next (s.modHost (fun h =>
    let h := (h.at t).linkUp port.val
    if ¬ h.is F.BB_CTRL_EN ∨ ¬ h.is F.BB_PORT_EN port.val then h
    else
      let r := h.police port.val dmac.toNat vid.val pcp.val len.val t
      if ¬ r.2 then r.1
      else
        let h := r.1.learn smac.toNat vid.val port.val
        let out := h.egressPorts port.val dmac.toNat vid.val
        let h := h.sendOn (out.filter (fun p => !full.getLsbD p)) ⟨pcp.val, len.val, none, none⟩
        (out.filter (fun p => full.getLsbD p)).foldl (fun h p => h.count F.BB_PCNT_DROPPED 1 p) h))

/-- The entries of the gate list that software has written for port p (R369). -/
def HostDie.gateList (h : HostDie) (p : Nat) : List (Nat × Nat) :=
  (List.range (h.g F.BB_QBV_LEN p + 1)).map (fun k => (h.g F.BB_GCL_GATES (64 * p + k), h.g F.BB_GCL_INTERVAL (64 * p + k)))

/-- R348: class 7 open in every entry, and an entry of at least 2 µs in which only class 7 is open. -/
def gateListOk (l : List (Nat × Nat)) : Bool :=
  l.all (fun e => e.1.testBit 7) && l.any (fun e => e.1 == 0x80 && decide (2000 ≤ e.2))

/-- APPLY (R348, R369): a bad list is refused at once with BADGCL; a good one takes force at a cycle start, and APPLY reads
1 until then. -/
def execApply (p : Fin 2) (t : Time) (s : State) : Host.Outcome State Fault Refusal :=
  .next (s.modHost (fun h =>
    let h := h.at t
    let l := h.gateList p.val
    if ¬ gateListOk l then (h.p F.BB_QBV_APPLY 0 p.val).p F.BB_QBV_BADGCL 1 p.val
    else
      let cyc := h.g F.BB_QBV_CYCLE p.val
      if cyc = 0 ∨ t % cyc ≠ h.g F.BB_QBV_BASE p.val % cyc then h.p F.BB_QBV_APPLY 1 p.val
      else
        let h := h.p F.BB_QBV_APPLY 0 p.val
        if p.val = 0 then { h with back := { h.back with gcl0 := l } }
        else { h with back := { h.back with gcl1 := l } }))

/-! ### Cell time (R351) -/

/-- TIME_SYNC carries VALID: synchronised, grandmaster, or in holdover. -/
def HostDie.timeValid (h : HostDie) : Bool := h.is F.BB_ASSTAT_SYNC || h.is F.BB_ASSTAT_GM || h.is F.BB_ASSTAT_HOLDOVER

/-- GRANDMASTER_LOSS (R351): a die that was synchronised has lost its grandmaster: host source 27, and holdover. -/
def execGrandmasterLoss (t : Time) (s : State) : Host.Outcome State Fault Refusal :=
  .next (s.modHost (fun h =>
    let h := h.at t
    if ¬ h.is F.BB_ASSTAT_SYNC then h
    else
      let h := h.p F.BB_ASSTAT_SYNC 0
      let h := h.p F.BB_ASSTAT_HOLDOVER (b2n (h.g F.BB_AS_HOLD != 0))
      ({ h with back := { h.back with holdAt := t } }).raise 27 0))

/-- HOLDOVER_EXPIRY (R351): HOLD seconds after the loss VALID is cleared. -/
def execHoldoverExpiry (t : Time) (s : State) : Host.Outcome State Fault Refusal :=
  .next (s.modHost (fun h =>
    let h := h.at t
    if h.is F.BB_ASSTAT_HOLDOVER ∧ h.back.holdAt + h.g F.BB_AS_HOLD * 1000000000 ≤ t then h.p F.BB_ASSTAT_HOLDOVER 0
    else h))

/-- GRANDMASTER_SYNC (R351): the engine synchronises to a grandmaster, or becomes grandmaster, as ROLE lets it. -/
def execGrandmasterSync (gm : Bool) (offset : BitVec 32) (t : Time) (s : State) : Host.Outcome State Fault Refusal :=
  .next (s.modHost (fun h =>
    let h := h.at t
    let role := h.g F.BB_AS_ROLE
    let gm := if role = 1 then true else if role = 2 then false else gm
    let h := (h.p F.BB_ASSTAT_GM (b2n gm)).p F.BB_ASSTAT_SYNC (b2n !gm)
    (h.p F.BB_ASSTAT_HOLDOVER 0).p F.BB_ASSTAT_OFFSET (if gm then 0 else offset.toNat)))

/-! ### Telegrams out (R352, R356) -/

/-- The next SEQ of a connection at the host die (R356). -/
def HostDie.txSeq (h : HostDie) (conn : Nat) : Nat := Sparse.get (fun _ => 1) h.back.seq conn

/-- The SEQ of a connection is used; BB_TXCn shows the next one (R369). -/
def HostDie.useSeq (h : HostDie) (conn : Nat) : HostDie :=
  let n := if h.txSeq conn + 1 = 2 ^ 32 then 1 else h.txSeq conn + 1
  let h := { h with back := { h.back with seq := Sparse.put (fun _ => 1) h.back.seq conn n } }
  if conn < 252 then h.p F.BB_TXC_SEQ n conn else h

/-- Every connection's SEQ starts at 1 with a HELLO on link A (R356). -/
def HostDie.seqRestart (h : HostDie) : HostDie :=
  (List.range 252).foldl (fun h n => h.p F.BB_TXC_SEQ 1 n)
    { h with back := { h.back with seq := [], cntA := [], cntB := [], txA := [], txB := [] } }

/-- The ports of a telegram made here (R347): both with 802.1CB, otherwise those of its destination. -/
def HostDie.telPorts (h : HostDie) (conn : Nat) : List Nat :=
  if h.is F.BB_CTRL_CB then [0, 1].filter (fun p => h.is F.BB_PORT_EN p)
  else
    h.egressPorts 2 (if h.txKind conn = 0 then h.g F.BB_TXMAC_DMAC conn else h.g F.BB_CELLMAC_MAC) (h.g F.BB_VCT_VID)

/-- Two halves of a telegram meet (R356): equal halves make a frame, which the bridge forwards while BB_CTRL.EN is 1;
with 802.1CB it carries an R-TAG (R347, R352). The pair uses its SEQ. -/
def HostDie.pairTx (h : HostDie) (a b : TxHalf) : HostDie :=
  if a.payload = b.payload ∧ a.fold = b.fold then
    let q : QFrame :=
      { cls := kindPcp (h.txKind a.conn), len := 62 + a.payload.length, tel := some (a, b, h.txSeq a.conn)
        rtag := if h.is F.BB_CTRL_CB then some h.back.rtag else none }
    let h := if q.rtag = none then h else { h with back := { h.back with rtag := (h.back.rtag + 1) % 2 ^ 16 } }
    (if h.is F.BB_CTRL_EN then h.sendOn (h.telPorts a.conn) q else h).useSeq a.conn
  else (h.count F.BB_CNT_MISMATCH).useSeq a.conn

/-- The VCT_TX of a channel received on a connection (R356). -/
def HostDie.txCount (h : HostDie) (l : Ch) (conn : Nat) : Nat :=
  Sparse.get (fun _ => 0) (match l with | .la => h.back.cntA | .lb => h.back.cntB) conn

/-- One more VCT_TX of a channel has come on a connection. -/
def HostDie.countTx (h : HostDie) (l : Ch) (conn : Nat) : HostDie :=
  let n := h.txCount l conn + 1
  match l with
  | .la => { h with back := { h.back with cntA := Sparse.put (fun _ => 0) h.back.cntA conn n } }
  | .lb => { h with back := { h.back with cntB := Sparse.put (fun _ => 0) h.back.cntB conn n } }

/-- The halves of a channel that wait. -/
def HostDie.halves (h : HostDie) (l : Ch) : List TxHalf := match l with | .la => h.back.txA | .lb => h.back.txB

/-- Replace the halves of a channel that wait. -/
def HostDie.setHalves (h : HostDie) (l : Ch) (qs : List TxHalf) : HostDie :=
  match l with
  | .la => { h with back := { h.back with txA := qs } }
  | .lb => { h with back := { h.back with txB := qs } }

/-- A VCT_TX of one channel reaches the host die (R356), the i-th of its connection: it meets the i-th of the other
channel within 10 µs, or waits for it; one whose partner has already been dropped as unpaired goes too. A connection
that is not enabled sends nothing (R369, log 173). -/
def HostDie.takeTx (h : HostDie) (l : Ch) (q : TxHalf) (t : Nat) : HostDie :=
  if q.conn < 252 ∧ ¬ h.is F.BB_TXC_EN q.conn then h
  else
    let q := { q with no := h.txCount l q.conn }
    let h := h.countTx l q.conn
    match (h.halves (other l)).find? (fun o => o.conn == q.conn && o.no == q.no) with
    | some o =>
      let h := h.setHalves (other l) ((h.halves (other l)).erase o)
      if o.at_ + 10000 < t then (h.count F.BB_CNT_UNPAIRED).useSeq q.conn
      else match l with | .la => h.pairTx q o | .lb => h.pairTx o q
    | none => if q.no < h.txCount (other l) q.conn then h else h.setHalves l (h.halves l ++ [q])

/-- VCT_TX (R356). -/
def execVctTx (l : Ch) (t : Time) (s : State) : Host.Outcome State Fault Refusal :=
  let s := s.modHost (·.at t)
  match s.incoming l true with
  | some (.vctTx conn crc fold payload _) =>
    .next ((s.accepted l true).modHost (fun h => h.takeTx l ⟨conn, crc, fold, payload, t, 0⟩ t))
  | _ => .next s

/-- UNPAIRED (R356): halves that have waited more than 10 µs are dropped and counted; the pair uses its SEQ. -/
def execUnpaired (t : Time) (s : State) : Host.Outcome State Fault Refusal :=
  .next (s.modHost (fun h =>
    let h := h.at t
    let old := fun (q : TxHalf) => decide (q.at_ + 10000 < t)
    let gone := h.back.txA.filter old ++ h.back.txB.filter old
    let h := { h with back := { h.back with txA := h.back.txA.filter (fun q => !old q),
                                            txB := h.back.txB.filter (fun q => !old q) } }
    gone.foldl (fun h q => (h.count F.BB_CNT_UNPAIRED).useSeq q.conn) h))

/-! ### Telegrams in (R357) -/

/-- 802.1CB (R347): an R-TAG number among the last 32 of its source is a duplicate. -/
def HostDie.duplicate (h : HostDie) (smac : Nat) (rtag : Option Nat) : Bool :=
  match rtag, h.is F.BB_CTRL_CB with
  | some n, true => h.back.recov.any (fun e => e.1 == smac && e.2.contains n)
  | _, _ => false

/-- An R-TAG number is remembered, for up to 64 sources. -/
def HostDie.recover (h : HostDie) (smac : Nat) (rtag : Option Nat) : HostDie :=
  match rtag, h.is F.BB_CTRL_CB with
  | some n, true =>
    let old := (h.back.recov.find? (fun e => e.1 == smac)).map (·.2)
    let rest := h.back.recov.filter (fun e => e.1 != smac)
    if old = none ∧ rest.length ≥ 64 then h
    else { h with back := { h.back with recov := rest ++ [(smac, (n :: old.getD []).take 32)] } }
  | _, _ => h

/-- The connection that a VCT frame maps to (R357). -/
def HostDie.mapConn (h : HostDie) (f : List Nat) : Option Nat :=
  let kind := frameAt f 19 1 % 8
  let dst := frameAt f 21 1
  if f.length < 18 ∨ f.length - 18 > 104 ∨ (dst ≠ h.g F.BB_CFG_DEV ∧ dst ≠ 0xFF) then none
  else if kind = 4 then some 252
  else if kind = 3 then some 253
  else if kind = 2 then some 254
  else if kind = 5 then some 255
  else if kind ≤ 1 then
    (List.range 252).find? (fun n =>
      h.is F.BB_RXC_EN n && h.g F.BB_RXC_PEERDEV n == frameAt f 20 1 && h.g F.BB_RXC_PEERCONN n == frameAt f 24 1)
  else none

/-- A VCT frame addressed to the device wakes the field dies that report their fold task paused (R381): POWER_REQ ON. -/
def HostDie.wakeField (h : HostDie) (f : List Nat) : HostDie :=
  let dst := frameAt f 21 1
  if dst ≠ h.g F.BB_CFG_DEV ∧ dst ≠ 0xFF then h
  else
    let h := if h.is F.PWR_FREP_PAUSEDA then h.send .la (.powerReq 1 0 2 h.now) else h
    if h.is F.PWR_FREP_PAUSEDB then h.send .lb (.powerReq 1 0 2 h.now) else h

/-- A VCT frame at the internal port (R357): stamped and forwarded to both logic dies, or dropped and counted. -/
def HostDie.vctIn (h : HostDie) (f : List Nat) (t : Nat) : HostDie :=
  let h := h.wakeField f
  match h.mapConn f with
  | none => h.count F.BB_CNT_UNMAPPED
  | some n => (h.send .la (.vctRx n t f)).send .lb (.vctRx n t f)

/-- VCT_FRAME (R349, R352, R357): a VCT frame, from its first header byte to its second CRC, with its R-TAG number, has
arrived at P1 or P2 with its last bit at `t`. -/
def execVctFrame (port : Fin 2) (frame : List Byte) (rtag : Option (BitVec 16)) (t : Time) (s : State) :
    Host.Outcome State Fault Refusal :=
  .next (s.modHost (fun h =>
    let h := (h.at t).linkUp port.val
    let f := frame.map (·.toNat)
    let dmac := frameAt f 0 6
    let smac := frameAt f 6 6
    let tci := frameAt f 14 2
    if ¬ h.is F.BB_CTRL_EN ∨ ¬ h.is F.BB_PORT_EN port.val ∨ frameAt f 16 2 ≠ h.g F.BB_VCT_ETYPE then h
    else
      let r := h.police port.val dmac (tci % 4096) (tci / 2 ^ 13) (f.length + 4) t
      if ¬ r.2 then r.1
      else
        let h := r.1.learn smac (tci % 4096) port.val
        if h.duplicate smac (rtag.map (·.toNat)) then h
        else
          let h := h.recover smac (rtag.map (·.toNat))
          let out := h.egressPorts port.val dmac (tci % 4096)
          let h := h.sendOn out ⟨tci / 2 ^ 13, f.length + 4, none, rtag.map (·.toNat)⟩
          if out.contains 2 then h.vctIn f t else h))

end Sys2Proof.Machine
end

