-- ==== Sys2Proof/Machine/Fc.lean ====
section
/-! DEFINITION. The fault collectors' commands (11): confirmed events and WIRE events (R297-R302, R310), force bits (R304),
closing of records (R305, R307), the recovery count (R308), fault notes (R325, R416), resume proposals and resumption
(R148, R306). A collector is named by its logic die, or `none` for the host die's. -/

namespace Sys2Proof.Machine

/-! ### Sources (R311, R312) -/

/-- A logic-die source that may be asserted on die `d` (R311): not reserved, and not marked for the other die only. -/
def dieSource (d : Ch) (src : Nat) : Bool :=
  let reserved := (11 ≤ src && src < 16) || (45 ≤ src && src < 48) || (59 ≤ src && src < 64) ||
    (180 ≤ src && src < 192) || (322 ≤ src && src < 328) || src == 435 || decide (440 ≤ src)
  let laOnly := src == 56 || src == 433 || src == 434
  let lbOnly := decide (376 ≤ src) && decide (src < 433)
  !reserved && !(d == .lb && laOnly) && !(d == .la && lbOnly)

/-- Word k of a register family as part of one wide number. -/
def wideBits (rd : Nat → Nat) (n : Nat) : Nat := (List.range n).foldl (fun v k => v + rd k * 2 ^ (64 * k)) 0

/-- The bits of `v` below `n` that satisfy `p`. -/
def pickBits (n : Nat) (p : Nat → Bool) (v : Nat) : Nat :=
  (List.range n).foldl (fun m s => if v.testBit s && p s then setBit m s else m) 0

/-- The state of the report pairs (R297, R298, R304): the sources whose wires are equal, and those asserted. A
wire-force bit drives both wires to 1, a force bit drives the pair asserted. -/
structure Pairs where
  wires : Nat
  asserted : Nat
  deriving DecidableEq, Repr

/-- The pairs that causes and force bits leave. -/
def FcSt.pairs (f : FcSt) (force forceW : Nat) : Pairs :=
  let w := Nat.lor f.wire forceW
  let a := Nat.lor f.held force
  ⟨w, Nat.xor (Nat.lor a w) w⟩

/-- The report pairs of a logic die; a source that is never asserted on it has no event (R311). -/
def LogicDie.srcPairs (x : LogicDie) (d : Ch) : Pairs :=
  let q := x.fc.pairs (wideBits (x.g F.FC_FORCE_BITS) 8) (wideBits (x.g F.FC_FORCEW_BITS) 8)
  ⟨pickBits 512 (dieSource d) q.wires, pickBits 512 (dieSource d) q.asserted⟩

/-- The report pairs of the host die (R312). -/
def HostDie.srcPairs (h : HostDie) : Pairs :=
  let q := h.fc.pairs (wideBits (h.g F.HFC_FORCE_BITS) 4) (wideBits (h.g F.HFC_FORCEW_BITS) 4)
  ⟨pickBits 256 hostSource q.wires, pickBits 256 hostSource q.asserted⟩

/-- The sources asserted or in WIRE (R313, FC_ACT). -/
def Pairs.active (q : Pairs) : Nat := Nat.lor q.wires q.asserted

/-- The sources of a logic die asserted or in WIRE now. -/
def LogicDie.active (x : LogicDie) (d : Ch) : Nat := (x.srcPairs d).active

/-- The sources of the host die asserted or in WIRE now. -/
def HostDie.active (h : HostDie) : Nat := h.srcPairs.active

/-- The bits below `n` set in `new` and not in `old`. -/
def risen (n old new : Nat) : List Nat := (List.range n).filter (fun i => new.testBit i && !old.testBit i)

/-- The class that the hardware supplies with an event whose default depends on it (R214, R299, R311). -/
def LogicDie.dynClass (x : LogicDie) (src : Nat) : Option Nat :=
  if 192 ≤ src ∧ src < 224 then some (if x.zoneRan (src - 192) then 3 else 0) else none

/-! ### Events and WIRE -/

/-- The effective class of a source of a logic die (R299, R305). -/
def LogicDie.sourceClass (x : LogicDie) (s : Nat) : Nat := x.evClass ⟨s, 0, x.dynClass s, false, false⟩

/-- The effective class of a source of the host die. -/
def HostDie.sourceClass (h : HostDie) (s : Nat) : Nat := h.evClass ⟨s, 0, none, false, false⟩

/-- Sources of a logic die that were active before and are idle now: where one is of class 1 or above, the quiet time starts
over (R305). -/
def LogicDie.wentIdle (x : LogicDie) (d : Ch) (before : Nat) : LogicDie :=
  if (risen 512 (x.active d) before).any (fun s => decide (x.sourceClass s ≥ 1)) then
    { x with fc := { x.fc with lastActive := x.now } }
  else x

/-- Sources of the host die that were active before and are idle now. -/
def HostDie.wentIdle (h : HostDie) (before : Nat) : HostDie :=
  if (risen 256 h.active before).any (fun s => decide (h.sourceClass s ≥ 1)) then
    { h with fc := { h.fc with lastActive := h.now } }
  else h

/-- The causes of these sources end. -/
def FcSt.drop (f : FcSt) (srcs : List Nat) : FcSt := { f with held := srcs.foldl clrBit f.held, wire := srcs.foldl clrBit f.wire }

/-- Sources of a logic die have their idle pairs again, but for what force bits drive. -/
def LogicDie.release (x : LogicDie) (d : Ch) (srcs : List Nat) : LogicDie :=
  ({ x with fc := x.fc.drop srcs }).wentIdle d (x.active d)

/-- Sources of the host die have their idle pairs again. -/
def HostDie.release (h : HostDie) (srcs : List Nat) : HostDie := ({ h with fc := h.fc.drop srcs }).wentIdle h.active

/-- The cause of an event lasts (R297, R298): it asserts its source, or holds its wires equal. -/
def FcSt.hold (f : FcSt) (e : FcEvent) : FcSt :=
  if e.wire then { f with wire := setBit f.wire e.src, held := clrBit f.held e.src }
  else { f with held := setBit f.held e.src, wire := clrBit f.wire e.src }

/-- An event is new to pairs (R297, R298): two consecutive findings of a kind that the pair did not show yet. A pair that a
wire-force bit holds equal shows no assertion. -/
def Pairs.newTo (q : Pairs) (forceW : Nat) (e : FcEvent) : Bool :=
  if e.wire then !q.wires.testBit e.src else !q.asserted.testBit e.src && !forceW.testBit e.src

/-- The sources of one sample that are newly confirmed on a logic die, lasting until released. -/
def LogicDie.confirm (x : LogicDie) (d : Ch) (es : List FcEvent) : LogicDie :=
  let es := es.filter (fun e => dieSource d e.src)
  let new := es.filter ((x.srcPairs d).newTo (wideBits (x.g F.FC_FORCEW_BITS) 8))
  let x := { x with fc := es.foldl FcSt.hold x.fc }
  x.collect d (new.map (fun (e : FcEvent) => { e with dyn := x.dynClass e.src }))

/-- The sources of one sample that are newly confirmed on the host die. A read of host SRAM that a re-read resolved is
counted (R313). -/
def HostDie.confirm (h : HostDie) (es : List FcEvent) : HostDie :=
  let es := es.filter (fun e => hostSource e.src)
  let new := es.filter (h.srcPairs.newTo (wideBits (h.g F.HFC_FORCEW_BITS) 4))
  let h := if new.any (fun e => e.src == 8 && !e.wire) then h.count F.HFC_ECCCNT_REREAD else h
  ({ h with fc := es.foldl FcSt.hold h.fc }).collect new

/-- A source number and its DETAIL as an event. -/
def plainEvent (e : Fin 512 × BitVec 48) : FcEvent := ⟨e.1.val, e.2.toNat, none, false, false⟩

/-- FAULT_EVENT (R297, R301, R302): the sources whose assertion two consecutive samples confirm at one instant, with their
DETAIL, and the sources whose pairs are idle again. An asserted source stays in FC_ACT until released. -/
def execFaultEvent (col : Option Ch) (events : List (Fin 512 × BitVec 48)) (released : List (Fin 512)) (t : Time)
    (s : State) : Host.Outcome State Fault Refusal :=
  match col with
  | some d => .next (s.modDie d (fun x => ((x.at t).release d (released.map Fin.val)).confirm d (events.map plainEvent)))
  | none => .next (s.modHost (fun h => ((h.at t).release (released.map Fin.val)).confirm (events.map plainEvent)))

/-- WIRE (R298): the wires of a source's pair are equal in two consecutive samples. -/
def execWire (col : Option Ch) (src : Fin 512) (detail : BitVec 48) (t : Time) (s : State) :
    Host.Outcome State Fault Refusal :=
  let e : FcEvent := ⟨src.val, detail.toNat, none, true, false⟩
  match col with
  | some d => .next (s.modDie d (fun x => (x.at t).confirm d [e]))
  | none => .next (s.modHost (fun h => (h.at t).confirm [e]))

/-! ### Force bits (R304) -/

/-- The lifecycle that a logic die knows, from the host die's HELLO (R327). -/
def LogicDie.lifecycle (x : LogicDie) : Nat := x.boot.host.info % 4

/-- Scope bit PROOF of a logic die's session (R407). -/
def LogicDie.proofSession (x : LogicDie) : Bool := x.bit F.DBG_STAT_SCOPE 3

/-- A write of force bits is permitted (R304): the companion core and host requests, in CERTIFIED only in a proof-test
session. -/
def LogicDie.forceAllowed (x : LogicDie) (p : Party) : Bool :=
  (p == .companion || p == .hostReq) && (x.lifecycle != 2 || x.proofSession)

/-- The events of a change of force bits (R304): a pair newly driven to equal wires, or newly asserted; an assertion
that a cause of its own upholds is not forced. -/
def Pairs.events (before after : Pairs) (n held detail : Nat) (dyn : Nat → Option Nat) : List FcEvent :=
  (risen n before.wires after.wires).map (fun s => ⟨s, detail, dyn s, true, true⟩) ++
    (risen n before.asserted after.asserted).map (fun s => ⟨s, detail, dyn s, false, !held.testBit s⟩)

/-- Forced sources of word k of a logic die are driven or released (R304). A driven pair reaches the collector like a real
event, with an open DETAIL; a source that its own cause already asserts shows nothing new. -/
def LogicDie.force (x : LogicDie) (d : Ch) (wire : Bool) (k v detail : Nat) : LogicDie :=
  let y := x.p (if wire then F.FC_FORCEW_BITS else F.FC_FORCE_BITS) v k
  (y.wentIdle d (x.active d)).collect d ((x.srcPairs d).events (y.srcPairs d) 512 y.fc.held detail y.dynClass)

/-- Forced sources of word k of the host die are driven or released. -/
def HostDie.force (h : HostDie) (wire : Bool) (k v detail : Nat) : HostDie :=
  let y := h.p (if wire then F.HFC_FORCEW_BITS else F.HFC_FORCE_BITS) v k
  (y.wentIdle h.active).collect (h.srcPairs.events y.srcPairs 256 y.fc.held detail (fun _ => none))

/-- Every force and wire-force bit of a logic die clears (R304, R410). -/
def LogicDie.unforce (x : LogicDie) (d : Ch) : LogicDie :=
  (List.range 8).foldl (fun x k => (x.force d false k 0 0).force d true k 0 0) x

/-- Every force and wire-force bit of the host die clears. -/
def HostDie.unforce (h : HostDie) : HostDie :=
  (List.range 4).foldl (fun h k => (h.force false k 0 0).force true k 0 0) h

/-- Every breakpoint of a die is removed. -/
def LogicDie.clearBreaks (x : LogicDie) : LogicDie := (List.range 4).foldl (fun x k => x.wr .DBG_BKPT k 0#64) x

/-- The debug session that a logic die knows ends (R410): its force bits and breakpoints clear, and halted cores run
again. -/
def LogicDie.debugEnds (x : LogicDie) (d : Ch) : LogicDie :=
  let x := (x.p F.DBG_STAT_SESSION 0).p F.DBG_STAT_SCOPE 0
  (x.unforce d).clearBreaks.p F.DBG_STAT_HALTED 0

/-- The host die's lifecycle as it is in force. -/
def HostDie.lifecycle (h : HostDie) : Nat := h.g F.SEC_LC_LC

/-- A write of the host die's force bits is permitted (R304, R310). -/
def HostDie.forceAllowed (h : HostDie) (p : Party) : Bool :=
  (p == .hostFirmware || p == .hostBar) && (h.lifecycle != 2 || h.bit F.HDBG_STAT_SCOPE 3)

/-- FC_FORCE (R304): a write of force bits, or of wire-force bits (`wire`), word k of the collector. -/
def execFcForce (col : Option Ch) (wire : Bool) (k : Fin 8) (v : Word) (party : Party) (t : Time) (s : State) :
    Host.Outcome State Fault Refusal :=
  let f := s.freeWord
  let detail := f.1.toNat % 2 ^ 48
  match col with
  | some d =>
    .next (f.2.modDie d (fun x =>
      let x := x.at t
      if x.forceAllowed party then x.force d wire k.val v.toNat detail
      else x.accessError d party (regAddr (if wire then .FC_FORCEW else .FC_FORCE) k.val)))
  | none =>
    .next (f.2.modHost (fun h =>
      let h := h.at t
      if h.forceAllowed party ∧ k.val < 4 then h.force wire k.val v.toNat detail
      else h.accessError party (regAddr (if wire then .HFC_FORCEW else .HFC_FORCE) k.val)))

/-! ### Closing (R305-R308, R310) -/

/-- The instant QUIET milliseconds after the last event and the last active source of class 1 or above. -/
def LogicDie.quietEnd (x : LogicDie) : Nat :=
  max x.fc.lastEvent x.fc.lastActive + x.g F.FC_QUIET_QUIET * 1000000

/-- A source of class 1 or above is asserted or in WIRE. -/
def LogicDie.busySource (x : LogicDie) (d : Ch) : Bool :=
  (List.range 512).any (fun s => (x.active d).testBit s && decide (x.sourceClass s ≥ 1))

/-- The open record of a logic die closes now (R305). -/
def LogicDie.closes (x : LogicDie) (d : Ch) : Bool :=
  x.is F.FC_CTRL_OPEN && !x.busySource d && decide (x.quietEnd ≤ x.now)

/-- The open record of the host die closes now (R305, R310). -/
def HostDie.closes (h : HostDie) : Bool :=
  h.is F.HFC_CTRL_OPEN && !(List.range 256).any (fun s => h.active.testBit s && decide (h.sourceClass s ≥ 1)) &&
    decide (max h.fc.lastEvent h.fc.lastActive + h.g F.HFC_QUIET_QUIET * 1000000 ≤ h.now)

/-- The first fold-start instant of R45 at or after `t`. -/
def LogicDie.nextStart (x : LogicDie) (t : Nat) : Nat :=
  let p := x.g F.FOLD_PERIOD_PERIOD * 1000
  let o := x.g F.FOLD_OFFSET_OFFSET * 1000
  if p = 0 then t
  else
    let r := (t + p - o % p) % p
    if r = 0 then t else t + (p - r)

/-- A resume proposal (R306): the last committed fold number and the first fold start at least 1 ms ahead. -/
def LogicDie.propose (x : LogicDie) : LogicDie :=
  let p := (x.g F.FOLD_NUMBER_NUMBER, x.nextStart (x.now + 1000000))
  ({ x with fc := { x.fc with mine := some p } }).note (.resume p.1 p.2)

/-- The record closes; one of class 2 or 3 on a die neither LOCKED nor NORESUME sets READY and sends a resume proposal
(R305, R306). -/
def LogicDie.finishRecord (x : LogicDie) (d : Ch) : LogicDie :=
  let cls := x.g F.FC_RECS_CLASS
  let x := x.closeRecord d
  if cls ≥ 2 ∧ ¬ x.is F.FC_CTRL_LOCKED ∧ ¬ x.is F.FC_CTRL_NORESUME then (x.p F.FC_CTRL_READY 1).propose else x

/-- RECORD_CLOSE (R305, R306, R310): QUIET after the last event with no active source of class 1 or above. -/
def execRecordClose (col : Option Ch) (t : Time) (s : State) : Host.Outcome State Fault Refusal :=
  match col with
  | some d =>
    .next (s.modDie d (fun x =>
      let x := x.at t
      if x.closes d then x.finishRecord d else x))
  | none =>
    .next (s.modHost (fun h =>
      let h := h.at t
      if h.closes then h.closeRecord else h))

/-- FC_RECCNT_WRITE (R308, R310): the written count wins over an increment of the same cycle, which still sets WRAP; bit 32
written 1 clears WRAP, but not one set in the same cycle (R13). `withClose`: a record closes in that cycle. -/
def execFcReccntWrite (col : Option Ch) (v : Word) (withClose : Bool) (t : Time) (s : State) :
    Host.Outcome State Fault Refusal :=
  match col with
  | some d =>
    .next (s.modDie d (fun x =>
      let x := x.at t
      let x := if v.toNat.testBit 32 then x.p F.FC_RECCNT_WRAP 0 else x
      let x := if withClose ∧ x.closes d then x.finishRecord d else x
      x.p F.FC_RECCNT_COUNT (v.toNat % 2 ^ 32)))
  | none =>
    .next (s.modHost (fun h =>
      let h := h.at t
      let h := if v.toNat.testBit 32 then h.p F.HFC_RECCNT_WRAP 0 else h
      let h := if withClose ∧ h.closes then h.closeRecord else h
      h.p F.HFC_RECCNT_COUNT (v.toNat % 2 ^ 32)))

/-! ### Notes (R299, R303, R325, R416) -/

/-- The first crosslink note that satisfies `p`, and the others. -/
def takeNote (p : XNote → Bool) : List XNote → Option (XNote × List XNote)
  | [] => none
  | n :: ns =>
    if p n then some (n, ns)
    else
      match takeNote p ns with
      | none => none
      | some (m, rest) => some (m, n :: rest)

/-- Take a note that die d has received over the crosslink. -/
def State.takeNote (s : State) (d : Ch) (p : XNote → Bool) : Option (XNote × State) :=
  match Machine.takeNote p (s.die d).xl.inbox with
  | none => none
  | some (n, rest) => some (n, s.modDie d (fun x => { x with xl := { x.xl with inbox := rest } }))

/-- A device-safe note arrives at a logic die: source 57 from the other die, 58 from the host die, forced where the note
shows FORCED (R299, R310, R416). -/
def LogicDie.takeFaultNote (x : LogicDie) (d : Ch) (src : Nat) (n : FaultNote) : LogicDie :=
  if n.devsafe then x.raiseAll d [⟨src, n.csrc, none, false, n.forced⟩] else x

/-- Receive-ring entry k of the host die: 1,040 bytes from BASE (R328). -/
def HostDie.ringAddr (h : HostDie) (k : Nat) : Nat := h.g F.HSTL_RXRING_BASE * 4096 + 1040 * k

/-- Bytes of host SRAM. -/
def pokeBytes (m : Sparse Byte) (a : Nat) : List Nat → Sparse Byte
  | [] => m
  | b :: bs => pokeBytes (Sparse.put (fun _ => 0#8) m a (BitVec.ofNat 8 b)) (a + 1) bs

/-- A byte of host SRAM. -/
def HostDie.byte (h : HostDie) (a : Nat) : Nat := (Sparse.get (fun _ => 0#8) h.mem a).toNat

/-- `n` bytes of host SRAM. -/
def HostDie.bytes (h : HostDie) (a n : Nat) : List Nat := (List.range n).map (fun i => h.byte (a + i))

/-- RESUME_PROPOSAL (R306): a die receives the other's proposal; an own proposal whose instant has passed is replaced. -/
def execResumeProposal (d : Ch) (t : Time) (s : State) : Host.Outcome State Fault Refusal :=
  let s := s.modDie d (·.at t)
  match s.takeNote d (fun n => match n with | .resume _ _ => true | _ => false) with
  | some (.resume number start, s) =>
    .next (s.modDie d (fun x =>
      let x := { x with fc := { x.fc with theirs := some (number, start) } }
      match x.fc.mine with
      | some (_, own) => if own ≤ t then x.propose else x
      | none => x))
  | _ => .next s

end Sys2Proof.Machine
end

