-- ==== Sys2Proof/Machine/PeMx.lean ====
section
/-! DEFINITION. Pattern engines (R246-R260) and the indicator matrix (R262-R266) on LA. -/

namespace Sys2Proof.Machine

/-! ### Engines -/

/-- An engine after a field restart (R247). -/
def PeSt.zero : PeSt := ⟨.stopped, [0, 0, 0, 0, 0, 0, 0, 0], 0xFF, [0, 0, 0, 0], false, 0, []⟩

/-- What LA keeps of engine e. -/
def LogicDie.pe (x : LogicDie) (e : Nat) : PeSt := Sparse.get (fun _ => PeSt.zero) x.pes e

/-- Replace what LA keeps of engine e. -/
def LogicDie.setPe (x : LogicDie) (e : Nat) (v : PeSt) : LogicDie :=
  { x with pes := Sparse.put (fun _ => PeSt.zero) x.pes e v }

/-- The presented vector of engine e (R246). -/
def LogicDie.presented (x : LogicDie) (e : Nat) : List Nat :=
  (List.range 8).map (fun i =>
    Word.bits (x.rd (if i < 4 then .PE_VECLO else .PE_VECHI) e) (16 * (i % 4) + 15) (16 * (i % 4)))

/-- Set the presented vector of engine e. -/
def LogicDie.present (x : LogicDie) (e : Nat) (v : List Nat) : LogicDie :=
  let word := fun (b : Nat) =>
    BitVec.ofNat 64 ((List.range 4).foldl (fun a i => a + (v.getD (b + i) 0 % 65536) * 2 ^ (16 * i)) 0)
  (x.wr .PE_VECLO e (word 0)).wr .PE_VECHI e (word 4)

/-- The engine has a tick at `t` (R248). -/
def LogicDie.peTicks (x : LogicDie) (e t : Nat) : Bool := t % ((x.g F.PE_CFG_TDIV e + 1) * 50000) == 0

/-- The engine is paused. -/
def LogicDie.pePaused (x : LogicDie) (e : Nat) : Bool := x.bit F.PE_CTRL_PAUSE e

/-- A SHIFT is pending. -/
def LogicDie.shiftPending (x : LogicDie) (e : Nat) : Bool :=
  match (x.pe e).mode with
  | .shift _ _ => true
  | _ => false

/-- The members that publish together with engine e: its shift group, or itself alone (R253). -/
def LogicDie.peGroup (x : LogicDie) (e : Nat) : List Nat :=
  if x.g F.PE_CFG_GROUP e = 0 then [e] else (List.range 8).filter (fun k => x.g F.PE_CFG_GROUP k == x.g F.PE_CFG_GROUP e)

/-- Engine e publishes its SHIFT at this tick (R248 step 1, R253). -/
def LogicDie.publishes (x : LogicDie) (e t : Nat) : Bool :=
  (x.peGroup e).all (fun k => x.peTicks k t && x.shiftPending k && !x.pePaused k)

/-- The shifted value of a vector (R251). -/
def shifted (down : Bool) (own src : List Nat) : List Nat :=
  if down then own.drop 1 ++ [src.getD 0 0] else src.getD 7 0 :: own.take 7

/-- Step 1 and 2 for one engine at its tick, from the presented vectors before the tick `old`. -/
def LogicDie.peStep12 (old : LogicDie) (t : Nat) (x : LogicDie) (e : Nat) : LogicDie :=
  if ¬ old.peTicks e t then x
  else
    match (old.pe e).mode with
    | .shift down link =>
      if old.publishes e t then
        let v := shifted down (old.presented e) (old.presented (if link then old.g F.PE_CFG_LINK e else e))
        (x.present e v).setPe e { old.pe e with mode := .running, work := v }
      else (x.present e (old.pe e).work).count F.PE_STAT_STALLT 1 e
    | _ => x.present e (old.pe e).work

/-- The bank, pc, mask, counters and working vector that a start or swap gives (R257). -/
def LogicDie.peFresh (x : LogicDie) (e : Nat) (m : PeMode) : LogicDie :=
  (x.p F.PE_STAT_PC 0 e).setPe e { x.pe e with
    mode := m, work := x.presented e, mask := 0xFF, cnt := [0, 0, 0, 0], start := false }

/-- A write of word i of a program bank of engine e, whose content was `old` (R254). -/
def LogicDie.peWrote (x : LogicDie) (e i : Nat) (old : Word) (p : Party) : LogicDie :=
  let q := x.pe e
  x.setPe e { q with wroteAt := x.now, wrote := (i, old, p) :: (if q.wroteAt = x.now then q.wrote else []) }

/-- The writes that arrived in the cycle of the swap that makes their bank active are access errors, discarded (R254). -/
def LogicDie.peUnwrite (x : LogicDie) (e : Nat) : LogicDie :=
  let q := x.pe e
  let late := if q.wroteAt = x.now then
      q.wrote.filter (fun w => w.1 / 16 % 2 == x.g F.PE_STAT_BANK e) else []
  let x := x.setPe e { q with wrote := [] }
  late.foldl (fun x w => (x.wr .PE_PROG w.1 w.2.1).accessError .la w.2.2 (regAddr .PE_PROG w.1)) x

/-- A swap takes effect (R254, R257): an engine whose RUN bit is 1 runs on in the new bank. -/
def LogicDie.peDoSwap (x : LogicDie) (e : Nat) : LogicDie :=
  let x := (x.p F.PE_STAT_BANK (1 - x.g F.PE_STAT_BANK e) e).peUnwrite e
  let x := (x.setB F.PE_CTRL_SWAP e false).setB F.PE_CTRL_FSWAP e false
  x.peFresh e (if x.bit F.PE_CTRL_RUN e then .running else .stopped)

/-- Step 3 for one engine (R248, R255, R256, R258): run changes first, then swaps, so that clearing RUN lets a SWAP
that waits on a pending SHIFT take effect in the same tick (DESIGN CHOICE, log 150). A paused engine with a SHIFT
pending does not stand at a boundary (DESIGN CHOICE, log 149). -/
def LogicDie.peStep3 (t : Nat) (x : LogicDie) (e : Nat) : LogicDie :=
  if ¬ x.peTicks e t then x
  else
    let pend := x.shiftPending e
    let x :=
      if ¬ x.bit F.PE_CTRL_RUN e then x.setPe e { x.pe e with mode := .stopped, start := false }
      else if (x.pe e).start then x.peFresh e .running
      else x
    if x.bit F.PE_CTRL_FSWAP e then
      let x := if pend then x.p F.PE_STAT_ABORT 1 e else x
      (x.p F.PE_STAT_ILL 0 e).peDoSwap e
    else if x.bit F.PE_CTRL_SWAP e ∧ ¬ x.shiftPending e then x.peDoSwap e
    else x

/-- A pattern-engine instruction (R249). -/
inductive PeInstr where
  | set (k : Nat)
  | ramp (k s : Nat)
  | mask (m : Nat)
  | shift (down link : Bool)
  | ldc (i n : Nat)
  | djnz (i a : Nat)
  | jmp (a : Nat)
  | wait (t : Nat)
  | waitF
  | waitP (f : Nat)
  | halt
  deriving DecidableEq, Repr

/-- Decode an engine word (R249); nothing for the words that R252 names. -/
def peDecode (w : Nat) : Option PeInstr :=
  let f := fun hi lo => bitsOf w hi lo
  match f 15 12 with
  | 1 => if f 7 0 = 0 then some (.set (f 11 8)) else none
  | 2 => some (.ramp (f 11 8) (f 7 0 + 1))
  | 3 => if f 11 8 = 0 then some (.mask (f 7 0)) else none
  | 4 => if f 9 0 = 0 then some (.shift (f 11 11 == 1) (f 10 10 == 1)) else none
  | 5 => if f 9 8 = 0 then some (.ldc (f 11 10) (f 7 0 + 1)) else none
  | 6 => if f 9 6 = 0 then some (.djnz (f 11 10) (f 5 0)) else none
  | 7 => if f 11 6 = 0 then some (.jmp (f 5 0)) else none
  | 8 => some (.wait (f 11 0 + 1))
  | 9 => if w = 0x9000 then some .waitF else if 0x9100 ≤ w ∧ w ≤ 0x9107 then some (.waitP (f 2 0)) else none
  | 14 => if f 11 0 = 0 then some .halt else none
  | _ => none

/-- A SHIFT with LINK needs a group that both engines share (R252). -/
def LogicDie.shiftLegal (x : LogicDie) (e : Nat) (link : Bool) : Bool :=
  !link || (x.g F.PE_CFG_GROUP e != 0 && x.g F.PE_CFG_GROUP (x.g F.PE_CFG_LINK e) == x.g F.PE_CFG_GROUP e)

/-- An illegal word (R252): ILL, halted, source 433 with the engine and the address. -/
def LogicDie.peIll (x : LogicDie) (e : Nat) : LogicDie :=
  let x := x.p F.PE_STAT_ILL 1 e
  let x := x.setPe e { x.pe e with mode := .halted }
  x.raise .la 433 (e + x.g F.PE_STAT_PC e * 8)

/-- A vector with the elements selected by the mask replaced. -/
def masked (m : Nat) (old : List Nat) (f : Nat → Nat → Nat) : List Nat :=
  old.mapIdx (fun i v => if m.testBit i then f i v else v)

/-- Step j of s of a RAMP from `old` to `lvl` (R250). -/
def rampStep (old lvl j s : Nat) : Nat := ((old : Int) + (((lvl : Int) - old) * j).tdiv s).toNat

/-- Execute one instruction whose word has been fetched: the next die state, and whether the step ends (R249). -/
def LogicDie.peExec (x : LogicDie) (e : Nat) (i : PeInstr) : LogicDie × Bool :=
  let q := x.pe e
  let pc := x.g F.PE_STAT_PC e
  let y := x.p F.PE_STAT_PC ((pc + 1) % 64) e
  match i with
  | .set k => (y.setPe e { q with work := masked q.mask q.work (fun _ _ => x.g F.PE_LVL_LEVEL k) }, true)
  | .ramp k s =>
    (y.setPe e { q with
      mode := .ramp k s 1 q.work
      work := masked q.mask q.work (fun _ v => rampStep v (x.g F.PE_LVL_LEVEL k) 1 s) }, true)
  | .mask m => (y.setPe e { q with mask := m }, false)
  | .shift down link =>
    if x.shiftLegal e link then ((y.p F.PE_STAT_STALLT 0 e).setPe e { q with mode := .shift down link }, true)
    else (x.peIll e, true)
  | .ldc i n => (y.setPe e { q with cnt := q.cnt.set i n }, false)
  | .djnz i a =>
    let c := q.cnt.getD i 0 - 1
    let y := y.setPe e { q with cnt := q.cnt.set i c }
    (if c > 0 then y.p F.PE_STAT_PC a e else y, false)
  | .jmp a => (y.p F.PE_STAT_PC a e, false)
  | .wait n => (y.setPe e { q with mode := .wait n }, true)
  | .waitF => (y.setPe e { q with mode := .waitF false }, true)
  | .waitP f => (y.setPe e { q with mode := .waitP f false }, true)
  | .halt => (y.setPe e { q with mode := .halted }, true)

/-- The word that engine e fetches. -/
def LogicDie.peFetch (x : LogicDie) (e : Nat) : Nat :=
  let pc := x.g F.PE_STAT_PC e
  Word.bits (x.rd .PE_PROG (e * 32 + x.g F.PE_STAT_BANK e * 16 + pc / 4)) (16 * (pc % 4) + 15) (16 * (pc % 4))

/-- Up to `fuel` instructions of one step (R248 step 4). -/
def LogicDie.peRunStep (x : LogicDie) (e : Nat) : Nat → LogicDie
  | 0 => x
  | fuel + 1 =>
    match peDecode (x.peFetch e) with
    | none => x.peIll e
    | some i =>
      let r := x.peExec e i
      if r.2 then r.1 else LogicDie.peRunStep r.1 e fuel

/-- What a waiting or ramping engine becomes at its tick (R249, R250). -/
def LogicDie.peResume (x : LogicDie) (e : Nat) : LogicDie :=
  let q := x.pe e
  match q.mode with
  | .wait n => x.setPe e { q with mode := if n ≤ 1 then .running else .wait (n - 1) }
  | .ramp k s j old =>
    if j < s then
      x.setPe e { q with
        mode := .ramp k s (j + 1) old
        work := masked q.mask q.work (fun i _ => rampStep (old.getD i 0) (x.g F.PE_LVL_LEVEL k) (j + 1) s) }
    else x.setPe e { q with mode := .running }
  | .waitF true => x.setPe e { q with mode := .running }
  | .waitP _ true => x.setPe e { q with mode := .running }
  | _ => x

/-- Step 4 for one engine (R248). -/
def LogicDie.peStep4 (t : Nat) (x : LogicDie) (e : Nat) : LogicDie :=
  if ¬ x.peTicks e t ∨ x.pePaused e then x
  else
    let x := x.peResume e
    if (x.pe e).mode = .running then x.peRunStep e 16 else x

/-- One tick of all engines (R248). -/
def LogicDie.peTickAll (x : LogicDie) (t : Nat) : LogicDie :=
  let es := List.range 8
  let x := es.foldl (x.peStep12 t) x
  let x := es.foldl (LogicDie.peStep3 t) x
  es.foldl (LogicDie.peStep4 t) x

/-- PE_TICK (R248). -/
def execPeTick (t : Time) (s : State) : Host.Outcome State Fault Refusal :=
  .next (s.modDie .la (fun x => (x.at t).peTickAll t))

/-- One engine instruction, executed as step 4 executes it: by a running engine that is not paused. -/
def runPe (e : Fin 8) (i : PeInstr) (t : Time) (s : State) : Host.Outcome State Fault Refusal :=
  .next (s.modDie .la (fun x =>
    let x := x.at t
    if (x.pe e.val).mode = .running ∧ ¬ x.pePaused e.val then (x.peExec e.val i).1 else x))

/-- SET (R249). -/
def execPeSet (e : Fin 8) (k : Fin 16) (t : Time) (s : State) : Host.Outcome State Fault Refusal :=
  runPe e (.set k.val) t s

/-- RAMP (R250); `s1` is s - 1. -/
def execPeRamp (e : Fin 8) (k : Fin 16) (s1 : Fin 256) (t : Time) (s : State) : Host.Outcome State Fault Refusal :=
  runPe e (.ramp k.val (s1.val + 1)) t s

/-- MASK (R249). -/
def execPeMask (e : Fin 8) (m : Fin 256) (t : Time) (s : State) : Host.Outcome State Fault Refusal :=
  runPe e (.mask m.val) t s

/-- SHIFT (R251, R253). -/
def execPeShift (e : Fin 8) (down link : Bool) (t : Time) (s : State) : Host.Outcome State Fault Refusal :=
  runPe e (.shift down link) t s

/-- LDC (R249); `n1` is n - 1. -/
def execPeLdc (e : Fin 8) (i : Fin 4) (n1 : Fin 256) (t : Time) (s : State) : Host.Outcome State Fault Refusal :=
  runPe e (.ldc i.val (n1.val + 1)) t s

/-- DJNZ (R249). -/
def execPeDjnz (e : Fin 8) (i : Fin 4) (a : Fin 64) (t : Time) (s : State) : Host.Outcome State Fault Refusal :=
  runPe e (.djnz i.val a.val) t s

/-- JMP (R249). -/
def execPeJmp (e : Fin 8) (a : Fin 64) (t : Time) (s : State) : Host.Outcome State Fault Refusal :=
  runPe e (.jmp a.val) t s

/-- WAIT (R249); `t1` is t - 1. -/
def execPeWait (e : Fin 8) (t1 : Fin 4096) (t : Time) (s : State) : Host.Outcome State Fault Refusal :=
  runPe e (.wait (t1.val + 1)) t s

/-- WAITF (R249, R260). -/
def execPeWaitf (e : Fin 8) (t : Time) (s : State) : Host.Outcome State Fault Refusal := runPe e .waitF t s

/-- WAITP (R249). -/
def execPeWaitp (e : Fin 8) (f : Fin 8) (t : Time) (s : State) : Host.Outcome State Fault Refusal :=
  runPe e (.waitP f.val) t s

/-- HALT (R249). -/
def execPeHalt (e : Fin 8) (t : Time) (s : State) : Host.Outcome State Fault Refusal := runPe e .halt t s

/-- A write of the RUN bit of engine e (R258); it takes effect at the engine's next tick. -/
def LogicDie.peSetRun (x : LogicDie) (e : Nat) (on : Bool) : LogicDie :=
  let rise := on && !x.bit F.PE_CTRL_RUN e
  let x := x.setB F.PE_CTRL_RUN e on
  if rise then x.setPe e { x.pe e with start := true } else x

/-- SWAP (R255): the request bit. -/
def execPeSwap (e : Fin 8) (t : Time) (s : State) : Host.Outcome State Fault Refusal :=
  .next (s.modDie .la (fun x => (x.at t).setB F.PE_CTRL_SWAP e.val true))

/-- FSWAP (R256): the request bit. -/
def execPeFswap (e : Fin 8) (t : Time) (s : State) : Host.Outcome State Fault Refusal :=
  .next (s.modDie .la (fun x => (x.at t).setB F.PE_CTRL_FSWAP e.val true))

/-- RUN (R258). -/
def execPeRun (e : Fin 8) (on : Bool) (t : Time) (s : State) : Host.Outcome State Fault Refusal :=
  .next (s.modDie .la (fun x => (x.at t).peSetRun e.val on))

/-- PAUSE (R258). -/
def execPePause (e : Fin 8) (on : Bool) (t : Time) (s : State) : Host.Outcome State Fault Refusal :=
  .next (s.modDie .la (fun x => (x.at t).setB F.PE_CTRL_PAUSE e.val on))

/-- A commit ends (R249): engines in WAITF resume at their next tick. -/
def LogicDie.peCommit (x : LogicDie) : LogicDie :=
  (List.range 8).foldl (fun x e =>
    match (x.pe e).mode with
    | .waitF _ => x.setPe e { x.pe e with mode := .waitF true }
    | _ => x) x

/-- An on-phase of profile f starts (R249): engines in WAITP f resume at their next tick. -/
def LogicDie.pePhase (x : LogicDie) (f : Nat) : LogicDie :=
  (List.range 8).foldl (fun x e =>
    match (x.pe e).mode with
    | .waitP g _ => if g = f then x.setPe e { x.pe e with mode := .waitP g true } else x
    | _ => x) x

/-- ACTIVE clears (R259): every engine stops with both vectors 0. A software write of RUN at this instant stands (R13). -/
def LogicDie.peClear (x : LogicDie) : LogicDie :=
  let x := if x.softWrote .PE_CTRL 0 then x else x.p F.PE_CTRL_RUN 0
  (List.range 8).foldl (fun x e => (x.present e []).setPe e { x.pe e with
    mode := .stopped, work := [0, 0, 0, 0, 0, 0, 0, 0], start := false }) x

/-- PE_STATe.STATE as it reads (R267). -/
def LogicDie.peState (x : LogicDie) (e : Nat) : Nat :=
  if x.pePaused e then 7
  else
    match (x.pe e).mode with
    | .stopped => 0
    | .running => 1
    | .wait _ => 2
    | .ramp _ _ _ _ => 3
    | .shift _ _ => 4
    | .waitF _ => 5
    | .waitP _ _ => 5
    | .halted => 6

/-! ### The indicator matrix -/

/-- A field of the matrix configuration in force. -/
def LogicDie.mxCfg (x : LogicDie) (f : Fld) : Nat := Word.bits x.mx.cfg f.hi f.lo

/-- A MX_CFG value has every field in range (R263, R268). -/
def mxCfgOk (v : Word) : Bool :=
  let f := fun (f : Fld) => Word.bits v f.hi f.lo
  decide (250 ≤ f F.MX_CFG_FPER) && decide (f F.MX_CFG_FPER ≤ 10000) && decide (8 ≤ f F.MX_CFG_BLANK) &&
    decide (f F.MX_CFG_BLANK ≤ 200) && decide (1 ≤ f F.MX_CFG_ICOL) && decide (f F.MX_CFG_ICOL ≤ 60) &&
    decide (f F.MX_CFG_VPRE ≤ 150) && Word.bits v 63 41 == 0

/-- A write of MX_CFG (R263). -/
def LogicDie.mxWriteCfg (x : LogicDie) (d : Ch) (p : Party) (v : Word) : LogicDie :=
  if mxCfgOk v then { x.wr .MX_CFG 0 v with mx := { x.mx with next := some v } }
  else x.accessError d p (regAddr .MX_CFG 0)

/-- MX_CFG_WRITE (R263). -/
def execMxCfgWrite (party : Party) (v : Word) (t : Time) (s : State) : Host.Outcome State Fault Refusal :=
  .next (s.modDie .la (fun x => (x.at t).mxWriteCfg .la party v))

/-- FLIP (R263). -/
def execMxFlip (t : Time) (s : State) : Host.Outcome State Fault Refusal :=
  .next (s.modDie .la (fun x => (x.at t).p F.MX_CTRL_FLIP 1))

/-- A write of MX_CTRL.EN (R264, R268): the frame count restarts at a rise; clearing blanks. -/
def LogicDie.mxEnable (x : LogicDie) (on : Bool) : LogicDie :=
  if on then (if x.is F.MX_CTRL_EN then x else (x.p F.MX_CTRL_EN 1).p F.MX_FRAME_COUNT 0)
  else (x.p F.MX_CTRL_EN 0).p F.MX_CTRL_BLANKED 1

/-- A dark condition of R229 holds: a channel is safe, FRST is held, or LA_LAMP is not ON. -/
def State.lampsMustBeDark (s : State) : Bool :=
  s.la.is F.FOLD_STATUS_SAFE || s.lb.is F.FOLD_STATUS_SAFE || s.la.pw.frstOn || s.lb.pw.frstOn ||
    s.la.g F.PWR_DOM_STATE 4 != domOn

/-- Both logic dies reach the instant `t`. -/
def State.diesAt (s : State) (t : Nat) : State := (s.modDie .la (·.at t)).modDie .lb (·.at t)

/-- A lamp-link frame reaches PD1 (R228, R264): its view of the matrix follows LA. -/
def State.lampFrame (s : State) : State :=
  let s := s.modDie .la (fun x => { x with mx := { x.mx with linkOff := false } })
  s.modDie .lb (fun x => (x.p F.MX_DRVSTAT_BLANKED (s.la.g F.MX_CTRL_BLANKED)).p F.MX_DRVSTAT_TIMEOUT 0)

/-- The matrix may be driven (R264): ACTIVE and no dark condition, EN, P1_LAMP ON, lamp-link frames arriving. -/
def State.mxLit (s : State) : Bool :=
  s.la.is F.LMP_CTRL_ACTIVE && !s.lampsMustBeDark && s.la.is F.MX_CTRL_EN && s.lb.g F.PWR_DOM_STATE 7 == domOn && !s.la.mx.linkOff

/-- A frame has ended (R265): a column that failed in it is armed, one that passed is not, one not observed stays. -/
def MxSt.columns (q : MxSt) : MxSt :=
  { q with armCol := Nat.lor (q.armCol - Nat.land q.armCol q.colSeen) q.colFail, colSeen := 0, colFail := 0 }

/-- What one frame is drawn from reaches PD1 (R262, R263): configuration and front buffer; a matrix that is not
blanked is driven from the frame start on. -/
def LogicDie.drawFrame (x : LogicDie) (la : LogicDie) (t : Nat) : LogicDie :=
  if la.is F.MX_CTRL_BLANKED then x
  else
    let image := (List.range 64).foldl (fun m w =>
      Sparse.put (fun _ => 0#64) m w (la.rd .MX_FB (la.g F.MX_CTRL_FRONT * 64 + w))) []
    { x.p F.MX_DRVSTAT_BLANKED 0 with mx := { x.mx with
        cfg := la.mx.cfg, image := image
        drawn := if x.is F.MX_DRVSTAT_BLANKED then some t else some (x.mx.drawn.getD t) } }

/-- FRAME_START (R262-R265): a pending flip and configuration are applied, the matrix unblanks where it may, the frame
counts, and PD1 draws it. -/
def execFrameStart (t : Time) (s : State) : Host.Outcome State Fault Refusal :=
  let starts := decide (t % (s.la.mxCfg F.MX_CFG_FPER * 1000) = 0)
  let lit := (s.diesAt t).mxLit
  let s := s.modDie .la (fun x =>
    let x := x.at t
    if t % (x.mxCfg F.MX_CFG_FPER * 1000) ≠ 0 then x
    else
      let x := if x.is F.MX_CTRL_FLIP then
          (x.p F.MX_CTRL_FLIP 0).p F.MX_CTRL_FRONT (1 - x.g F.MX_CTRL_FRONT) else x
      let x := match x.mx.next with
        | some v => { x with mx := { x.mx with cfg := v, next := none } }
        | none => x
      let x := { x with mx := x.mx.columns }
      let x := x.p F.MX_CTRL_BLANKED (b2n (!lit))
      if lit then x.p F.MX_FRAME_COUNT ((x.g F.MX_FRAME_COUNT + 1) % 2 ^ 32) else x)
  .next (if starts then s.modDie .lb (fun x => (x.at t).drawFrame s.la t) else s)

/-- The line slot in ns (R262): rounded down to a multiple of 25 ns. -/
def LogicDie.mxSlot (x : LogicDie) : Nat :=
  ((x.mxCfg F.MX_CFG_FPER * 1000 - 8000 * x.mxCfg F.MX_CFG_NBTEST) / (x.mxCfg F.MX_CFG_LINES + 1)) / 25 * 25

/-- Pixel c of line l in a word of a frame buffer (R263, R268). -/
def pixelOf (w : Word) (c : Nat) : Nat := Word.bits w (8 * (c % 8) + 7) (8 * (c % 8))

/-- The pixel of line l and column c in the front buffer (R263, R268). -/
def LogicDie.pixel (x : LogicDie) (l c : Nat) : Nat :=
  pixelOf (x.rd .MX_FB (x.g F.MX_CTRL_FRONT * 64 + 4 * l + c / 8)) c

/-- The on-time of a pixel in ns (R262). -/
def LogicDie.pixelOn (x : LogicDie) (p : Nat) : Nat :=
  (p * (x.mxSlot - x.mxCfg F.MX_CFG_BLANK * 25) / 255) / 25 * 25

/-- One observation of a check (R265): the armed bit and the finding bit at `b` of MX_STAT; source 434 at an entry. -/
def LogicDie.mxObserve (x : LogicDie) (fail armed : Bool) (b : Nat) : LogicDie :=
  if fail && armed && !((x.rd .MX_STAT).toNat.testBit b) then
    (x.wr .MX_STAT 0 (Word.setBits (x.rd .MX_STAT) b b 1)).raise .la 434 b
  else x

/-- The end of the slot of line l (R262). -/
def LogicDie.slotEnd (x : LogicDie) (l t : Nat) : Bool :=
  let frame := x.mxCfg F.MX_CFG_FPER * 1000
  decide (t % frame = ((l + 1) * x.mxSlot) % frame)

/-- The line whose slot holds the instant t of a frame, with the offset of t in the slot; nothing in the test gap (R262). -/
def LogicDie.lineAt (x : LogicDie) (t : Nat) : Option (Nat × Nat) :=
  let at_ := t % (x.mxCfg F.MX_CFG_FPER * 1000)
  let l := at_ / x.mxSlot
  if l ≤ x.mxCfg F.MX_CFG_LINES then some (l, at_ % x.mxSlot) else none

/-- Line l is on at t by the table One line slot: from TB to the end of its slot, unless its overcurrent trip has
turned it off for the rest of that slot (R262, R265). -/
def LogicDie.lineOn (x : LogicDie) (l t : Nat) : Bool :=
  (x.lineAt t).any (fun p => decide (p.1 = l) && decide (x.mxCfg F.MX_CFG_BLANK * 25 ≤ p.2)) &&
    decide (Sparse.get (fun _ => 0) x.mx.tripTill l ≤ t)

/-- Column c sinks at t by the table One line slot (R262), from the frame that PD1 draws. -/
def LogicDie.sinkOn (x : LogicDie) (c t : Nat) : Bool :=
  (x.lineAt t).any (fun p =>
    let tb := x.mxCfg F.MX_CFG_BLANK * 25
    let px := pixelOf (Sparse.get (fun _ => 0#64) x.mx.image (4 * p.1 + c / 8)) c
    decide (tb ≤ p.2) && decide (p.2 < tb + x.pixelOn px))

/-- A line's overcurrent trip is observed (R265): the finding at the second in a row, else the check is armed; none
disarms it. -/
def LogicDie.tripSeen (x : LogicDie) (l : Nat) (trip : Bool) : LogicDie :=
  let x := x.mxObserve trip (x.mx.armOcp.testBit l) l
  { x with mx := { x.mx with armOcp := setBits x.mx.armOcp l l (b2n trip) } }

/-- PD1 turns line l off at t for the rest of its slot, which ends at `till` (R265). -/
def LogicDie.lineTripped (x : LogicDie) (l till : Nat) : LogicDie :=
  { x.p F.MX_LINE_TRIP 1 l with mx := { x.mx with tripTill := Sparse.put (fun _ => 0) x.mx.tripTill l till } }

/-- LINE_SLOT (R262, R265): the sense reports of the slot of line l at its end: its overcurrent trip, the columns
below 80 % of ICOL, the lines above 5 V in its blanking interval. A column fails in a frame in which one of its pixels
does. An overcurrent trip may be reported at its own instant, while the line is on: the line is off from then to the
end of the slot. -/
def execLineSlot (l : Fin 16) (trip : Bool) (below : BitVec 32) (high : BitVec 16) (t : Time) (s : State) :
    Host.Outcome State Fault Refusal :=
  let lit := !(s.la.at t).is F.MX_CTRL_BLANKED
  let acts := lit && decide (l.val ≤ s.la.mxCfg F.MX_CFG_LINES) && s.la.slotEnd l.val t
  let trips := lit && trip && s.lb.lineOn l.val t && !acts
  let early := decide (0 < t) && Sparse.get (fun _ => 0) s.lb.mx.tripTill l.val == t
  if trips then
    let off := ((s.lb.lineAt t).getD (0, 0)).2
    let s := s.modDie .lb (fun x => (x.at t).lineTripped l.val (t + (x.mxSlot - off)))
    .next (s.modDie .la (fun x => (x.at t).tripSeen l.val true))
  else
  let s := if acts ∧ ¬ early then s.modDie .lb (fun x => (x.at t).p F.MX_LINE_TRIP (b2n trip) l.val) else s
  .next (s.modDie .la (fun x =>
    let x := x.at t
    if ¬ acts then x
    else
      let x := if early then x else x.tripSeen l.val trip
      let x := (List.range 32).foldl (fun x c =>
        if x.pixelOn (x.pixel l.val c) < 2000 then x
        else
          let x := x.mxObserve (below.getLsbD c) (x.mx.armCol.testBit c) (16 + c)
          { x with mx := { x.mx with
            colSeen := setBit x.mx.colSeen c
            colFail := if below.getLsbD c then setBit x.mx.colFail c else x.mx.colFail } }) x
      (List.range 16).foldl (fun x m =>
        if m = l.val then x
        else
          let x := x.mxObserve (high.getLsbD m) (x.mx.armHi.testBit m) (48 + m)
          { x with mx := { x.mx with armHi := setBits x.mx.armHi m m (b2n (high.getLsbD m)) } }) x))

/-- An instant of the last 1 µs of the injection in the test gap (R266). -/
def LogicDie.inGap (x : LogicDie) (t : Nat) : Bool :=
  let at_ := t % (x.mxCfg F.MX_CFG_FPER * 1000)
  let gap := (x.mxCfg F.MX_CFG_LINES + 1) * x.mxSlot
  decide (gap + 6000 ≤ at_ ∧ at_ ≤ gap + 7000)

/-- MATRIX_NEIGHBOUR_TEST (R266): pair q = f mod 46 in the test gap of frame f; the reading in 10 mV. Nothing is
tested while the matrix is blanked (DESIGN CHOICE, log 151). -/
def execMatrixNeighbourTest (volt : Fin 65536) (t : Time) (s : State) : Host.Outcome State Fault Refusal :=
  .next (s.modDie .la (fun x =>
    let x := x.at t
    let f := t / (x.mxCfg F.MX_CFG_FPER * 1000)
    if x.is F.MX_CTRL_BLANKED ∨ x.mxCfg F.MX_CFG_NBTEST = 0 ∨ ¬ x.inGap t ∨ x.mx.tested = some f then x
    else
      let q := f % 46
      let x := { x with mx := { x.mx with tested := some f } }
      let fail := decide (volt.val > 100)
      let armed := x.mx.armNb.testBit q
      let x := { x with mx := { x.mx with armNb := setBits x.mx.armNb q q (b2n fail) } }
      if ¬ fail then x.setB F.MX_NBSHORT_PAIRS q false
      else if armed ∧ ¬ x.bit F.MX_NBSHORT_PAIRS q then (x.setB F.MX_NBSHORT_PAIRS q true).raise .la 434 (64 + q)
      else x))

end Sys2Proof.Machine
end

