-- ==== Sys2Proof/Machine/Lmp.lean ====
section
/-! DEFINITION. Signal lamps (08): brightness and range at a period start (R225, R226), stage findings (R227), dark
conditions (R228, R229), aspects and flash profiles (R230-R233), checks and proof on LB (R235-R238), optical sense
(R241), colour loops (R243), the neighbour test (R244). -/

namespace Sys2Proof.Machine

/-- A string that no aspect has lit. -/
def LampSt.zero : LampSt := ⟨0, false, 0, 0, 0, none, none, false, true, 0, none⟩

/-- What a die keeps of string n. -/
def LogicDie.lamp (x : LogicDie) (n : Nat) : LampSt := Sparse.get (fun _ => LampSt.zero) x.lamps n

/-- Replace what a die keeps of string n. -/
def LogicDie.setLamp (x : LogicDie) (n : Nat) (v : LampSt) : LogicDie :=
  { x with lamps := Sparse.put (fun _ => LampSt.zero) x.lamps n v }

/-! ### Aspect entries (R230) -/

/-- The fields of an aspect entry. -/
def entB (e : Nat) : Nat := bitsOf e 15 0
def entMode (e : Nat) : Nat := bitsOf e 17 16
def entRange (e : Nat) : Nat := bitsOf e 19 18
def entSel (e : Nat) : Nat := bitsOf e 22 20
def entProof (e : Nat) : Bool := bitsOf e 23 23 == 1
def entCt (e : Nat) : Nat := bitsOf e 31 24

/-- The entry of string n in aspect a. -/
def LogicDie.aspEntry (x : LogicDie) (a n : Nat) : Nat :=
  x.g (if n % 2 = 0 then F.LMP_ASP_ENTRY_LO else F.LMP_ASP_ENTRY_HI) (a * 24 + n / 2)

/-- The entry of string n in the displayed aspect: dark and unproven where that is undefined (R231). -/
def LogicDie.dispEntry (x : LogicDie) (n : Nat) : Nat :=
  if x.is F.LMP_DISP_DEFINED then x.aspEntry (x.g F.LMP_DISP_ASP) n else 0

/-- Flash profile f is in its on-phase at `t` (R232). -/
def LogicDie.flashOn (x : LogicDie) (f t : Nat) : Bool :=
  let period := x.g F.LMP_FLASH_PERIOD f * 2000000
  period != 0 &&
    decide (((t : Int) - 1000000 - x.g F.LMP_FLASH_PHASE f * 2000000) % (period : Int) < x.g F.LMP_FLASH_ON f * 2000000)

/-- A string with entry `e` is lit in the phase `on` of its profile. -/
def entLit (e : Nat) (on : Bool) : Bool :=
  match entMode e with
  | 1 => true
  | 2 => on
  | 3 => true
  | _ => false

/-- The full-scale current of a range in µA (R223). -/
def fullScale (range : Nat) : Nat := match range with | 0 => 15000 | 1 => 50000 | _ => 150000

/-- The settling interval in ns (R236). -/
def LogicDie.settle (x : LogicDie) : Nat := x.g F.LMP_TCFG_SETTLE * 10000

/-- The members of the colour loop of OSk (R243): an input with EN 0 is not used and closes none (DESIGN CHOICE, log 129). -/
def LogicDie.members (x : LogicDie) (k : Nat) : List Nat :=
  if x.is F.LMP_OSCFG_EN k then
    [x.g F.LMP_OSCFG_S0 k, x.g F.LMP_OSCFG_S1 k, x.g F.LMP_OSCFG_S2 k].filter (fun n => decide (n < 48))
  else []

/-- String n is held dark at t, in the interval of a colour loop that measures another of its members (R243). -/
def LogicDie.loopDark (x : LogicDie) (n t : Nat) : Bool :=
  let s := t % 2000000
  decide (10000 ≤ s ∧ s < 90000) && (List.range 8).any (fun k =>
    let ms := x.members k
    ms.contains n && ms[t / 2000000 % ms.length]? != some n)

/-- The trim limit in percent of the colour loop that holds string n, 0 for none (R234, R235). -/
def LogicDie.trimMax (x : LogicDie) (n : Nat) : Nat :=
  match (List.range 8).find? (fun k => (x.members k).contains n) with
  | some k => x.g F.LMP_OSCFG_TRIM k
  | none => 0

/-! ### Proof (R238) -/

/-- The strings with PROOF set in the displayed aspect. -/
def LogicDie.proofStrings (x : LogicDie) : List Nat := (List.range 48).filter (fun n => entProof (x.dispEntry n))

/-- The proof of the displayed aspect is lost (R238): it stays unproven until another aspect is displayed. -/
def LogicDie.proofLost (x : LogicDie) (cause source : Nat) : LogicDie :=
  if x.is F.LMP_PROOF_PROVEN then
    (((x.p F.LMP_PROOF_PROVEN 0).p F.LMP_PROOF_FAILED 1).p F.LMP_PROOF_CAUSE cause).p F.LMP_PROOF_SOURCE source
  else x

/-- The strings of lamp pair q (R244). -/
def pairLow (q : Nat) : Nat := if q < 23 then q else q + 1

/-- The lamp pairs indicated as shorted that contain a PROOF string. -/
def LogicDie.nbHit (x : LogicDie) : Option Nat :=
  (List.range 46).find? (fun q => x.bit F.LMP_NBSHORT_PAIRS q &&
    (x.proofStrings.contains (pairLow q) || x.proofStrings.contains (pairLow q + 1)))

/-- The displayed aspect becomes proven on LB where R238 lets it; what then holds against it takes the proof away at
once. -/
def LogicDie.tryProve (x : LogicDie) : LogicDie :=
  let ps := x.proofStrings
  let loops := (List.range 8).filter (fun k => x.is F.LMP_OSCFG_OPROOF k && (x.members k).any (fun n => ps.contains n))
  if x.is F.LMP_PROOF_PROVEN ∨ x.is F.LMP_PROOF_FAILED ∨ ps = [] ∨ ¬ ps.all (fun n => decide ((x.lamp n).passes ≥ 2)) ∨
      ¬ loops.all (fun k => x.lampSide.osPass.testBit k) then x
  else
    let x := x.p F.LMP_PROOF_PROVEN 1
    match x.nbHit with
    | some q => x.proofLost 8 (if ps.contains (pairLow q) then pairLow q else pairLow q + 1)
    | none => if x.g F.PWR_DOM_STATE 4 = domOn then x else x.proofLost 9 0x3F

/-- The proof code of each aspect as LB's exchange frame carries it (R239): two bits each. -/
def LogicDie.proofCodes (x : LogicDie) : Nat :=
  (List.range 64).foldl (fun v a =>
    v + codeOf (x.is F.LMP_PROOF_PROVEN && x.g F.LMP_PROOF_ASP == a) * 4 ^ a) 0

/-! ### Display and darkness (R229, R231) -/

/-- The aspect number `a` is displayed from `t` (R231, R238); a lost proof stays lost until another aspect is displayed. -/
def LogicDie.display (x : LogicDie) (d : Ch) (a t : Nat) : LogicDie :=
  let def_ := x.is F.LMP_CTRL_ACTIVE && x.bit F.LMP_ADEF_DEF a
  let same := decide (x.g F.LMP_DISP_ASP = a) && (x.is F.LMP_DISP_DEFINED == def_)
  let x := (x.p F.LMP_DISP_ASP a).p F.LMP_DISP_DEFINED (b2n def_)
  if same then x
  else
    let x := { x with lampSide := { x.lampSide with dispAt := t, osPass := 0 } }
    let x := (List.range 48).foldl (fun x n => x.setLamp n { x.lamp n with passes := 0, lastAlive := none }) x
    if d = .la then x
    else if x.g F.LMP_PROOF_ASP = a then x.p F.LMP_PROOF_PROVEN 0
    else x.wr .LMP_PROOF 0 (BitVec.ofNat 64 (a + 0x3F * 2 ^ 12))

/-- Every stage that a die commands is off (R229): LA's own stages and views; the stages on PD1 are in LB's registers. -/
def LogicDie.stagesOff (x : LogicDie) : LogicDie :=
  (List.range 24).foldl (fun x n => x.wr .LMP_STG n 0#64) x

/-- ACTIVE clears (R229, R259, R264): selections end, strings are dark, engines stop, the matrix is blanked. -/
def LogicDie.lampsDark (x : LogicDie) (d : Ch) (t : Nat) : LogicDie :=
  let x := (x.p F.LMP_CTRL_ACTIVE 0).p F.LMP_DISP_DEFINED 0
  let x := x.stagesOff
  let x := (List.range 48).foldl (fun x n =>
    let q := x.lamp n
    let x := if q.entry = 0 then x else x.setLamp n { q with entry := 0, onPhase := false, stateAt := t, onCur := 0, hold := none }
    x.p F.LMP_STAT_BEFF 0 n) x
  if d = .la then (x.peClear).p F.MX_CTRL_BLANKED 1 else x.p F.LMP_PROOF_PROVEN 0

/-- LAMP_DARKENING (R229): within 10 µs of entering a dark condition. -/
def execLampDarkening (t : Time) (s : State) : Host.Outcome State Fault Refusal :=
  let s := s.diesAt t
  .next (if s.lampsMustBeDark then (s.modDie .la (·.lampsDark .la t)).modDie .lb (·.lampsDark .lb t) else s)

/-- LAMP_LINK_FAULT (R228): a second miss of the same lamp-link frame. -/
def execLampLinkFault (frame : Nat) (t : Time) (s : State) : Host.Outcome State Fault Refusal :=
  .next (s.modDie .la (fun x => (x.at t).raise .la 56 frame))

/-- LAMP_LINK_TIMEOUT (R228, R264): PD1 turns its stages off and blanks the matrix. -/
def execLampLinkTimeout (t : Time) (s : State) : Host.Outcome State Fault Refusal :=
  let s := s.modDie .lb (fun x => (((x.at t).stagesOff).p F.MX_DRVSTAT_BLANKED 1).p F.MX_DRVSTAT_TIMEOUT 1)
  .next (s.modDie .la (fun x => { (x.at t).p F.MX_CTRL_BLANKED 1 with mx := { x.mx with linkOff := true } }))

/-! ### Period starts (R224-R227, R231, R233) -/

/-- LMP_MEASn.TRIM as a signed number of 1/1024. -/
def LogicDie.trim (x : LogicDie) (n : Nat) : Int := (BitVec.ofNat 16 (x.g F.LMP_MEAS_TRIM n)).toInt

/-- The offset of t in the dimming period of string n in ns, and the number of that period (R224). -/
def dimmingOffset (n t : Nat) : Nat := (t + 50000 - (n % 8) * 6250) % 50000

def dimmingPeriod (n t : Nat) : Nat := (t + 50000 - (n % 8) * 6250) / 50000

/-- The kind of check of a string with entry `e` in phase `on` (R235). -/
def checkKind (e : Nat) (on : Bool) : Nat := if entMode e = 3 then 3 else if entLit e on then 1 else 2

/-- What a string takes at its period start on a die (R225, R226, R231, R236): entry, phase, mode and range, with the
brightness code `b` that it is to carry. A change of check kind clears PEND (R237). -/
def LogicDie.periodStart (x : LogicDie) (n t b : Nat) : LogicDie :=
  let q := x.lamp n
  let e := x.dispEntry n
  let on := entMode e == 2 && x.flashOn (entSel e) t
  let lit := entLit e on
  let changed := decide (e ≠ q.entry) || (on != q.onPhase)
  let wasLit := decide (q.onCur ≠ 0)
  let pulse := if x.is F.LMP_STAT_PULSE n then decide (b < 4096) else decide (b < 3968)
  let b' := if lit then b else 0
  let cur := if b' = 0 then 0 else fullScale (entRange e) * (if pulse then 4096 else b')
  let hold := if wasLit ∧ cur ≠ 0 ∧ entRange e ≠ x.g F.LMP_STAT_RANGE n then some (t + 20000, min q.onCur cur) else none
  let x := if lit then (x.p F.LMP_STAT_PULSE (b2n pulse) n).p F.LMP_STAT_RANGE (entRange e) n else x
  let x := x.p F.LMP_STAT_BEFF b' n
  let x := if q.kind = checkKind e on then x else x.p F.LMP_STAT_PEND 0 n
  x.setLamp n { q with
    kind := checkKind e on
    entry := e, onPhase := on, stateAt := if changed then t else q.stateAt, onCur := cur, hold := hold
    wasDark := !lit
    stopped := q.stopped && !(lit && q.wasDark && !x.is F.LMP_STAT_OVT n) }

/-- The setpoint of SLn's stage on its power die (R228). -/
def State.setStage (s : State) (n b mode range : Nat) : State :=
  s.modDie (if n < 24 then .la else .lb) (fun x =>
    ((x.p F.LMP_STG_B b (n % 24)).p F.LMP_STG_MODE mode (n % 24)).p F.LMP_STG_RANGE range (n % 24))

/-- The stage of SLn is off whatever its aspect says (R227-R229): its controlling die in reset or its lamp domain not
ON, stopped by a finding, not enabled, penned, or under a dark condition. -/
def State.stageHeldOff (s : State) (n : Nat) : Bool :=
  let c := s.die (if n < 24 then .la else .lb)
  c.boot.phase == .off || c.g F.PWR_DOM_STATE 7 != domOn || c.bist.penLamp.testBit n || (s.la.lamp n).stopped ||
    !s.la.is F.LMP_CTRL_ACTIVE || !s.la.is F.LMP_CFG_EN n || s.lampsMustBeDark

/-- DIMMING_PERIOD_START (R224, R225, R231, R233, R243): on LA the aspect engine applies the string's entry, its
pattern value or trim, and commands the stage, on PD1 by a lamp-link frame, which ends the silence of R264; on LB the
evaluator switches its expectation. A string that a colour loop holds dark keeps its entry until that is over. A
persisted trim applies whatever the new entry's CT is (DESIGN CHOICE, log 128). -/
def execDimmingPeriodStart (d : Ch) (n : Fin 48) (t : Time) (s : State) : Host.Outcome State Fault Refusal :=
  let s := s.modDie d (fun x => x.at t)
  let x := s.die d
  if dimmingOffset n.val t ≠ 0 ∨ x.boot.phase = .off ∨ x.loopDark n.val t then .next s
  else
    let e := x.dispEntry n.val
    if d = .lb then .next (s.modDie .lb (fun x => x.periodStart n.val t (entB e)))
    else
      let r : Nat × State :=
        if entMode e = 3 then (min (entB e) ((x.presented (entSel e)).getD (n.val % 8) 0), s)
        else
          let r := s.roundOpen ((entB e : Int) * (1024 + x.trim n.val)) 1024
          (min r.1.toNat 65535, r.2)
      let s := r.2.modDie .la (fun x => x.periodStart n.val t r.1)
      let s := if n.val < 24 then s else s.lampFrame
      let y := s.la
      let off := s.stageHeldOff n.val
      .next (s.setStage n.val (if off then 0 else y.g F.LMP_STAT_BEFF n.val)
        (if off then 0 else entMode e) (y.g F.LMP_STAT_RANGE n.val))

/-- An on-phase of profile f starts at t (R232); one of length 0 never does. -/
def LogicDie.phaseStart (x : LogicDie) (f t : Nat) : Bool :=
  x.flashOn f t &&
    decide (((t : Int) - 1000000 - x.g F.LMP_FLASH_PHASE f * 2000000) % (x.g F.LMP_FLASH_PERIOD f * 2000000 : Nat) = 0)

/-- FLASH_EDGE (R232, R249): a phase of profile f begins; the start of an on-phase lets engines in WAITP go on, also
where the on-phase before it has lasted until now. -/
def execFlashEdge (d : Ch) (f : Fin 8) (t : Time) (s : State) : Host.Outcome State Fault Refusal :=
  .next (s.modDie d (fun x =>
    let x := x.at t
    let start := x.phaseStart f.val t
    let x := { x with lampSide := { x.lampSide with flash := setBits x.lampSide.flash f.val f.val (b2n (x.flashOn f.val t)) } }
    if start then x.pePhase f.val else x))

/-! ### Stage findings (R227) -/

/-- The power die of SLn reports a finding of its stage: both dies record it and raise source 328 + n. -/
def State.stageFinding (s : State) (n : Nat) (stat rep : Fld) (code t : Nat) : State :=
  let s := s.modDie (if n < 24 then .la else .lb) (fun x => (x.at t).p rep 1 (n % 24))
  let rec_ := fun (d : Ch) (x : LogicDie) => ((x.at t).p stat 1 n).raise d (328 + n) code
  let s := s.modDie .la (fun x => rec_ .la (x.setLamp n { x.lamp n with stopped := true }))
  let s := s.modDie .lb (rec_ .lb)
  s.setStage n 0 0 (s.la.g F.LMP_STAT_RANGE n)

/-- The stage of SLn switches at t: it carries a setpoint above 0, and no colour loop holds it dark. -/
def State.stageOn (s : State) (n t : Nat) : Bool :=
  (s.die (if n < 24 then .la else .lb)).g F.LMP_STG_B (n % 24) != 0 && !s.la.loopDark n t

/-- OPEN (R227). -/
def execStageOpen (n : Fin 48) (t : Time) (s : State) : Host.Outcome State Fault Refusal :=
  .next (if s.stageOn n.val t then s.stageFinding n.val F.LMP_STAT_OPEN F.LMP_STS_OPEN 0 t else s)

/-- OCP (R227). -/
def execStageOcp (n : Fin 48) (t : Time) (s : State) : Host.Outcome State Fault Refusal :=
  .next (if s.stageOn n.val t then s.stageFinding n.val F.LMP_STAT_OCP F.LMP_STS_OCP 1 t else s)

/-- LXFAIL (R227). -/
def execStageLxfail (n : Fin 48) (t : Time) (s : State) : Host.Outcome State Fault Refusal :=
  .next (if s.stageOn n.val t then s.stageFinding n.val F.LMP_STAT_LXFAIL F.LMP_STS_LXFAIL 2 t else s)

/-- STAGE_OVT (R227): the stage reaches thermal shutdown (`hot`), or has cooled. -/
def execStageOvt (n : Fin 48) (hot : Bool) (t : Time) (s : State) : Host.Outcome State Fault Refusal :=
  if hot then .next (s.stageFinding n.val F.LMP_STAT_OVT F.LMP_STS_OVT 3 t)
  else
    let s := s.modDie (if n.val < 24 then .la else .lb) (fun x => (x.at t).p F.LMP_STS_OVT 0 (n.val % 24))
    let s := s.modDie .la (fun x => (x.at t).p F.LMP_STAT_OVT 0 n.val)
    .next (s.modDie .lb (fun x => (x.at t).p F.LMP_STAT_OVT 0 n.val))

/-! ### Checks on LB (R235-R237) -/

/-- lo ≤ I for brightness b and trim limit tr in percent (R235), in exact arithmetic; the current in µA. -/
def LogicDie.aboveLo (x : LogicDie) (n ifs b tr i : Nat) : Bool :=
  decide (ifs * b * (100 - tr) * (256 - x.g F.LMP_CFG_TOL n) ≤ (i + x.g F.LMP_CFG_IOFS n) * (100 * 65535 * 256))

/-- I ≤ hi for brightness b and trim limit tr in percent (R235). -/
def LogicDie.belowHi (x : LogicDie) (n ifs b tr i : Nat) : Bool :=
  decide (i * (100 * 65535 * 256) ≤
    ifs * b * (100 + tr) * (256 + x.g F.LMP_CFG_TOL n) + x.g F.LMP_CFG_IOFS n * (100 * 65535 * 256))

/-- A check of string n: its kind (1 lit, 2 dark, 3 envelope) and 0 for a pass, else the cause of R237. -/
def LogicDie.lampCheck (x : LogicDie) (n curr volt : Nat) : Nat × Nat :=
  let q := x.lamp n
  let e := q.entry
  let i := 10 * curr
  let ifs := fullScale (entRange e)
  if entMode e = 3 then (3, if x.belowHi n ifs (max (entB e) 4096) 0 i then 0 else 4)
  else if entLit e q.onPhase then
    let pulse := x.is F.LMP_STAT_PULSE n
    let b := if pulse then 4096 else entB e
    let tr := if pulse then 0 else x.trimMax n
    let iOk := x.aboveLo n ifs b tr i && x.belowHi n ifs b tr i
    let vOk := decide (x.g F.LMP_CFG_VMIN n ≤ volt) && decide (volt ≤ x.g F.LMP_CFG_VMAX n)
    (1, if iOk && vOk then 0 else if iOk then 3 else 1)
  else (2, if i ≤ x.g F.LMP_LIM_ILEAK n ∧ volt ≤ x.g F.LMP_LIM_VDARK n then 0 else 2)

/-- The finding bit of a cause (R237). -/
def causeField (cause : Nat) : Fld :=
  match cause with
  | 1 => F.LMP_STAT_FAILLIT
  | 2 => F.LMP_STAT_FAILDARK
  | 3 => F.LMP_STAT_FAILV
  | 4 => F.LMP_STAT_ENVOVR
  | _ => F.LMP_STAT_NOTALIVE

/-- A finding of string n on LB: its bit, source 376 + n, and the proof it takes away (R237, R238). -/
def LogicDie.lampFinding (x : LogicDie) (n cause : Nat) : LogicDie :=
  let x := (x.p (causeField cause) 1 n).raise .lb (376 + n) cause
  if entProof (x.dispEntry n) then x.proofLost cause n else x

/-- A judged check (R237). -/
def LogicDie.judgeLamp (x : LogicDie) (n curr volt t : Nat) : LogicDie :=
  let r := x.lampCheck n curr volt
  let q := x.lamp n
  let fresh := decide (q.kind ≠ r.1)
  let q := { q with kind := r.1 }
  let pend := x.is F.LMP_STAT_PEND n && !fresh
  let alive := if r.1 = 3 ∧ 10 * curr ≥ 3 * x.g F.LMP_CFG_IOFS n then some t else q.lastAlive
  let q := { q with lastAlive := alive }
  if r.2 = 0 then
    ((x.p F.LMP_STAT_PEND 0 n).setLamp n { q with passes := min (q.passes + 1) 2 }).tryProve
  else
    let x := x.p F.LMP_STAT_PEND 1 n
    let x := x.setLamp n { q with passes := 0 }
    if pend then x.lampFinding n r.2 else x

/-- LB samples string n at t (R235): a string with PROOF, once per dimming period, at the instant of its state. -/
def LogicDie.sampleDue (x : LogicDie) (n t : Nat) : Bool :=
  let q := x.lamp n
  let o := dimmingOffset n t
  let shortest := 50000 * (entB q.entry * (100 - x.trimMax n))
  entProof (x.dispEntry n) && q.sampled != some (dimmingPeriod n t) &&
    (if entMode q.entry = 3 then decide (o = 2000)
     else if entLit q.entry q.onPhase && x.is F.LMP_STAT_PULSE n then
       decide (o * 409600 ≤ shortest) && decide (shortest ≤ (o + 500) * 409600)
     else decide (o = 45000))

/-- LAMP_CHECK_SAMPLE (R235, R236): one sample of string n, current in 10 µA and voltage in 10 mV. -/
def execLampCheckSample (n : Fin 48) (curr volt : Fin 65536) (t : Time) (s : State) :
    Host.Outcome State Fault Refusal :=
  let seen := fun (x : LogicDie) =>
    let x := ((x.at t).p F.LMP_MEAS_CURR curr.val n.val).p F.LMP_MEAS_VOLT volt.val n.val
    x.p F.LMP_STAT_LIT (b2n (decide (10 * curr.val > x.g F.LMP_CFG_IOFS n.val))) n.val
  if ¬ s.lb.sampleDue n.val t then .next s
  else
  let s := s.modDie .la seen
  .next (s.modDie .lb (fun x =>
    let x := seen x
    let q := { x.lamp n.val with sampled := some (dimmingPeriod n.val t) }
    let x := x.setLamp n.val q
    if q.entry ≠ x.dispEntry n.val ∨ t % 2000000 < 100000 ∨ t < q.stateAt + x.settle
    then x
    else x.judgeLamp n.val curr.val volt.val t))

/-- NOTALIVE (R237): an interval of PALIVE ms of a pattern string with PROOF has ended without an alive sample. -/
def execNotalive (n : Fin 48) (t : Time) (s : State) : Host.Outcome State Fault Refusal :=
  .next (s.modDie .lb (fun x =>
    let x := x.at t
    let e := x.dispEntry n.val
    let span := x.g F.LMP_TCFG_PALIVE * 1000000
    let live := match (x.lamp n.val).lastAlive with | none => false | some a => decide (t < a + span)
    if entProof e ∧ entMode e = 3 ∧ x.lampSide.dispAt < t ∧ (t - x.lampSide.dispAt) % span = 0 ∧ live = false then
      x.lampFinding n.val 5
    else x))

/-! ### Optical sense and colour loops (R241, R243) -/

/-- A string is lit, steady or in a flash on-phase, in the state in force. -/
def LogicDie.steadyLit (x : LogicDie) (n : Nat) : Bool :=
  let q := x.lamp n
  entMode q.entry == 1 || (entMode q.entry == 2 && q.onPhase)

/-- A string is dark in the state in force: MODE off or a flash off-phase. -/
def LogicDie.stateDark (x : LogicDie) (n : Nat) : Bool := !entLit (x.lamp n).entry (x.lamp n).onPhase

/-- How LB judges the window of OSk that started at `start` (R241): nothing, or lit or dark and whether it passes. -/
def LogicDie.judgeWindow (x : LogicDie) (k result start : Nat) : Option (Bool × Bool) :=
  let ms := x.members k
  let lit := ms.filter (fun n => x.steadyLit n && entProof (x.lamp n).entry && decide ((x.lamp n).stateAt ≤ start))
  if start % 2000000 < 100000 ∨ start % 2000000 > 1900000 ∨ ms.any (fun n => decide (start < (x.lamp n).stateAt + x.settle))
  then none
  else if lit ≠ [] then
    let bmax := maxOr0 (lit.map (fun n => entB (x.lamp n).entry))
    some (true, decide (x.g F.LMP_OSLIM_OLIT k * bmax * (100 - x.g F.LMP_OSCFG_TRIM k) ≤ result * (100 * 65535)))
  else if ms.all (fun n => x.stateDark n) then some (false, decide (result ≤ x.g F.LMP_OSLIM_ODARK k))
  else none

/-- A window of OSk that started at `start` has ended at t and has not been taken (R241). -/
def LogicDie.windowDue (x : LogicDie) (k start t : Nat) : Bool :=
  decide (start % 100000 = 0) && decide (start + 100000 ≤ t) &&
    (Sparse.get (fun _ => none) x.lampSide.osAt k).all (fun w => decide (w < start))

/-- OPTICAL_WINDOW (R241): the 100 µs window of OSk that started at `start` yields its result. -/
def execOpticalWindow (k : Fin 8) (result : Fin 65536) (start t : Time) (s : State) :
    Host.Outcome State Fault Refusal :=
  if ¬ s.lb.windowDue k.val start t then .next s
  else
  let s := s.modDie (if k.val < 4 then .la else .lb) (fun x => x.p F.LMP_OSR_RESULT result.val (k.val % 4))
  let s := s.modDie .la (fun x => (x.at t).p F.LMP_OSSTAT_LAST result.val k.val)
  .next (s.modDie .lb (fun x =>
    let k := k.val
    let x := (x.at t).p F.LMP_OSSTAT_LAST result.val k
    let x := { x with lampSide := { x.lampSide with osAt := Sparse.put (fun _ => none) x.lampSide.osAt k (some start) } }
    if ¬ x.is F.LMP_OSCFG_OPROOF k then x
    else
      match x.judgeWindow k result.val start with
      | none => x
      | some (_, true) =>
        let x := x.p F.LMP_OSSTAT_PEND 0 k
        let x := { x with lampSide := { x.lampSide with
          osPass := setBit x.lampSide.osPass k } }
        x.tryProve
      | some (lit, false) =>
        if x.is F.LMP_OSSTAT_PEND k then
          let x := (x.p (if lit then F.LMP_OSSTAT_FAILLIT else F.LMP_OSSTAT_FAILDARK) 1 k).raise .lb (424 + k) (b2n (!lit))
          if (x.members k).any (fun n => x.proofStrings.contains n) then
            x.proofLost (if lit then 6 else 7) (0x30 + k)
          else x
        else x.p F.LMP_OSSTAT_PEND 1 k))

/-- COLOUR_LOOP (R243): at the end of its integration, 90 µs into the 2 ms interval, the loop of OSk has measured its
member of that interval. The member has to be lit throughout the integration, from 20 µs on (DESIGN CHOICE, log 153).
The trim limit and step are rounded to the trim's unit, the limit downward (DESIGN CHOICE, log 130). -/
def execColourLoop (k : Fin 8) (light : Fin 65536) (t : Time) (s : State) : Host.Outcome State Fault Refusal :=
  if t % 2000000 ≠ 90000 ∨ s.la.members k.val = [] ∨
      Sparse.get (fun _ => none) s.la.lampSide.loopAt k.val = some t then .next s
  else
  let s := s.modDie .la (fun x =>
    let x := (x.at t).p F.LMP_OSSTAT_SLOT light.val k.val
    { x with lampSide := { x.lampSide with loopAt := Sparse.put (fun _ => none) x.lampSide.loopAt k.val (some t) } })
  let x := s.la
  let ms := x.members k.val
  let j := t / 2000000
  match ms[j % ms.length]? with
  | none => .next s
  | some n =>
    let q := x.lamp n
    if ¬ x.steadyLit n ∨ q.stateAt > j * 2000000 + 20000 ∨ entCt q.entry = 0 then .next s
    else
      let lim : Int := (1024 * x.g F.LMP_OSCFG_TRIM k.val / 100 : Nat)
      let tgt : Nat := x.g F.LMP_OSLIM_OLIT k.val * entCt q.entry * entB q.entry
      let r : Int × State :=
        if tgt = 0 then
          let f := s.freeWord
          (f.1.toInt, f.2)
        else
          s.roundOpen (x.trim n * (256 * tgt) +
            (x.g F.LMP_OSCFG_GAIN k.val : Int) * ((tgt : Int) - light.val * (128 * 65535)) * 1024) (256 * tgt)
      let v := min (max r.1 (-lim)) lim
      .next (r.2.modDie .la (fun x =>
        let x := x.p F.LMP_MEAS_TRIM (BitVec.ofInt 16 v).toNat n
        if v = lim ∨ v = -lim then x.p F.LMP_OSSTAT_CLAMP 1 k.val else x))

/-! ### Neighbour test (R244) -/

/-- String n is enabled and dark in the displayed aspect throughout the 2 ms interval from `start`: in the off state,
or a flash string that is in its off-phase at its start and after the edge in its middle (R232). -/
def LogicDie.nbDark (x : LogicDie) (n start : Nat) : Bool :=
  let q := x.lamp n
  x.is F.LMP_CFG_EN n && q.entry == x.dispEntry n && x.stateDark n && decide (q.stateAt ≤ start) &&
    (entMode q.entry != 2 || (!x.flashOn (entSel q.entry) start && !x.flashOn (entSel q.entry) (start + 1000000)))

/-- NEIGHBOUR_TEST (R244): the end of a 2 ms interval, in which no other aspect has been displayed, with LB's reading,
in 10 mV, of the higher-numbered string of its pair in the last 1 µs of the injection. It runs while ACTIVE is 0 too,
when every enabled string is dark (DESIGN CHOICE, log 154). -/
def execNeighbourTest (volt : Fin 65536) (t : Time) (s : State) : Host.Outcome State Fault Refusal :=
  .next ((s.modDie .la (·.at t)).modDie .lb (fun x =>
    let x := x.at t
    let j := t / 2000000 - 1
    let q := j % 46
    let start := j * 2000000
    if t = 0 ∨ t % 2000000 ≠ 0 ∨ ¬ x.nbDark (pairLow q) start ∨ ¬ x.nbDark (pairLow q + 1) start ∨ start < x.lampSide.dispAt then x
    else
      let fail := decide (volt.val > 100)
      let was := x.lampSide.nbPend.testBit q
      let x := { x with lampSide := { x.lampSide with nbPend := setBits x.lampSide.nbPend q q (b2n fail) } }
      if ¬ fail then x.setB F.LMP_NBSHORT_PAIRS q false
      else if was ∧ ¬ x.bit F.LMP_NBSHORT_PAIRS q then
        let x := (x.setB F.LMP_NBSHORT_PAIRS q true).raise .lb 432 q
        match x.nbHit with
        | some h => x.proofLost 8 (if x.proofStrings.contains (pairLow h) then pairLow h else pairLow h + 1)
        | none => x
      else x))

/-- LMP_SUM (R245): the strings with any of LMP_STATn bits [12:5] set. -/
def LogicDie.lmpSum (x : LogicDie) : Nat :=
  (List.range 48).foldl (fun v n => v + b2n (Word.bits (x.rd .LMP_STAT n) 12 5 != 0) * 2 ^ n) 0

end Sys2Proof.Machine
end

