-- ==== Sys2Proof/Machine/SiTp.lean ====
section
/-! DEFINITION. Safe inputs and test pulses (06): sampling and the counter filter (R175-R177), the dark test (R178),
test-pulse sources (R180-R183), bound inputs (R184-R189), captures (R194, R431), analog protection (R196), the frozen
input state (R188, R197). -/

namespace Sys2Proof.Machine

/-! ### Test states (R188, R189) -/

/-- The codes of the table Input test states. -/
def tNone : Nat := 0
def tOk : Nat := 1
def tPending : Nat := 2
def tMissing : Nat := 3
def tCross : Nat := 4
def tDark : Nat := 5

/-- The empty record of an input. -/
def InputSt.zero : InputSt := ⟨none, none, 0, false, 0, 0, none, 0, false⟩

/-- The empty record of a source. -/
def SourceSt.zero : SourceSt := ⟨0, 0, [], [], 0, 0, false, false, false⟩

/-- What the die keeps of input i. -/
def LogicDie.inp (x : LogicDie) (i : Nat) : InputSt := Sparse.get (fun _ => InputSt.zero) x.inputs i

/-- Replace what the die keeps of input i. -/
def LogicDie.setInp (x : LogicDie) (i : Nat) (v : InputSt) : LogicDie :=
  { x with inputs := Sparse.put (fun _ => InputSt.zero) x.inputs i v }

/-- What the die keeps of source j. -/
def LogicDie.src (x : LogicDie) (j : Nat) : SourceSt := Sparse.get (fun _ => SourceSt.zero) x.sources j

/-- Replace what the die keeps of source j. -/
def LogicDie.setSrc (x : LogicDie) (j : Nat) (v : SourceSt) : LogicDie :=
  { x with sources := Sparse.put (fun _ => SourceSt.zero) x.sources j v }

/-- The test state of input i. -/
def LogicDie.test (x : LogicDie) (i : Nat) : Nat := x.g F.SI_STAT_TEST i

/-- An input enters MISSING, CROSS or DARKFAIL (R189): the first of the three stands; the entry raises source 112 + i. -/
def LogicDie.enterTest (x : LogicDie) (d : Ch) (i st cause : Nat) : LogicDie :=
  if x.test i ≥ tMissing then x
  else
    let x := x.p F.SI_STAT_TEST st i
    let x := x.p F.SI_STAT_CAUSE cause i
    let x := x.setInp i { x.inp i with darkZero := false }
    x.raise d (112 + i) (st + cause * 8)

/-- The state an input returns to: OK if bound, NONE otherwise (R189). -/
def LogicDie.testIdle (x : LogicDie) (i : Nat) : Nat := if x.is F.SI_CFG_BIND i then tOk else tNone

/-- SI_TSUM: the inputs in MISSING, CROSS or DARKFAIL (R198). -/
def LogicDie.tsum (x : LogicDie) : Nat :=
  (List.range 48).foldl (fun v i => v + b2n (decide (x.test i ≥ tMissing)) * 2 ^ i) 0

/-- SI_FILT and SI_RAW gathered from the inputs (R198). -/
def LogicDie.gather (x : LogicDie) (f : Fld) (n : Nat) : Nat :=
  (List.range n).foldl (fun v i => v + (x.g f i % 2) * 2 ^ i) 0

/-! ### Capture queues (R194, R431) -/

/-- Replace the capture queue of a timer; CAPCNT follows. -/
def LogicDie.setCaps (x : LogicDie) (n : Nat) (q : List (Nat × Word)) : LogicDie :=
  { x with gtCaps := Sparse.put (fun _ => []) x.gtCaps n q }.p F.GT_STAT_CAPCNT q.length n

/-- A capture enters a timer's queue; at a full queue it is discarded with CAPOVF, source 43 and log code 0x0401 (R431,
R439). -/
def LogicDie.gtCapture (x : LogicDie) (d : Ch) (n input count : Nat) (rise : Bool) : LogicDie :=
  let q := x.caps n
  if q.length < 8 then
    let w := BitVec.ofNat 64 (count % 2 ^ 32 + (input % 64) * 2 ^ 32 + b2n rise * 2 ^ 38 + 2 ^ 39)
    let num := Sparse.get (fun _ => 0) x.gtCapNum n
    let x := x.setCaps n (q ++ [(num, w)])
    let x := { x with gtCapNum := Sparse.put (fun _ => 0) x.gtCapNum n (num + 1) }
    x.setEvent (16 + n)
  else
    let x := x.p F.GT_STAT_CAPOVF 1 n
    let x := x.log d x.now x.recFold 0x0401 4 (n + input * 16)
    x.raise d 43 n

/-! ### Test-pulse sources (R180-R185) -/

/-- The source is driven: ACTIVE and its EN bit (R182). -/
def LogicDie.tpOn (x : LogicDie) (j : Nat) : Bool := x.is F.TP_CTRL_ACTIVE && x.bit F.TP_CTRL_EN j

/-- The inputs bound to source j. -/
def LogicDie.boundTo (x : LogicDie) (j : Nat) : List Nat :=
  (List.range 48).filter (fun i => x.is F.SI_CFG_BIND i && x.g F.SI_CFG_SRC i == j)

/-- A mask of the inputs in a list. -/
def maskOf (l : List Nat) : Nat := l.foldl setBit 0

/-- A pulse and its blanking interval start (R185, R186): the bound inputs whose filtered state is high are noted. -/
def LogicDie.startBlank (x : LogicDie) (j t : Nat) (low : Bool) : Blank :=
  { start := t, sawLow := low, ended := false, valid := false, stop := none
    high := maskOf ((x.boundTo j).filter (fun i => x.is F.SI_STAT_FILT i)), low := 0 }

/-- The driver of source j receives a level (R185): a low command starts a pulse and its blanking interval; any
command ends the SHORTLOW and STUCKHIGH episodes. An overheated driver is off and shows no command (R180, R199). The
model lets a pin change reach the driver at its own instant, within the 200 ns of R183 (DESIGN CHOICE, log 126). -/
def LogicDie.tpDrive (x : LogicDie) (j : Nat) (level : Bool) (t : Nat) : LogicDie :=
  let q := x.src j
  let low := x.g F.TP_STAT_RB j == 0
  if x.is F.TP_STAT_OVT j then x
  else
    let b := x.startBlank j t low
    let x := (x.p F.TP_STAT_CMD (b2n level) j).p F.TP_DRV_CMD (b2n level) j
    let q := { q with cmdAt := t, epShort := false, epStuck := false }
    if level then x.setSrc j q
    else
      x.setSrc j { q with
        lows := (t :: q.lows).take 4
        blanks := q.blanks ++ [b]
        lastLow := if low then t else q.lastLow
        epNone := !low && q.epNone }

/-- A timer pin's level reaches its source (R181). -/
def LogicDie.tpCommand (x : LogicDie) (j : Nat) (level : Bool) (t : Nat) : LogicDie :=
  if ¬ x.tpOn j ∨ x.g F.TP_STAT_CMD j = b2n level then x else x.tpDrive j level t

/-- ACTIVE is set and every enabled source takes its timer pin's level (R182). A pin that is low then is a low command
at that instant, with its pulse and blanking interval (DESIGN CHOICE, log 147). -/
def LogicDie.tpActivate (x : LogicDie) : LogicDie :=
  let x := x.p F.TP_CTRL_ACTIVE 1
  let x := { x with inSide := { x.inSide with activeAt := x.now } }
  (List.range 8).foldl (fun x j =>
    if x.bit F.TP_CTRL_EN j then (x.setSrc j SourceSt.zero).tpDrive j (x.is F.GT_STAT_PIN j) x.now else x) x

/-- A finding of a source (R183): its bit in TP_STATj, and source 172 + j. `bit` is the finding's bit of TP_STATj. Of
the findings, TP_CNTj counts the one that its fields define (R199): INVALID counts BADWIDTH; SHORTLOW, STUCKHIGH and
NOPULSE have no field (log 127, DESIGN CHOICE). -/
def LogicDie.tpFinding (x : LogicDie) (d : Ch) (j bit : Nat) : LogicDie :=
  (x.wr .TP_STAT j (Word.setBits (x.rd .TP_STAT j) bit bit 1)).raise d (172 + j) bit

/-- BADWIDTH (R183, R185): the finding, once per invalid pulse, and the count of invalid pulses. -/
def LogicDie.tpBadWidth (x : LogicDie) (d : Ch) (j : Nat) : LogicDie :=
  (x.count F.TP_CNT_INVALID 1 j).tpFinding d j 4

/-- TP_SUM: the sources with a finding bit or OVT set (R199). -/
def LogicDie.tpSum (x : LogicDie) : Nat :=
  (List.range 8).foldl (fun v j => v + b2n (Word.bits (x.rd .TP_STAT j) 6 2 != 0) * 2 ^ j) 0

/-- The checks of a source run (R195): it is driven, and LA_IO (LB_IO) and the input domain of the die's own power die
are ON. -/
def LogicDie.tpChecked (x : LogicDie) (d : Ch) (j : Nat) : Bool :=
  x.tpOn j && x.g F.PWR_DOM_STATE 3 == 2 && !x.inSide.pdInOff.testBit d.num

/-- A pulse after a readback level sensed at `t` (R185): a level sensed no later than the low command is the one that
the pulse started from; the low interval runs from the command to the first high level after a low one, and the
blanking interval ends SETTLE later, or SETTLE after WMAX. -/
def Blank.readback (b : Blank) (level : Bool) (t wmin wmax settle : Nat) : Blank :=
  if b.ended then b
  else if t ≤ b.start then { b with sawLow := !level }
  else if ¬ level then { b with sawLow := true }
  else if b.sawLow then
    { b with
      ended := true
      valid := decide (wmin ≤ t - b.start) && decide (t - b.start ≤ wmax)
      stop := some (min t (b.start + wmax) + settle) }
  else b

/-- READBACK_CHANGE (R181, R183, R185): the level as the power die sensed it at `t`. -/
def execReadbackChange (d : Ch) (j : Fin 8) (level : Bool) (t : Time) (s : State) :
    Host.Outcome State Fault Refusal :=
  .next (s.modDie d (fun x =>
    let x := x.at t
    let x := (x.p F.TP_STAT_RB (b2n level) j.val).p F.TP_DRV_RB (b2n level) j.val
    let q := { x.src j.val with rbAt := t, epShort := false, epStuck := false }
    if ¬ x.tpChecked d j.val then x.setSrc j.val q
    else
      let wmin := x.g F.TP_CFG_WMIN j.val * 100
      let wmax := x.g F.TP_CFG_WMAX j.val * 100
      let settle := x.g F.TP_CFG_SETTLE j.val * 100
      let bs := q.blanks.map (fun b => b.readback level t wmin wmax settle)
      let begun := (q.blanks.zip bs).filter (fun e => e.2.sawLow && !e.1.sawLow)
      let done := (q.blanks.zip bs).filter (fun e => e.2.ended && !e.1.ended) |>.map (·.2)
      let good := done.filter (·.valid)
      let x := x.setSrc j.val { q with
        blanks := bs
        lastLow := begun.foldl (fun n e => max n e.2.start) q.lastLow
        epNone := begun.isEmpty && q.epNone
        lastValid := good.foldl (fun n b => max n b.start) q.lastValid }
      let x := good.foldl (fun x _ => x.count F.TP_CNT_VALID 1 j.val) x
      (done.filter (fun b => !b.valid)).foldl (fun x _ => x.tpBadWidth d j.val) x))

/-- SHORTLOW (R183, R195): commanded high, read low for more than 2 µs; raised once per episode. -/
def execShortlow (d : Ch) (j : Fin 8) (t : Time) (s : State) : Host.Outcome State Fault Refusal :=
  .next (s.modDie d (fun x =>
    let x := x.at t
    let q := x.src j.val
    if x.tpChecked d j.val ∧ x.g F.TP_STAT_CMD j.val = 1 ∧ x.g F.TP_STAT_RB j.val = 0 ∧ ¬ q.epShort ∧
        max q.cmdAt q.rbAt + 2000 < t then
      (x.setSrc j.val { q with epShort := true }).tpFinding d j.val 2
    else x))

/-- STUCKHIGH (R183, R195): commanded low, read high for more than 2 µs; raised once per episode. -/
def execStuckhigh (d : Ch) (j : Fin 8) (t : Time) (s : State) : Host.Outcome State Fault Refusal :=
  .next (s.modDie d (fun x =>
    let x := x.at t
    let q := x.src j.val
    if x.tpChecked d j.val ∧ ¬ x.is F.TP_STAT_OVT j.val ∧ x.g F.TP_STAT_CMD j.val = 0 ∧ x.g F.TP_STAT_RB j.val = 1 ∧
        ¬ q.epStuck ∧ max q.cmdAt q.rbAt + 2000 < t then
      (x.setSrc j.val { q with epStuck := true }).tpFinding d j.val 3
    else x))

/-- BADWIDTH (R185, R195): the readback low interval of the oldest open pulse has not ended WMAX after its low
command; its blanking ends SETTLE later. -/
def execBadwidth (d : Ch) (j : Fin 8) (t : Time) (s : State) : Host.Outcome State Fault Refusal :=
  .next (s.modDie d (fun x =>
    let x := x.at t
    let q := x.src j.val
    let wmax := x.g F.TP_CFG_WMAX j.val * 100
    match q.blanks.find? (fun b => !b.ended) with
    | none => x
    | some b =>
      if x.tpChecked d j.val ∧ b.start + wmax ≤ t then
        let c := { b with ended := true, stop := some (b.start + wmax + x.g F.TP_CFG_SETTLE j.val * 100) }
        (x.setSrc j.val { q with blanks := q.blanks.replace b c }).tpBadWidth d j.val
      else x))

/-- NOPULSE (R183, R195): no readback low interval has begun within PMAX; raised once per episode. -/
def execNopulse (d : Ch) (j : Fin 8) (t : Time) (s : State) : Host.Outcome State Fault Refusal :=
  .next (s.modDie d (fun x =>
    let x := x.at t
    let q := x.src j.val
    if x.tpChecked d j.val ∧ ¬ q.epNone ∧ max q.lastLow x.inSide.activeAt + x.g F.TP_PER_PMAX j.val * 1000 ≤ t then
      (x.setSrc j.val { q with epNone := true }).tpFinding d j.val 5
    else x))

/-- SOURCE_OVERHEAT (R180, R199): the driver turns off, sets OVT and shows no command; SHORTLOW and STUCKHIGH hold no
more. -/
def execSourceOverheat (d : Ch) (j : Fin 8) (t : Time) (s : State) : Host.Outcome State Fault Refusal :=
  .next (s.modDie d (fun x =>
    let x := ((x.at t).p F.TP_STAT_OVT 1 j.val).p F.TP_DRV_HOT 1 j.val
    let x := (x.p F.TP_STAT_CMD 0 j.val).p F.TP_DRV_CMD 0 j.val
    x.setSrc j.val { x.src j.val with epShort := false, epStuck := false }))

/-- SOURCE_COOLED (R180, R182): OVT clears, and a driven source takes its timer pin's level again. -/
def execSourceCooled (d : Ch) (j : Fin 8) (t : Time) (s : State) : Host.Outcome State Fault Refusal :=
  .next (s.modDie d (fun x =>
    let x := x.at t
    if ¬ x.is F.TP_STAT_OVT j.val then x
    else
      let x := (x.p F.TP_STAT_OVT 0 j.val).p F.TP_DRV_HOT 0 j.val
      if x.tpOn j.val then x.tpDrive j.val (x.is F.GT_STAT_PIN j.val) t else x))

/-! ### Sampling (R175-R178) -/

/-- The input group of input instance i (R5, R179). -/
def groupOf (i : Nat) : Nat := i / 4

/-- The power die that holds the front-end of input instance i: 0 for PD0, 1 for PD1. -/
def frontPd (i : Nat) : Nat := i / 24

/-- The domain IO of the die is ON (PWR_DOM3). -/
def LogicDie.ioOn (x : LogicDie) : Bool := x.g F.PWR_DOM_STATE 3 == 2

/-- The input is sampled: sampling runs, LA_IO (LB_IO) and the power die's input domain are ON (R177, R195). -/
def LogicDie.sampled (x : LogicDie) (i : Nat) : Bool :=
  x.is F.SI_CTRL_SAMPLING && x.ioOn && !x.inSide.pdInOff.testBit (frontPd i)

/-- The sample period of input instance i in ns (R171), and the length of its window. -/
def LogicDie.samplePeriod (x : LogicDie) (i : Nat) : Nat := x.g F.SI_GRP_SPER (groupOf i) * 100

def LogicDie.windowNs (x : LogicDie) (i : Nat) : Nat := x.g F.SI_GRP_WIN (groupOf i) * 25

/-- LA starts windows where t mod T_S = 0, LB where t mod T_S = T_S / 2 (R172). -/
def LogicDie.onWindowGrid (x : LogicDie) (d : Ch) (i start : Nat) : Bool :=
  decide (start % x.samplePeriod i = (match d with | .la => 0 | .lb => x.samplePeriod i / 2))

/-- The die holds at `t` the sample of the window that started at `start`: at most 350 ns after its end (R176). -/
def LogicDie.sampleHeld (x : LogicDie) (i start t : Nat) : Bool :=
  decide (start + x.windowNs i ≤ t ∧ t ≤ start + x.windowNs i + 350)

/-- The window of input i is the next of its group to be sampled (R172, R194): later than the input's last one, and
before any input of the group that follows it in the same window. -/
def LogicDie.nextWindow (x : LogicDie) (i start : Nat) : Bool :=
  (x.inp i).lastWin.all (fun w => decide (w < start)) &&
    (List.range 4).all (fun k => decide (4 * groupOf i + k ≤ i) || (x.inp (4 * groupOf i + k)).lastWin != some start)

/-- The window start lies in a blanking interval of a source (R185), which ends SETTLE after WMAX at the latest. -/
def Blank.holds (b : Blank) (start limit : Nat) : Bool :=
  decide (b.start ≤ start) && decide (start < b.stop.getD (b.start + limit))

/-- The longest blanking interval of a source in ns. -/
def LogicDie.blankLimit (x : LogicDie) (j : Nat) : Nat := (x.g F.TP_CFG_WMAX j + x.g F.TP_CFG_SETTLE j) * 100

/-- The window start lies in a blanking interval of the source that the input is bound to (R185). -/
def LogicDie.blanked (x : LogicDie) (i start : Nat) : Bool :=
  let j := x.g F.SI_CFG_SRC i
  x.is F.SI_CFG_BIND i && (x.src j).blanks.any (fun b => b.holds start (x.blankLimit j))

/-- A low regular sample of a bound input counts in every blanking interval that its window started in (R186). -/
def LogicDie.blankLow (x : LogicDie) (i start : Nat) : LogicDie :=
  let j := x.g F.SI_CFG_SRC i
  let mark := fun (b : Blank) => if b.holds start (x.blankLimit j) then { b with low := setBit b.low i } else b
  x.setSrc j { x.src j with blanks := (x.src j).blanks.map mark }

/-- The recent counts of a timer: each change's instant and the count before it, the latest first. -/
def LogicDie.countLog (x : LogicDie) (n : Nat) : List (Nat × Nat) := Sparse.get (fun _ => []) x.gtLog n

/-- The count that a timer held at an instant of the last 2 µs (R194). -/
def LogicDie.countAt (x : LogicDie) (n t : Nat) : Nat :=
  match ((x.countLog n).filter (fun e => decide (t < e.1))).getLast? with
  | some e => e.2
  | none => x.g F.GT_CNT_VALUE n

/-- The filtered state of an input changes (R194, R195): SI_CHG, the instant of the change, and the capture that CAPEDGE
selects, of the count held at the start of the deciding sample's window. -/
def LogicDie.filtChange (x : LogicDie) (d : Ch) (i : Nat) (high : Bool) (start : Nat) : LogicDie :=
  let q := x.inp i
  let was := if q.filtAt = x.now then q.filtWas else x.is F.SI_STAT_FILT i
  let x := x.p F.SI_STAT_FILT (b2n high) i
  let x := x.setB F.SI_CHG_BITS i true
  let x := x.setInp i { q with filtAt := x.now, filtWas := was, highAt := if high then x.now else q.highAt }
  if x.is F.SI_CFG_CAPEN i ∧ (x.g F.SI_CFG_CAPEDGE i).testBit (b2n (!high)) then
    x.gtCapture d (x.g F.SI_CFG_CAPGT i) i (x.countAt (x.g F.SI_CFG_CAPGT i) start) high
  else x

/-- The counter filter (R175). -/
def LogicDie.filter (x : LogicDie) (d : Ch) (i : Nat) (high : Bool) (start : Nat) : LogicDie :=
  let n := x.g F.SI_CFG_N i
  let c := x.g F.SI_STAT_COUNT i
  let c' := if high then min (c + 1) n else c - 1
  let x := x.p F.SI_STAT_COUNT c' i
  let old := x.is F.SI_STAT_FILT i
  if c' = n ∧ ¬ old then x.filtChange d i true start
  else if c' ≠ n ∧ c' = 0 ∧ old then x.filtChange d i false start
  else x

/-- A foreign pulse of a bound input counts (R187): a second one within XWIN of the previous declares CROSS. -/
def LogicDie.foreign (x : LogicDie) (d : Ch) (i t : Nat) : LogicDie :=
  let q := x.inp i
  let x := x.count F.SI_CNT_FOREIGN 1 i
  let x := x.setInp i { q with lastForeign := some t }
  match q.lastForeign with
  | none => x
  | some p =>
    if t - p ≤ x.g F.SI_TPCHK_XWIN i * 1000 ∧ (x.test i = tOk ∨ x.test i = tPending) then x.enterTest d i tCross 0
    else x

/-- Runs of low samples of a bound input outside blanking (R187): a low command between two windows discards the run. -/
def LogicDie.foreignRun (x : LogicDie) (d : Ch) (i : Nat) (high : Bool) (start t : Nat) : LogicDie :=
  let q := x.inp i
  let cut := (x.src (x.g F.SI_CFG_SRC i)).lows.any (fun b => decide (q.runAt < b ∧ b ≤ start))
  let run := if cut then 0 else q.run
  if ¬ x.is F.SI_CFG_BIND i ∨ x.g F.SI_TPCHK_FPL i = 0 then x
  else if ¬ high then x.setInp i { q with run := run + 1, runAt := start }
  else
    let x := x.setInp i { q with run := 0 }
    if 1 ≤ run ∧ run ≤ x.g F.SI_TPCHK_FPL i then x.foreign d i t else x

/-- A regular sample taken in MISSING, CROSS or DARKFAIL (R189): a counter left at 0 clears the first two and lets a
low dark sample clear the third. A sample is taken after the entry where the state stood when the die received it,
whenever its window began, and CAUSE returns to 0 with the state (DESIGN CHOICE, log 148). -/
def LogicDie.testClear (x : LogicDie) (i : Nat) : LogicDie :=
  if x.g F.SI_STAT_COUNT i ≠ 0 then x
  else if x.test i = tMissing ∨ x.test i = tCross then (x.p F.SI_STAT_TEST (x.testIdle i) i).p F.SI_STAT_CAUSE 0 i
  else if x.test i = tDark then x.setInp i { x.inp i with darkZero := true }
  else x

/-- SAMPLE_WINDOW (R171, R172, R175, R185-R189, R194): the die holds at `t` the comparator's decision of the window
that started at `start`. -/
def execSampleWindow (d : Ch) (g : Fin 12) (k : Fin 4) (start t : Time) (high : Bool) (s : State) :
    Host.Outcome State Fault Refusal :=
  .next (s.modDie d (fun x =>
    let x := x.at t
    let i := 4 * g.val + k.val
    if ¬ x.sampled i ∨ ¬ x.onWindowGrid d i start ∨ ¬ x.sampleHeld i start t ∨ ¬ x.nextWindow i start then x
    else
      let was := x.test i
      let x := x.setInp i { x.inp i with lastWin := some start }
      let x := x.p F.SI_STAT_RAW (b2n high) i
      let x := x.wr .SI_CPL i (Word.setBits (x.rd .SI_CPL i) 0 0 (b2n high))
      let x :=
        if x.blanked i start then
          let x := if high then x else x.blankLow i start
          x.setInp i { x.inp i with run := 0 }
        else (x.filter d i high start).foreignRun d i high start t
      if was ≥ tMissing then x.testClear i else x))

/-- A dark sample of input i may start (R178): half a sample period after the start of a regular window; the repeat
one sample period after the sample that read high, or at the first such instant once samples are taken again; any
other at the first such instant at or after a whole millisecond. -/
def LogicDie.darkDue (x : LogicDie) (d : Ch) (i start : Nat) : Bool :=
  let ts := x.samplePeriod i
  decide (start % ts = (match d with | .la => ts / 2 | .lb => 0)) &&
    (if x.is F.SI_STAT_DARKPEND i then (x.inp i).lastDark.all (fun w => decide (w + ts = start))
     else decide (start % 1000000 < ts) && (x.inp i).lastDark.all (fun w => decide (w < start)))

/-- DARK_SAMPLE (R178, R189): the die holds at `t` the dark sample, started at `start`, of an input with DARK set. -/
def execDarkSample (d : Ch) (i : Fin 48) (seen : DarkRead) (t : Time) (s : State) :
    Host.Outcome State Fault Refusal :=
  .next (s.modDie d (fun x =>
    let x := x.at t
    if ¬ x.sampled i.val ∨ ¬ x.is F.SI_CFG_DARK i.val ∨ ¬ x.darkDue d i.val seen.start ∨ ¬ x.sampleHeld i.val seen.start t then x
    else
      let x := x.setInp i.val { x.inp i.val with lastDark := some seen.start }
      if seen.high then
        let x := x.count F.SI_CNT_DARKERR 1 i.val
        if x.is F.SI_STAT_DARKPEND i.val then (x.p F.SI_STAT_DARKPEND 0 i.val).enterTest d i.val tDark 0
        else x.p F.SI_STAT_DARKPEND 1 i.val
      else
        let x := x.p F.SI_STAT_DARKPEND 0 i.val
        if x.test i.val = tDark ∧ (x.inp i.val).darkZero then x.p F.SI_STAT_TEST (x.testIdle i.val) i.val else x))

/-- FRONT_END_MISMATCH (R174): the report of group g has differed from SI_GRPg for more than 10 µs. -/
def execFrontEndMismatch (d : Ch) (g : Fin 12) (type wet : Bool) (t : Time) (s : State) :
    Host.Outcome State Fault Refusal :=
  .next (s.modDie d (fun x =>
    let x := x.at t
    if b2n type = x.g F.SI_GRP_TYPE g.val ∧ b2n wet = x.g F.SI_GRP_WET g.val then x
    else
      let x := x.setB F.SI_FEMIS_GROUP g.val true
      let x := { x with inSide := { x.inSide with feMis := setBit x.inSide.feMis g.val } }
      x.raise d (160 + g.val) (b2n type + 2 * b2n wet)))

/-- The judgement of one bound input at the end of a blanking interval (R186); a valid pulse that was not seen counts in
every test state (R189). -/
def LogicDie.judgeBlank (x : LogicDie) (d : Ch) (b : Blank) (i : Nat) : LogicDie :=
  let seen := b.low.testBit i
  if ¬ b.valid ∨ ¬ b.high.testBit i then x
  else
    let x := if seen then x else x.count F.SI_CNT_MISSED 1 i
    if ¬ (x.test i = tOk ∨ x.test i = tPending) then x
    else if seen then x.p F.SI_STAT_TEST tOk i
    else if x.test i = tPending then x.enterTest d i tMissing 0
    else x.p F.SI_STAT_TEST tPending i

/-- Every regular sample of input i whose window started before `stop` has reached the die: the last window of the
grid before `stop` has been sampled, or lies before `start`. -/
def LogicDie.windowsIn (x : LogicDie) (d : Ch) (i start stop : Nat) : Bool :=
  let ts := x.samplePeriod i
  let ph := match d with | .la => 0 | .lb => ts / 2
  let w := (stop - 1 - ph) / ts * ts + ph
  !x.sampled i || decide (stop ≤ ph) || decide (w < start) || (x.inp i).lastWin.any (fun u => decide (w ≤ u))

/-- BLANKING_END (R186, R195): the oldest blanking interval of source j is over and the samples of the windows that
started in it have reached the die. An input is judged while its own front-end's domain is ON too. -/
def execBlankingEnd (d : Ch) (j : Fin 8) (t : Time) (s : State) : Host.Outcome State Fault Refusal :=
  .next (s.modDie d (fun x =>
    let x := x.at t
    match (x.src j.val).blanks with
    | [] => x
    | b :: bs =>
      match b.stop with
      | none => x
      | some e =>
        if ¬ x.tpChecked d j.val ∨ t < e ∨ ¬ (x.boundTo j.val).all (fun i => x.windowsIn d i b.start e) then x
        else
          let x := ((x.boundTo j.val).filter x.sampled).foldl (fun x i => x.judgeBlank d b i) x
          x.setSrc j.val { x.src j.val with blanks := bs }))

/-- NO_VALID_SOURCE_PULSE (R186): a high bound input without a valid pulse within PMAX + WMAX + SETTLE;
the checks run while sampling does (R195). -/
def execNoValidSourcePulse (d : Ch) (i : Fin 48) (t : Time) (s : State) : Host.Outcome State Fault Refusal :=
  .next (s.modDie d (fun x =>
    let x := x.at t
    let j := x.g F.SI_CFG_SRC i.val
    let ref_ := max (max (x.src j).lastValid (x.inp i.val).highAt) x.inSide.activeAt
    let lim := x.g F.TP_PER_PMAX j * 1000 + (x.g F.TP_CFG_WMAX j + x.g F.TP_CFG_SETTLE j) * 100
    if x.sampled i.val ∧ x.is F.SI_CFG_BIND i.val ∧ x.is F.SI_STAT_FILT i.val ∧ (x.test i.val = tOk ∨ x.test i.val = tPending) ∧
        ref_ + lim ≤ t then
      x.enterTest d i.val tMissing 1
    else x))

/-- ANALOG_OVERCURRENT (R196): in current mode the shunt path opens and OVC is set. -/
def execAnalogOvercurrent (d : Ch) (n : Fin 8) (t : Time) (s : State) : Host.Outcome State Fault Refusal :=
  .next (s.modDie d (fun x =>
    let x := x.at t
    if x.is F.SI_AICFG_MODE n.val then
      { x.p F.SI_AICFG_OVC 1 n.val with inSide := { x.inSide with
          openedAt := Sparse.put (fun _ => 0) x.inSide.openedAt n.val t } }
    else x))

/-- ANALOG_RECONNECT (R196): 100 ms after it opened the shunt path reconnects. -/
def execAnalogReconnect (d : Ch) (n : Fin 8) (t : Time) (s : State) : Host.Outcome State Fault Refusal :=
  .next (s.modDie d (fun x =>
    let x := x.at t
    if Sparse.get (fun _ => 0) x.inSide.openedAt n.val + 100000000 ≤ t then x.p F.SI_AICFG_OVC 0 n.val else x))

/-- The SI_ lock is set (R174, R177, R189): sampling starts, TYPE and WET are applied at the power die's groups, bound
inputs start in OK and unbound ones in NONE. -/
def LogicDie.siLock (x : LogicDie) (d : Ch) : LogicDie :=
  let x := x.p F.SI_CTRL_LOCK 1
  let x := x.p F.SI_CTRL_SAMPLING 1
  let x := (List.range 6).foldl (fun x k =>
    let g := 6 * d.num + k
    (x.p F.SI_FE_TYPE (x.g F.SI_GRP_TYPE g) k).p F.SI_FE_WET (x.g F.SI_GRP_WET g) k) x
  (List.range 48).foldl (fun x i => x.p F.SI_STAT_TEST (x.testIdle i) i) x

/-- SI_LOCK (R177): the boot ROM sets the SI_ lock bit. -/
def execSiLock (d : Ch) (t : Time) (s : State) : Host.Outcome State Fault Refusal :=
  .next (s.modDie d (fun x => if (x.at t).is F.SI_CTRL_LOCK then x.at t else (x.at t).siLock d))

/-! ### What the input image takes (R188) -/

/-- Input instance i reads safe-1 with a filtered state (R30, R188, R380, R452). -/
def LogicDie.readsAs (x : LogicDie) (i : Nat) (filt : Bool) : Bool :=
  x.is F.SI_CTRL_SAMPLING && filt && decide (x.test i ≤ tPending) &&
    !x.inSide.pdInOff.testBit (frontPd i) && !x.inSide.senseFail.testBit (frontPd i) &&
    !x.inSide.feMis.testBit (groupOf i) && x.ioOn && !x.bist.penIn.testBit i

/-- Input instance i reads safe-1 now. -/
def LogicDie.readsHigh (x : LogicDie) (i : Nat) : Bool := x.readsAs i (x.is F.SI_STAT_FILT i)

/-- Input instance i reads safe-1 at the freeze of the fold that starts at `start` (R38): a change of the filtered
state at that instant enters the next fold. -/
def LogicDie.frozenHigh (x : LogicDie) (i start : Nat) : Bool :=
  x.readsAs i (if (x.inp i).filtAt = start then (x.inp i).filtWas else x.is F.SI_STAT_FILT i)

/-- The die's input halves, pair k at bits [2k+1:2k] (R49). -/
def LogicDie.halvesNow (x : LogicDie) : Nat :=
  (List.range 48).foldl (fun v k => v + codeOf (x.readsHigh k) * 4 ^ k) 0

/-! ### Restarts (R189, R390, R456) -/

/-- Input instances restart as at a lock (R177, R189, R390). -/
def LogicDie.restartInputs (x : LogicDie) (p : Nat → Bool) : LogicDie :=
  (List.range 48).foldl (fun x i =>
    if p i then
      let x := ((x.setInp i InputSt.zero).p F.SI_STAT_FILT 0 i).p F.SI_STAT_COUNT 0 i
      (((x.p F.SI_STAT_TEST (x.testIdle i) i).p F.SI_STAT_CAUSE 0 i).p F.SI_STAT_DARKPEND 0 i)
    else x) x

/-- The samples of the inputs of a power die start again with its input domain: nothing is restored, and their filters
and test states stand as they were (R189, R195); a pending dark sample is repeated at the next instant of its grid. -/
def LogicDie.samplesReturn (x : LogicDie) (p : Nat → Bool) : LogicDie :=
  (List.range 48).foldl (fun x i => if p i then x.setInp i { x.inp i with lastDark := none, run := 0 } else x) x

end Sys2Proof.Machine
end

