-- ==== Sys2Proof/Machine/Bist.lean ====
section
/-! DEFINITION. Self-test and repair (17): interconnect segments (R447), test commands (R449, R450), penning (R452-R456),
results (R457, R458), soft and fuse repair (R459-R461). -/

namespace Sys2Proof.Machine

/-! ### Segments (R447) -/

/-- Active and spare lanes of segment s (R447). -/
def segLanes (s : Nat) : Nat × Nat :=
  match s with
  | 0 => (64, 4)
  | 1 => (32, 2)
  | 2 => (32, 2)
  | 3 => (96, 5)
  | 4 => (224, 12)
  | 5 => (224, 12)
  | 6 => (96, 5)
  | 7 => (128, 6)
  | 8 => (128, 6)
  | 9 => (128, 6)
  | 10 => (128, 6)
  | 11 => (12, 1)
  | 12 => (32, 0)
  | _ => (0, 0)

/-- The logic die that tests segment s by command (R447). -/
def segTester (s : Nat) : Option Ch :=
  if s = 4 ∨ s = 6 ∨ s = 7 ∨ s = 9 ∨ s = 12 then some .la
  else if s = 5 ∨ s = 8 ∨ s = 10 ∨ s = 11 then some .lb
  else none

/-- Logic die d, or the power die that it controls, is an end of segment s (R447, R459). -/
def segWrites (d : Ch) (s : Nat) : Bool :=
  match d with
  | .la => s == 4 || s == 6 || s == 7 || s == 8 || s == 9 || s == 11 || s == 12
  | .lb => s == 5 || s == 6 || s == 8 || s == 9 || s == 10 || s == 11 || s == 12

/-- The power die that logic die d controls is an end of segment s. -/
def segPd (d : Ch) (s : Nat) : Bool :=
  match d with
  | .la => s == 4 || s == 7 || s == 8 || s == 11 || s == 12
  | .lb => s == 5 || s == 6 || s == 9 || s == 10 || s == 12

/-- Logic die d itself is an end of segment s. -/
def segOwn (d : Ch) (s : Nat) : Bool :=
  match d with
  | .la => s == 4 || s == 6 || s == 7 || s == 9
  | .lb => s == 5 || s == 8 || s == 10 || s == 11

/-! ### Repair maps (R459, R460) -/

/-- Entry k of segment s in a repair map. -/
def repIx (s k : Nat) : Nat := 12 * s + k

/-- The fused entries of segment s in effect (R460), in fuse order. -/
def LogicDie.fusedEntries (x : LogicDie) (s : Nat) : List Nat :=
  (List.range 12).filter (fun k => (Sparse.get (fun _ => 0) x.bist.fuseOn s).testBit k)

/-- The lanes of the fused entries of segment s in effect, in fuse order. -/
def LogicDie.fusedLanes (x : LogicDie) (s : Nat) : List Nat :=
  (x.fusedEntries s).map (fun k => x.g F.BIST_FUSE_LANE (repIx s k))

/-- The fuses take effect at a field restart (R460): fused lanes have the first spares in fuse order (R459), fused
slices are retired. -/
def LogicDie.fusesAct (x : LogicDie) : LogicDie :=
  let on := (List.range 13).foldl (fun m s => Sparse.put (fun _ => 0) m s
    ((List.range 12).foldl (fun v k => v + b2n (x.is F.BIST_FUSE_VALID (repIx s k)) * 2 ^ k) 0)) []
  let x := { x with bist := { x.bist with
    fuseOn := on, slOn := x.g F.BIST_SLFUSE_SL0 + 16 * x.g F.BIST_SLFUSE_SL1 } }
  (List.range 13).foldl (fun x s =>
    ((x.fusedEntries s).zip (List.range 12)).foldl (fun x (e : Nat × Nat) =>
      let i := repIx s e.1
      let x := x.p F.BIST_FUSE_SPARE e.2 i
      if x.is F.BIST_PDFUSE_VALID i then x.p F.BIST_PDFUSE_SPARE e.2 i else x) x) x

/-- The spares of segment s are assigned (R459): fused lanes first, then valid soft entries that name no fused lane,
while there are spares; the power die's end takes the same map. -/
def LogicDie.assignSpares (x : LogicDie) (d : Ch) (s : Nat) : LogicDie :=
  let fused := x.fusedLanes s
  let r := (List.range 12).foldl (fun (q : LogicDie × Nat) k =>
    let i := repIx s k
    if q.1.is F.BIST_REP_VALID i then
      if fused.contains (q.1.g F.BIST_REP_LANE i) then ((q.1.p F.BIST_REP_DUP 1 i).p F.BIST_REP_SPARE 0 i, q.2)
      else ((q.1.p F.BIST_REP_DUP 0 i).p F.BIST_REP_SPARE (if q.2 < (segLanes s).2 then q.2 else 0) i, q.2 + 1)
    else ((q.1.p F.BIST_REP_DUP 0 i).p F.BIST_REP_SPARE 0 i, q.2)) (x, fused.length)
  if segPd d s then
    (List.range 12).foldl (fun y k => y.wr .BIST_PDREP (repIx s k) (y.rd .BIST_REP (repIx s k))) r.1
  else r.1

/-- The free spares of segment s on a die. -/
def LogicDie.freeSpares (x : LogicDie) (s : Nat) : Nat :=
  let soft := (List.range 12).filter (fun k =>
    x.is F.BIST_REP_VALID (repIx s k) && !x.is F.BIST_REP_DUP (repIx s k))
  (segLanes s).2 - (x.fusedLanes s).length - soft.length

/-- A write of a soft repair entry (R459, R462): an access error where the die writes no end of the segment, and once
the block is locked. Entries beyond the spares fail the image verdict. -/
def LogicDie.softRepair (x : LogicDie) (d : Ch) (s k lane : Nat) (valid : Bool) (p : Party) : LogicDie :=
  let i := repIx s k
  if s < 4 ∨ ¬ segWrites d s ∨ x.is F.BIST_CTRL_LOCK then
    x.accessError d p (regAddr .BIST_REP i)
  else ((x.p F.BIST_REP_LANE lane i).p F.BIST_REP_VALID (b2n valid) i).assignSpares d s

/-- SOFT_REPAIR_WRITE (R459). -/
def execSoftRepairWrite (d : Ch) (seg : Fin 13) (k : Fin 12) (lane : Fin 256) (valid : Bool) (party : Party) (t : Time)
    (s : State) : Host.Outcome State Fault Refusal :=
  .next (s.modDie d (fun x => (x.at t).softRepair d seg.val k.val lane.val valid party))

/-! ### Tests (R449, R450) -/

/-- The converter of a SLICE or FUSE unit and the die that controls it. -/
def convDie (c : Nat) : Ch := if c < 2 then .la else .lb

/-- The receiving die tests the unit (R449); LA, which sets the setpoints of every stage (R228), tests the lamp groups. -/
def bistUnitOk (d : Ch) (q : BistCmd) : Bool :=
  if q.test = 1 then segTester q.unit == some d && decide (4 ≤ q.unit)
  else if q.test = 2 then
    let g := q.unit % 256
    if q.unit / 256 = 1 then decide (g < 12) && (g / 6 == d.num)
    else if q.unit / 256 = 2 then decide (g < 4)
    else if q.unit / 256 = 3 then decide (g < 6) && d == .la
    else false
  else if q.test = 3 then q.unit == 0
  else if q.test = 4 then decide (q.unit < 4) && convDie q.unit == d
  else if q.test = 0x10 then
    (segTester q.unit == some d && decide (4 ≤ q.unit)) ||
      (decide (0x80 ≤ q.unit) && decide (q.unit < 0x84) && convDie (q.unit - 0x80) == d)
  else false

/-- The test is marked quiet (R449). -/
def bistQuiet (q : BistCmd) : Bool := q.test != 4 && !(q.test == 2 && q.unit / 256 == 3)

/-- The device is quiet as a die sees it (R450): every zone-state bit of the last committed fold safe-0, no cmd set. -/
def LogicDie.quietNow (x : LogicDie) : Bool :=
  x.g F.SO_CMD_CMD == 0 && (List.range 16).all (fun z =>
    !safeOne (BitVec.ofNat 64 (readLE x.memC 0x20001010 8)) z)

/-- The domains that hold the unit are ON (R450): the link ports and what the test reaches on the power dies. -/
def State.bistPowered (s : State) (d : Ch) (q : BistCmd) : Bool :=
  let on := fun (c : Ch) (k : Nat) => (s.die c).g F.PWR_DOM_STATE k == domOn
  on d 3 &&
    (if q.test = 1 then q.unit != 12 || (on .la 6 && on .lb 6)
     else if q.test = 0x10 then true
     else if q.test = 2 then
       (if q.unit / 256 = 1 then on d 9
        else if q.unit / 256 = 2 then on d 6
        else on (if q.unit % 256 < 3 then .la else .lb) 7)
     else if q.test = 3 then on d 9
     else on d 8)

/-- A result message (R457). -/
def LogicDie.bistSend (x : LogicDie) (q : BistCmd) (result cover duration : Nat) (detail : List Nat) : LogicDie :=
  x.send (.bistRes q.test q.unit result cover duration detail)

/-! ### Penning (R452, R456) -/

/-- The input instances of die `d` that a unit under test by die `me` takes: bit i of instance i; both dies see both
power dies. -/
def penInputs (d : Ch) (me : Ch) (q : BistCmd) : Nat :=
  let pd := fun (p : Nat) => (List.range 48).foldl (fun v i => v + b2n (frontPd i == p) * 2 ^ i) 0
  if q.test = 2 ∧ q.unit / 256 = 1 then
    (List.range 48).foldl (fun v i => v + b2n (groupOf i == q.unit % 256) * 2 ^ i) 0
  else if q.test = 3 then pd me.num
  else if q.test = 1 then
    if q.unit = 6 then (if d = .la then pd 1 else 0)
    else if q.unit = 7 then (if d = .la then pd 0 else 0)
    else if q.unit = 8 then (if d = .lb then pd 0 else 0)
    else if q.unit = 9 then (if d = .la then pd 1 else 0)
    else if q.unit = 10 then (if d = .lb then pd 1 else 0)
    else if q.unit = 11 then (if d = .lb then pd 0 else 0)
    else 0
  else 0

/-- The lamp strings that a unit takes: a lamp group; those whose setpoints control link A or the lamp link carries. -/
def penLamps (q : BistCmd) : Nat :=
  if q.test = 2 ∧ q.unit / 256 = 3 then 0xFF * 2 ^ (8 * (q.unit % 256))
  else if q.test = 1 ∧ q.unit = 4 then 0xFFFFFF
  else if q.test = 1 ∧ q.unit = 6 then 0xFFFFFF * 2 ^ 24
  else 0

/-- The converters of die `d` that a unit takes: one, or those that a control link carries. -/
def penAdcs (d me : Ch) (q : BistCmd) : Nat :=
  if d ≠ me then 0
  else if q.test = 4 then 2 ^ (q.unit % 2)
  else if q.test = 1 ∧ (q.unit = 4 ∨ q.unit = 5) then 3
  else 0

/-- The sources that a penned unit keeps silent on die `d` (R452): input tests, output findings, stage and proof
findings, slice strikes, test pulses and matrix findings of what a link carries, link resends. -/
def penMutes (d me : Ch) (q : BistCmd) : List (Nat × Nat) :=
  let bitsFrom := fun (v b : Nat) => ((List.range 48).filter (fun i => v.testBit i)).map (fun i => (b + i, b + i))
  let control := q.test == 1 && (q.unit == 4 || q.unit == 5) && d == me
  bitsFrom (penInputs d me q) 112 ++ bitsFrom (penLamps q) 328 ++ bitsFrom (penLamps q) 376 ++
    ((List.range 2).filter (fun c => (penAdcs d me q).testBit c)).map (fun c => (436 + 2 * c, 437 + 2 * c)) ++
    (if q.test = 2 ∧ q.unit / 256 = 2 then
      [192, 224, 256, 288].map (fun b => (b + 8 * (q.unit % 256), b + 8 * (q.unit % 256) + 7)) else []) ++
    (if control ∨ (q.test = 1 ∧ q.unit = 12) then [(192, 319)] else []) ++
    (if control then [(172, 179)] else []) ++
    (if q.test = 1 ∧ q.unit = 6 then [(434, 434)] else []) ++
    (if q.test = 1 then [(52, 52)] else [])

/-- What a test by die `me` pens on die `d`. -/
def penOf (d me : Ch) (q : BistCmd) : Pen := ⟨penInputs d me q, penLamps q, penAdcs d me q, penMutes d me q⟩

/-- What the test of die `me` pens here. -/
def BistSt.pen (b : BistSt) (me : Ch) : Pen := match me with | .la => b.penA | .lb => b.penB

/-- Replace what the test of die `me` pens here. -/
def LogicDie.setPen (x : LogicDie) (me : Ch) (p : Pen) : LogicDie :=
  match me with
  | .la => { x with bist := { x.bist with penA := p } }
  | .lb => { x with bist := { x.bist with penB := p } }

/-- The unit is penned on a die that it reaches: stages are dark, converters abandon their work. -/
def LogicDie.pen (x : LogicDie) (d me : Ch) (q : BistCmd) : LogicDie :=
  let x := x.setPen me (penOf d me q)
  let x := (List.range 24).foldl (fun x k => if (penLamps q).testBit (k + 24 * d.num) then x.p F.LMP_STG_B 0 k else x) x
  (List.range 2).foldl (fun x c =>
    if (penAdcs d me q).testBit c then
      (x.setAdc c (x.adc c).dropWork).p F.ADC_CALSTAT_BUSY (b2n (x.adc (1 - c)).cal.isSome)
    else x) x

/-- The unit is re-initialised (R456) and its pen released on a die that it reaches. -/
def LogicDie.unpen (x : LogicDie) (d me : Ch) (q : BistCmd) : LogicDie :=
  let p := x.bist.pen me
  let x := x.restartInputs (fun i => p.ins.testBit i)
  let x := (List.range 48).foldl (fun x n =>
    if p.lamps.testBit n then x.setLamp n { x.lamp n with stopped := false } else x) x
  let x := if q.test = 2 ∧ q.unit / 256 = 2 then
      (List.range 8).foldl (fun x k =>
        (x.p F.SO_STAT_PENDA 0 (8 * (q.unit % 256) + k)).p F.SO_STAT_PENDB 0 (8 * (q.unit % 256) + k)) x
    else x
  let x := (List.range 2).foldl (fun x c =>
    if p.adcs.testBit c then (x.setAdc c (x.adc c).recorrect).p F.ADC_STAT_CONVERGED 0 c else x) x
  let x := if q.test = 1 ∧ segWrites d q.unit then x.assignSpares d q.unit else x
  x.setPen me .none

/-- A unit, or a part of it, is under test (R450): its segment, its pins on either die, its converter or the group's
own switches. -/
def State.bistPenned (s : State) (d : Ch) (q : BistCmd) : Bool :=
  [Ch.la, Ch.lb].any (fun c =>
    match (s.die c).bist.cur with
    | none => false
    | some r =>
      r.test != 0x10 &&
        ((r.test == 1 && (q.test == 1 || q.test == 0x10) && r.unit == q.unit) ||
          (r.test == 4 && q.test == 0x10 && q.unit == 0x80 + r.unit) ||
          (r.test == 2 && q.test == 2 && r.unit / 256 == 2 && r.unit == q.unit && c == d) ||
          [Ch.la, Ch.lb].any (fun e =>
            Nat.land (penInputs e c r) (penInputs e d q) != 0 || Nat.land (penAdcs e c r) (penAdcs e d q) != 0) ||
          Nat.land (penLamps r) (penLamps q) != 0))

/-- The result that refuses a test at its start (R450, R461): NOPOWER, the unit penned, not quiet. -/
def State.bistRefusal (s : State) (d : Ch) (q : BistCmd) : Option Nat :=
  let x := s.die d
  if ¬ s.bistPowered d q ∨ x.is F.PWR_STAT_PDSEQ then some 8
  else if s.bistPenned d q then some 6
  else if bistQuiet q ∧ ¬ x.quietNow then some 3
  else none

/-- The registers show the test that runs, the unit that it pens, and the commands that wait (R462); a burn pens nothing. -/
def LogicDie.bistShow (x : LogicDie) : LogicDie :=
  let x := x.p F.BIST_STAT_QUEUED x.bist.queue.length
  match x.bist.cur with
  | none => ((x.p F.BIST_STAT_BUSY 0).p F.BIST_STAT_TEST 0).p F.BIST_STAT_UNIT 0
  | some q =>
    let pens := q.test != 0x10
    ((x.p F.BIST_STAT_BUSY (b2n pens)).p F.BIST_STAT_TEST q.test).p F.BIST_STAT_UNIT (if pens then q.unit else 0)

/-- A test starts (R452, R458): the pen, and log record 0x0500. -/
def State.bistStart (s : State) (d : Ch) (q : BistCmd) : State :=
  let s := s.modDie d (fun x =>
    let x := { x with bist := { x.bist with cur := some q, penAt := x.now, cut := false } }
    let x := if q.test = 1 then x.p F.BIST_PDSTAT_RUN (b2n (segPd d q.unit)) else x
    x.log d x.now x.recFold 0x0500 5 (q.test + q.unit * 2 ^ 16))
  let s := if q.test = 0x10 then s else (s.modDie .la (fun x => x.pen .la d q)).modDie .lb (fun x => x.pen .lb d q)
  s.modDie d (·.bistShow)

/-- The conditions of a FUSE command on a die (R461). -/
def LogicDie.fuseAllowed (x : LogicDie) : Bool :=
  x.bit F.DBG_STAT_SCOPE 4 && x.quietNow && !x.is F.PWR_STAT_VF24LOW && !x.is F.PWR_STAT_PDSEQ

/-- Every die that holds an end of a FUSE unit meets the conditions. -/
def State.fuseAllowed (s : State) (d : Ch) (unit : Nat) : Bool :=
  (s.die d).fuseAllowed && (decide (0x80 ≤ unit) || !segWrites (other d) unit || (s.die (other d)).fuseAllowed)

/-- The commands that wait start while none runs; those that must be refused are answered. -/
def State.bistNext (s : State) (d : Ch) : Nat → State
  | 0 => s
  | fuel + 1 =>
    let x := s.die d
    match x.bist.cur, x.bist.queue with
    | none, q :: rest =>
      let s := s.setDie d { x with bist := { x.bist with queue := rest } }
      match s.bistRefusal d q with
      | some r => (s.modDie d (fun x => (x.bistShow).bistSend q r 0 0 [])).bistNext d fuel
      | none =>
        if q.test = 0x10 ∧ ¬ s.fuseAllowed d q.unit then
          (s.modDie d (fun x => (x.bistShow).bistSend q 7 0 0 [])).bistNext d fuel
        else s.bistStart d q
    | _, _ => s.modDie d (·.bistShow)

/-- A self-test command arrives (R449, R450): refused where the die does not test the unit, the unit is penned, or
four commands wait. -/
def State.bistAccept (s : State) (d : Ch) (q : BistCmd) : State :=
  let x := s.die d
  if ¬ bistUnitOk d q then s.modDie d (fun x => x.bistSend q 4 0 0 [])
  else if x.bist.queue.length ≥ 4 ∨ s.bistPenned d q then
    s.modDie d (fun x => x.bistSend q 6 0 0 [])
  else (s.setDie d { x with bist := { x.bist with queue := x.bist.queue ++ [q] } }).bistNext d 5

/-- A BIST_CMD of one of `tests` arrives at a logic die. -/
def bistCommand (d : Ch) (ok : Nat → Bool) (t : Time) (s : State) : Host.Outcome State Fault Refusal :=
  let s := s.modDie d (·.at t)
  match s.incoming d false with
  | some (.bistCmd test unit opts) =>
    if ok test then .next ((s.accepted d false).bistAccept d ⟨test, unit, opts⟩) else .next s
  | _ => .next s

/-- LANE (R449); a test code that the table does not assign is answered here too. -/
def execBistLane (d : Ch) (t : Time) (s : State) : Host.Outcome State Fault Refusal :=
  bistCommand d (fun c => c != 2 && c != 3 && c != 4 && c != 0x10) t s

/-- PIN (R449). -/
def execBistPin (d : Ch) (t : Time) (s : State) : Host.Outcome State Fault Refusal := bistCommand d (· == 2) t s

/-- NEIGHBOUR (R449). -/
def execBistNeighbour (d : Ch) (t : Time) (s : State) : Host.Outcome State Fault Refusal := bistCommand d (· == 3) t s

/-- SLICE (R449). -/
def execBistSlice (d : Ch) (t : Time) (s : State) : Host.Outcome State Fault Refusal := bistCommand d (· == 4) t s

/-- FUSE (R449, R461). -/
def execBistFuse (d : Ch) (t : Time) (s : State) : Host.Outcome State Fault Refusal := bistCommand d (· == 0x10) t s

/-! ### The end of a test (R454-R458) -/

/-- The coverage of a test in 0.01 % (R449). -/
def bistCover (q : BistCmd) : Nat :=
  if q.test = 1 then 9950
  else if q.test = 2 then (if q.unit / 256 = 1 then 9600 else if q.unit / 256 = 2 then 9700 else 9200)
  else if q.test = 3 then 10000
  else if q.test = 4 then 9800
  else 0

/-- The lanes, pins or slices that a test covers (an input group has 8 pins on both channels); the adjacent pairs of
NEIGHBOUR follow the ball map. -/
def bistCount (q : BistCmd) (pairs : Nat) : Nat :=
  if q.test = 1 then (segLanes q.unit).1 + (segLanes q.unit).2
  else if q.test = 2 then 8
  else if q.test = 3 then pairs
  else if q.test = 4 then 9
  else 0

/-- Set bits of a number below n. -/
def bitCount (n v : Nat) : Nat := ((List.range n).filter (fun i => v.testBit i)).length

/-- The result of a test that ran to its end (R457). -/
def LogicDie.bistVerdict (x : LogicDie) (q : BistCmd) (fails : Nat) (codes : List (Fin 256)) : Nat :=
  if q.test = 1 then
    let act := (segLanes q.unit).1
    let spare := bitCount 256 (fails / 2 ^ act)
    if fails = 0 then 0 else if bitCount act fails + spare ≤ x.freeSpares q.unit then 1 else 2
  else if q.test = 2 then (if codes.all (fun c => c.val == 0) then 0 else 2)
  else if q.test = 3 then (if fails = 0 then 0 else 2)
  else if q.test = 4 then
    let bad := (codes.take 9).filter (fun c => c.val != 0)
    if bad = [] then 0
    else if bad.length = 1 ∧ (codes.getD 8 0).val = 0 then 1
    else 2
  else 0

/-- The detail bytes of a result (R457). -/
def bistDetail (q : BistCmd) (fails transient : Nat) (codes : List (Fin 256)) : List Nat :=
  if q.test = 1 then bytesLE 30 fails ++ bytesLE 2 transient
  else if q.test = 3 then bytesLE 32 fails
  else if q.test = 2 ∨ q.test = 4 then codes.map Fin.val
  else []

/-- A slice entry of BIST_SLFUSE is partly burned where one of the die's two converters has such an entry (R460, R462). -/
def LogicDie.slicePartial (x : LogicDie) (c : Nat) (v : Bool) : LogicDie :=
  let x := { x with bist := { x.bist with slPart := setBits x.bist.slPart c c (b2n v) } }
  let x := x.p F.BIST_SLFUSE_PARTIAL (b2n (x.bist.slPart != 0))
  x.wr .BIST_PDSLF 0 (x.rd .BIST_SLFUSE)

/-- A fuse entry is burned at the ends of a die (R460, R461). -/
def LogicDie.burnEntry (x : LogicDie) (d : Ch) (q : BistCmd) (whole : Bool) : LogicDie :=
  let lane := q.opts % 256
  if 0x80 ≤ q.unit then
    if convDie (q.unit - 0x80) ≠ d then x
    else
      let c := (q.unit - 0x80) % 2
      let x := if whole then x.p (if c = 0 then F.BIST_SLFUSE_SL0 else F.BIST_SLFUSE_SL1) lane else x
      let x := x.slicePartial c (!whole)
      if whole then x.log d x.now x.recFold 0x0502 5 (q.unit % 256 + lane * 2 ^ 8) else x
  else if ¬ segWrites d q.unit then x
  else
    match (List.range (segLanes q.unit).2).find? (fun k => !x.is F.BIST_FUSE_VALID (repIx q.unit k)) with
    | none => x
    | some k =>
      let i := repIx q.unit k
      let x := if whole then (x.p F.BIST_FUSE_LANE lane i).p F.BIST_FUSE_VALID 1 i else x
      let x := x.p F.BIST_FUSE_PARTIAL (b2n (!whole)) i
      let x := if segPd d q.unit then x.wr .BIST_PDFUSE i (x.rd .BIST_FUSE i) else x
      if whole then x.log d x.now x.recFold 0x0502 5 (q.unit % 256 + lane * 2 ^ 8) else x

/-- A burn is interrupted (R460): at the ends of a die the entry stands as before, partly burned, or whole; which is open. -/
def LogicDie.burnCut (x : LogicDie) (d : Ch) (q : BistCmd) : LogicDie :=
  let f := x.freeWord d
  if f.1.toNat % 3 = 0 then f.2 else f.2.burnEntry d q (f.1.toNat % 3 == 2)

/-- The burn that runs on a logic die, if one does, is interrupted at every end (R460). -/
def State.burnsCut (s : State) : State :=
  [Ch.la, Ch.lb].foldl (fun s d =>
    match (s.die d).bist.cur with
    | some q => if q.test = 0x10 then (s.modDie .la (fun x => x.burnCut .la q)).modDie .lb (fun x => x.burnCut .lb q) else s
    | none => s) s

/-- A test ends with a result (R456-R458): the pen is released after re-initialisation, the registers and the log follow,
source 44 on result 1 or 2, and BIST_RES. `cover`: the coverage and the count that it carries. -/
def State.bistFinish (s : State) (d : Ch) (result transient cover count : Nat) (detail : List Nat) : State :=
  match (s.die d).bist.cur with
  | none => s
  | some q =>
    let s := if q.test = 0x10 then s
      else (s.modDie .la (fun x => x.unpen .la d q)).modDie .lb (fun x => x.unpen .lb d q)
    s.modDie d (fun x =>
      let dur := x.now - x.bist.penAt
      let x := { x with bist := { x.bist with cur := none } }
      let x := x.p F.BIST_PDSTAT_RUN 0
      let x := ((x.p F.BIST_LAST_RESULT result).p F.BIST_LAST_TEST q.test).p F.BIST_LAST_UNIT q.unit
      let x := (x.p F.BIST_LAST_COVER cover).p F.BIST_LTIME_DURATION dur
      let x := (x.count F.BIST_CNT_RUN).count F.BIST_CNT_TRANS transient
      let x := if result = 1 ∨ result = 2 then (x.count F.BIST_CNT_FAIL).raise d 44 (q.test + q.unit * 2 ^ 16) else x
      let x := x.log d x.now x.recFold 0x0501 5 (q.test + q.unit * 2 ^ 16 + result * 2 ^ 32)
      (x.bistShow).bistSend q result (cover + count * 2 ^ 16) dur detail)

/-- A test that ran to its end ends, and the next command starts. -/
def State.bistEnd (s : State) (d : Ch) (result transient pairs : Nat) (detail : List Nat) : State :=
  match (s.die d).bist.cur with
  | none => s
  | some q => (s.bistFinish d result transient (bistCover q) (bistCount q pairs) detail).bistNext d 5

/-- The commands that wait on both dies start where no test runs. -/
def State.bistGo (s : State) : State :=
  [Ch.la, Ch.lb].foldl (fun s d =>
    if (s.die d).bist.cur = none ∧ (s.die d).bist.queue ≠ [] then s.bistNext d 5 else s) s

/-- The running test of a die is aborted (R455). How far its patterns, or a burn, had come is open (R457, R460). -/
def State.bistAbort (s : State) (d : Ch) : State :=
  match (s.die d).bist.cur with
  | none => s
  | some q =>
    if q.test = 0x10 then
      ((s.modDie .la (fun x => x.burnCut .la q)).modDie .lb (fun x => x.burnCut .lb q)).bistFinish d 5 0 0 0 []
    else
      let f := s.freeWord
      let g := f.2.freeWord
      g.2.bistFinish d 5 0 (f.1.toNat % (bistCover q + 1)) (g.1.toNat % (bistCount q 65535 + 1)) []

/-- Domain k of die d leaves ON: the tests of its units end early (R455). -/
def State.bistLeave (s : State) (d : Ch) (k : Nat) : State :=
  let t := s.modDie d (fun x => x.p F.PWR_DOM_STATE 0 k)
  [Ch.la, Ch.lb].foldl (fun s c =>
    if (s.die c).bist.cur.any (fun q => !t.bistPowered c q) then s.bistAbort c else s) s

/-- TEST_END (R454-R458): the running test of a die ends and its pen is released. `fails`: lanes (active first) or
pairs failing twice; `codes`: one code per pin or slice; `transient`: lanes or slices that passed the second time;
`pairs`: adjacent pairs tested. It is ABORTED where the channel has gone safe since its start, FRST holds the die,
PDSEQ is set, or a domain that holds the unit is not ON. -/
def execTestEnd (d : Ch) (fails transient pairs : Nat) (codes : List (Fin 256)) (t : Time) (s : State) :
    Host.Outcome State Fault Refusal :=
  let s := s.modDie d (·.at t)
  let x := s.die d
  match x.bist.cur with
  | none => .next s
  | some q =>
    if x.bist.cut ∨ x.pw.frstOn ∨ x.is F.PWR_STAT_PDSEQ ∨ ¬ s.bistPowered d q then .next (s.bistAbort d).bistGo
    else if q.test = 0x10 then
      let full := decide (q.unit < 0x80) &&
        (List.range (segLanes q.unit).2).all (fun k => x.is F.BIST_FUSE_VALID (repIx q.unit k))
      if full then .next (s.bistEnd d 2 0 0 [])
      else
        .next (((s.modDie .la (fun x => x.burnEntry .la q true)).modDie .lb (fun x => x.burnEntry .lb q true)).bistEnd d 0 0 0 [])
    else .next (s.bistEnd d (x.bistVerdict q fails codes) transient pairs (bistDetail q fails transient codes))

end Sys2Proof.Machine
end

