-- ==== Sys2Proof/Machine/GtCk.lean ====
section
/-! DEFINITION. General timers (R424-R433), check-value units (R434-R437) and the sending of the event log (R440). -/

namespace Sys2Proof.Machine

/-! ### General timers -/

/-- The count of a timer takes a value; its recent values are kept for captures (R194). -/
def LogicDie.setCount (x : LogicDie) (n v : Nat) : LogicDie :=
  let old := (x.countLog n).filter (fun e => decide (x.now < e.1 + 2000))
  { x with gtLog := Sparse.put (fun _ => []) x.gtLog n ((x.now, x.g F.GT_CNT_VALUE n) :: old) }.p F.GT_CNT_VALUE v n

/-- A timer counts: EN, the GT_ lock bit, and LA_IO (LB_IO) ON (R424). -/
def LogicDie.gtRuns (x : LogicDie) (n : Nat) : Bool := x.is F.GT_CFG_EN n && x.is F.GT_CTRL_LOCK && x.ioOn

/-- One pin action: 0 none, 1 set high, 2 clear low, 3 toggle (R427). -/
def pinAction (act pin : Nat) : Nat :=
  if act = 1 then 1 else if act = 2 then 0 else if act = 3 then 1 - pin else pin

/-- The pin of a timer takes a level; the pins of GT0 to GT7 reach their sources (R181, R427). A test-pulse driver
takes it at once (DESIGN CHOICE, log 126). -/
def LogicDie.setPin (x : LogicDie) (n level : Nat) : LogicDie :=
  let x := x.p F.GT_STAT_PIN level n
  if n < 8 then x.tpCommand n (level == 1) x.now else x

/-- A match of compare register j (R272, R427, R433): M0 or M1, the EVENTS bit, and a trigger for the converters. -/
def LogicDie.gtMatch (x : LogicDie) (n j : Nat) : LogicDie :=
  (x.p (if j = 0 then F.GT_STAT_M0 else F.GT_STAT_M1) 1 n).setEvent n |>.trigFrom (3 + n) x.now

/-- One tick of a timer, and of the cascade above it on an overflow (R424, R426, R427, R429). `fuel` bounds the cascade. -/
def LogicDie.gtTick (x : LogicDie) : Nat → Nat → LogicDie
  | _, 0 => x
  | n, fuel + 1 =>
    if ¬ x.gtRuns n then x
    else
      let c := x.g F.GT_CNT_VALUE n
      let period := x.is F.GT_CFG_PERIOD n
      let ov := if period then decide (c ≥ x.g F.GT_TOP_VALUE n) else decide (c = 2 ^ 32 - 1)
      let c' := if ov then 0 else c + 1
      let x := x.setCount n c'
      let m0 := decide (c' = x.g F.GT_CMP0_VALUE n)
      let m1 := decide (c' = x.g F.GT_CMP1_VALUE n)
      let pin := x.g F.GT_STAT_PIN n
      let pin := if ov then pinAction (x.g F.GT_CFG_ACTOV n) pin else pin
      let pin := if m0 then pinAction (x.g F.GT_CFG_ACT0 n) pin else pin
      let pin := if m1 then pinAction (x.g F.GT_CFG_ACT1 n) pin else pin
      let x := if ov then x.p F.GT_STAT_OVF 1 n else x
      let x := if m0 then x.gtMatch n 0 else x
      let x := if m1 then x.gtMatch n 1 else x
      let x := if pin = x.g F.GT_STAT_PIN n then x else x.setPin n pin
      if ov ∧ n + 1 < 16 ∧ x.is F.GT_CFG_CASC (n + 1) then LogicDie.gtTick x (n + 1) fuel else x

/-- The tick of timer n at t by the timebase (R424): floor(t / TICK) increases at the multiples of TICK, once at each;
a cascaded timer ticks only at its lower member's overflow. -/
def LogicDie.gtTickAt (x : LogicDie) (n t : Nat) : LogicDie :=
  if x.is F.GT_CFG_CASC n ∨ t % (5 * (x.g F.GT_CFG_PRE n + 1)) ≠ 0 ∨ Sparse.get (fun _ => none) x.gtTicked n = some t then x
  else { x with gtTicked := Sparse.put (fun _ => none) x.gtTicked n (some t) }.gtTick n 16

/-- TIMER_TICK (R424): an instant at which timer n may tick. -/
def execTimerTick (d : Ch) (n : Fin 16) (t : Time) (s : State) : Host.Outcome State Fault Refusal :=
  .next (s.modDie d (fun x =>
    (x.at t).gtTickAt n.val t))

/-- A write of a compare register reaches the live comparator (R427, R428): a value equal to the count of a counting
timer is a write match at once; a value above TOP never matches in period mode (R424). -/
def LogicDie.gtWriteCmp (x : LogicDie) (r : Reg) (n v : Nat) : LogicDie :=
  let j := if r = .GT_CMP0 then 0 else 1
  let x := x.p (if j = 0 then F.GT_CMP0_VALUE else F.GT_CMP1_VALUE) v n
  if x.gtRuns n ∧ x.g F.GT_CNT_VALUE n = v % 2 ^ 32 ∧
      ¬ (x.is F.GT_CFG_PERIOD n ∧ x.g F.GT_TOP_VALUE n < v % 2 ^ 32) then
    let x := x.gtMatch n j
    let pin := x.g F.GT_STAT_PIN n
    let new := pinAction (if j = 0 then x.g F.GT_CFG_ACT0 n else x.g F.GT_CFG_ACT1 n) pin
    if new = pin then x else x.setPin n new
  else x

/-- GT_CMP_WRITE (R428): a compare write takes effect. -/
def execGtCmpWrite (d : Ch) (n : Fin 16) (j : Fin 2) (v : BitVec 32) (t : Time) (s : State) :
    Host.Outcome State Fault Refusal :=
  .next (s.modDie d (fun x => (x.at t).gtWriteCmp (if j = 0 then .GT_CMP0 else .GT_CMP1) n.val v.toNat))

/-- GT_CNT_WRITE (R429): a count write takes effect and produces no match; with a tick in the same cycle the written
value stands and the tick's matches and overflow are still delivered. -/
def execGtCntWrite (d : Ch) (n : Fin 16) (v : BitVec 32) (withTick : Bool) (t : Time) (s : State) :
    Host.Outcome State Fault Refusal :=
  .next (s.modDie d (fun x =>
    let x := x.at t
    let x := if withTick then x.gtTickAt n.val t else x
    x.setCount n.val v.toNat))

/-- The lowest member of the cascade that holds timer n (R426). -/
def LogicDie.cascLow (x : LogicDie) : Nat → Nat
  | 0 => 0
  | n + 1 => if x.is F.GT_CFG_CASC (n + 1) then LogicDie.cascLow x n else n + 1

/-- The members of the cascade that holds timer n (R426). -/
def LogicDie.cascade (x : LogicDie) (n : Nat) : List Nat :=
  (List.range 16).filter (fun k => x.cascLow k == x.cascLow n)

/-- SNAP (R430): the counts of every member of the cascade are latched in one cycle. -/
def LogicDie.gtSnap (x : LogicDie) (n : Nat) : LogicDie :=
  (x.cascade n).foldl (fun x k => x.p F.GT_SNAP_COUNT (x.g F.GT_CNT_VALUE k) k) x

/-- SNAP (R430). -/
def execSnap (d : Ch) (n : Fin 16) (t : Time) (s : State) : Host.Outcome State Fault Refusal :=
  .next (s.modDie d (fun x => (x.at t).gtSnap n.val))

/-- The oldest capture of a timer as GT_CAPn reads it; 0 where the queue is empty (R431). -/
def LogicDie.capHead (x : LogicDie) (n : Nat) : Word :=
  match x.caps n with
  | [] => 0#64
  | e :: _ => e.2

/-- The oldest capture leaves the queue (R431). -/
def LogicDie.capPop (x : LogicDie) (n : Nat) : LogicDie := x.setCaps n (x.caps n).tail

/-- GT_CAP_READ (R431): a companion-core read of GT_CAPn removes the oldest entry at once; a fold-task read removes it at
commit, where the entry it read is still queued. -/
def execGtCapRead (d : Ch) (n : Fin 16) (party : Party) (t : Time) (s : State) : Host.Outcome State Fault Refusal :=
  .next (s.modDie d (fun x =>
    let x := x.at t
    if party = .foldTask then
      match x.caps n.val with
      | [] => x
      | e :: _ => x.holdStore d (.rcClear (regAddr .GT_CAP n.val) (BitVec.ofNat 64 e.1))
    else x.capPop n.val))

/-- The phase of an aligned timer (R425): floor(t / TICK) mod M. -/
def LogicDie.alignedCount (x : LogicDie) (n : Nat) : Nat :=
  (x.now / (5 * (x.g F.GT_CFG_PRE n + 1))) %
    (if x.is F.GT_CFG_PERIOD n then x.g F.GT_TOP_VALUE n + 1 else 2 ^ 32)

/-- A timer's count starts from the timebase or from 0, which is no tick (R425). -/
def LogicDie.gtLoad (x : LogicDie) (n v : Nat) : LogicDie :=
  { x with gtTicked := Sparse.put (fun _ => none) x.gtTicked n (some x.now) }.setCount n v

/-- The GT_ lock is set (R425): counts, pins, counting. -/
def LogicDie.gtLock (x : LogicDie) : LogicDie :=
  let x := x.p F.GT_CTRL_LOCK 1
  (List.range 16).foldl (fun x n =>
    let x := x.gtLoad n (if x.is F.GT_CFG_ALIGN n then x.alignedCount n else 0)
    x.setPin n (x.g F.GT_CFG_INIT n)) x

/-- GT_LOCK (R425): the boot ROM sets the GT_ lock bit. -/
def execGtLock (d : Ch) (t : Time) (s : State) : Host.Outcome State Fault Refusal :=
  .next (s.modDie d (fun x => if (x.at t).is F.GT_CTRL_LOCK then x.at t else (x.at t).gtLock))

/-- Add `k` ticks to a cascade from member n up as one sum, without matches or pin actions (R432). A count above TOP
wraps at its first tick (R424); a member that does not count takes no ticks. -/
def LogicDie.gtAdd (x : LogicDie) : Nat → Nat → Nat → LogicDie
  | _, _, 0 => x
  | n, k, fuel + 1 =>
    let m := if x.is F.GT_CFG_PERIOD n then x.g F.GT_TOP_VALUE n + 1 else 2 ^ 32
    let c := x.g F.GT_CNT_VALUE n
    let past := decide (m ≤ c)
    let sum := if past then k - 1 else c + k
    let ovs := b2n past + sum / m
    if k = 0 ∨ ¬ x.is F.GT_CFG_EN n then x
    else
    let x := x.setCount n (sum % m)
    if ovs = 0 then x
    else
      let x := x.p F.GT_STAT_OVF 1 n
      if n + 1 < 16 ∧ x.is F.GT_CFG_CASC (n + 1) then LogicDie.gtAdd x (n + 1) ovs fuel else x

/-- The timers are made up after FALLOW (R432): aligned timers take their phase, other cascades the elapsed slow-clock
ticks (30,517.578125 ns each) as one sum; MADEUP, and one log record for the restored domain. -/
def LogicDie.gtMakeUp (x : LogicDie) (d : Ch) (dom slow : Nat) : LogicDie :=
  let elapsed := slow * 30517578125 / 1000000
  let x := (List.range 16).foldl (fun x n =>
    if ¬ x.is F.GT_CTRL_LOCK then x
    else
      let x := x.p F.GT_STAT_MADEUP 1 n
      if x.is F.GT_CFG_ALIGN n then x.gtLoad n (x.alignedCount n)
      else if x.is F.GT_CFG_CASC n then x
      else x.gtAdd n (elapsed / (5 * (x.g F.GT_CFG_PRE n + 1))) 16) x
  x.log d x.now x.recFold 0x0400 4 (dom % 1024 + (slow % 2 ^ 48) * 2 ^ 16)

/-! ### Check-value units -/

/-- The empty unit. -/
def CkSt.zero : CkSt := ⟨none, 0, false, false⟩

/-- What a unit keeps. -/
def LogicDie.ckSt (x : LogicDie) (u : Nat) : CkSt := Sparse.get (fun _ => CkSt.zero) x.cks u

/-- Replace what a unit keeps. -/
def LogicDie.setCk (x : LogicDie) (u : Nat) (v : CkSt) : LogicDie :=
  { x with cks := Sparse.put (fun _ => CkSt.zero) x.cks u v }

/-- The width of a unit's CRC in bits (R434). -/
def LogicDie.ckWidth (x : LogicDie) (u : Nat) : Nat := 8 * 2 ^ (x.g F.CK_CFG_WIDTH u)

/-- CK_RESu as it reads: no bit above the width (R434). -/
def LogicDie.ckRes (x : LogicDie) (u : Nat) : Word := BitVec.ofNat 64 ((x.rd .CK_RES u).toNat % 2 ^ x.ckWidth u)

/-- What a write makes of a register of the unit's width: the bits above the width are ignored (R434). -/
def LogicDie.ckWidthWrite (x : LogicDie) (r : Reg) (u : Nat) (v : Word) : LogicDie :=
  let w := x.ckWidth u
  x.wr r u (BitVec.ofNat 64 ((x.rd r u).toNat / 2 ^ w * 2 ^ w + v.toNat % 2 ^ w))

/-- The unit is owned by the party with this code: 1 fold task, 2 companion core (R435). -/
def LogicDie.ckOwned (x : LogicDie) (owner u : Nat) : Bool := x.g F.CK_OWN_OWNER u == owner && decide (u < 3)

/-- Feed bytes to a unit, from its check in progress or from INIT (R434, R436). -/
def LogicDie.ckRun (x : LogicDie) (u : Nat) (bytes : List Nat) : Nat :=
  let w := x.ckWidth u
  let start := (x.ckSt u).crc.getD (x.g F.CK_INIT_VALUE u % 2 ^ w)
  crcFeed w (x.g F.CK_POLY_VALUE u % 2 ^ w) start (if x.is F.CK_CFG_REFIN u then bytes.map rev8 else bytes)

/-- A check completes with CRC register `r` (R436): RES, the compare, DONE, the EVENTS bit; on a difference MIS, the log
record 0x0402 and source 42. A check that lost a held step leaves an invalid result (R127). -/
def LogicDie.ckComplete (x : LogicDie) (d : Ch) (u r : Nat) : LogicDie :=
  let w := x.ckWidth u
  let v := Nat.xor (if x.is F.CK_CFG_REFOUT u then revBits w r else r) (x.g F.CK_XOR_VALUE u % 2 ^ w)
  let x := x.p F.CK_RES_VALUE v u
  let x := x.setCk u { x.ckSt u with crc := none, lost := false, invalid := (x.ckSt u).lost }
  let x := x.p F.CK_STAT_DONE 1 u
  let x := x.setEvent (32 + u)
  if v = x.g F.CK_EXP_VALUE u % 2 ^ w then x
  else
    let x := x.p F.CK_STAT_MIS 1 u
    let x := x.log d x.now x.recFold 0x0402 4 (u + v * 2 ^ 16)
    x.raise d 42 u

/-- A check-value step is judged (R133, R437): discarded with source 41 where the party does not own the unit, or a DMA
run is busy. -/
def LogicDie.ckDenied (x : LogicDie) (owner u : Nat) : Bool := !x.ckOwned owner u || x.is F.CK_STAT_BUSY u

/-- CKIN takes effect (R133, R436). -/
def LogicDie.ckFeed (x : LogicDie) (d : Ch) (owner u : Nat) (bytes : List Nat) : LogicDie :=
  if x.ckDenied owner u then x.raise d 41 u
  else x.setCk u { x.ckSt u with crc := some (x.ckRun u bytes) }

/-- CKEND takes effect (R133, R436). -/
def LogicDie.ckFinish (x : LogicDie) (d : Ch) (owner u : Nat) : LogicDie :=
  if x.ckDenied owner u then x.raise d 41 u else x.ckComplete d u (x.ckRun u [])

/-- CK_STATn.BUSY: a DMA run is busy, or a check is in progress. -/
def LogicDie.ckBusy (x : LogicDie) (u : Nat) : Bool := x.is F.CK_STAT_BUSY u || (x.ckSt u).crc.isSome


/-- The owner code of a party (R435). -/
def ckCode : Party → Nat
  | .foldTask => 1
  | .companion => 2
  | _ => 0

/-- A write of CK_OWNn (R434, R435): a party that writes its own code to a free unit claims it, the owner that writes 0
releases it; any other write sets DENIED. CK3 is read-only to every party. -/
def LogicDie.ckWriteOwner (x : LogicDie) (d : Ch) (p : Party) (u v : Nat) : LogicDie :=
  let o := x.g F.CK_OWN_OWNER u
  let me := ckCode p
  if 3 ≤ u then x.accessError d p (regAddr .CK_OWN u)
  else if o = 0 ∧ v = me ∧ me ≠ 0 then (x.p F.CK_OWN_OWNER me u).setCk u CkSt.zero
  else if o = me ∧ v = 0 ∧ me ≠ 0 then
    (((x.p F.CK_OWN_OWNER 0 u).p F.CK_STAT_BUSY 0 u).p F.CK_DMA_GO 0 u).setCk u CkSt.zero
  else x.p F.CK_STAT_DENIED 1 u

/-- CK_CLAIM (R435): a party writes its own code to the unit's owner register; a party that has no code claims nothing. -/
def execCkClaim (d : Ch) (u : Fin 4) (party : Party) (t : Time) (s : State) : Host.Outcome State Fault Refusal :=
  .next (s.modDie d (fun x =>
    (x.at t).ckWriteOwner d party u.val (ckCode party)))

/-- CK_RELEASE (R435): a party writes 0b00; only the owner releases. -/
def execCkRelease (d : Ch) (u : Fin 4) (party : Party) (t : Time) (s : State) : Host.Outcome State Fault Refusal :=
  .next (s.modDie d (fun x =>
    (x.at t).ckWriteOwner d party u.val 0))

/-- A DMA run starts (R437): BUSY; a run of length 0 completes at once. -/
def LogicDie.ckGo (x : LogicDie) (d : Ch) (owner u : Nat) : LogicDie :=
  let x := x.setCk u { x.ckSt u with owner := owner }
  if x.g F.CK_DMA_LEN u = 0 then x.ckComplete d u (x.ckRun u [])
  else (x.p F.CK_STAT_BUSY 1 u).p F.CK_DMA_GO 1 u

/-- GO (R437): the owner starts a DMA run; a start by another party, or while the unit is busy, is an access error. -/
def execGo (d : Ch) (u : Fin 4) (party : Party) (t : Time) (s : State) : Host.Outcome State Fault Refusal :=
  .next (s.modDie d (fun x =>
    let x := x.at t
    if ¬ x.ckOwned (ckCode party) u.val ∨ ckCode party = 0 ∨ x.ckBusy u.val then
      x.accessError d party (regAddr .CK_DMA u.val)
    else x.ckGo d (ckCode party) u.val))

/-- The owner's load rights at an address, as DMA uses them (R83, R437). -/
def LogicDie.dmaMay (x : LogicDie) (owner a : Nat) : Bool :=
  if a < 0x800000 then (if owner = 1 then decide (a < x.hdr.codeSplit) else decide (x.hdr.codeSplit ≤ a))
  else if 0x10000000 ≤ a ∧ a < 0x10400000 then decide (a < x.hdr.dataSplit) || owner == 2
  else decide (0x20000000 ≤ a ∧ a < 0x20003000) || decide (0x30000000 ≤ a ∧ a < 0x30010000) ||
    decide (0x40000000 ≤ a ∧ a < 0x41000000) || decide (0x50000000 ≤ a ∧ a < 0x50100000) ||
    decide (0x60000000 ≤ a ∧ a < 0x60002000)

/-- DMA_RUN_END (R437): the run has read all its bytes and completes the check, or met a read that it may not make or that
stayed uncorrectable, and sets DMAERR without a result. -/
def LogicDie.ckDmaEnd (x : LogicDie) (d : Ch) (u : Nat) (ecc : Ecc) (bytes : List Nat) : LogicDie :=
  if ¬ x.is F.CK_STAT_BUSY u then x
  else
    let x := (x.p F.CK_STAT_BUSY 0 u).p F.CK_DMA_GO 0 u
    let ok := decide (bytes.length = x.g F.CK_DMA_LEN u) && decide (ecc ≠ .lasting)
    if ok then x.ckComplete d u (x.ckRun u bytes)
    else (x.p F.CK_STAT_DMAERR 1 u).setCk u { x.ckSt u with crc := none }

/-! ### Sending the log (R440) -/

/-- The `n` oldest unsent records of the ring that are not in flight. -/
def LogicDie.unsentRecs (x : LogicDie) (n : Nat) : List LogRec :=
  let first := (x.g F.LOG_STAT_HEAD + 4096 - x.g F.LOG_STAT_UNSENT + x.logInFlight) % 2048
  (List.range n).map (fun k => Sparse.get (fun _ => LogRec.zero) x.logRing ((first + k) % 2048))

/-- The die sends up to 16 unsent records (R326, R440); they count as sent when the message is acknowledged. -/
def LogicDie.sendLog (x : LogicDie) : LogicDie :=
  let n := min 16 (x.g F.LOG_STAT_UNSENT - x.logInFlight)
  if n = 0 then x
  else
    let drops := x.g F.LOG_STAT_DROP - x.logDropSent
    let x := x.send (.logRecord (x.unsentRecs n) drops)
    { x with logInFlight := x.logInFlight + n, logDropSent := x.g F.LOG_STAT_DROP }

/-- LOG_RECORD_SEND (R440). -/
def execLogRecordSend (d : Ch) (t : Time) (s : State) : Host.Outcome State Fault Refusal :=
  .next (s.modDie d (fun x => (x.at t).sendLog))

end Sys2Proof.Machine
end

