-- ==== Sys2Proof/Machine/Sec.lean ====
section
/-! DEFINITION. The security block (15): fuses and fuse commands (R400-R404), challenge and response (R408, R409), sessions
(R407, R410), JTAG (R411). -/

namespace Sys2Proof.Machine

/-- The host die is held in reset (R396, R477). -/
def HostDie.inReset (h : HostDie) : Bool := h.pw.nrstAt.isSome

/-- A host power domain is ON. -/
def HostDie.hostOn (h : HostDie) (k : Nat) : Bool := h.g F.PWR_HDOM_STATE k == domOn

/-! ### Fuses (R400-R402) -/

/-- A field of 8 fuses counts as blown (R402). -/
def fieldBlown (n : Nat) : Bool := decide (5 ≤ n)

/-- The lifecycle that the fuses give (R401): the highest field that counts as blown. -/
def SecSt.lifecycle (q : SecSt) : Nat :=
  if fieldBlown (Sparse.get (fun _ => 0) q.lcF 3) then 3
  else if fieldBlown (Sparse.get (fun _ => 0) q.lcF 2) then 2
  else if fieldBlown (Sparse.get (fun _ => 0) q.lcF 1) then 1
  else 0

/-- IK is programmed: its flag of 8 fuses counts as blown (R400, R402). -/
def SecSt.ikFlag (q : SecSt) : Bool := fieldBlown q.ikFlagF

/-- The fuses of key slot n as a number of 384 bits. -/
def SecSt.keyFuses (q : SecSt) (n : Nat) : Nat :=
  (List.range 6).foldl (fun v w => v + (Sparse.get (fun _ => 0#64) q.keyF (6 * n + w)).toNat * 2 ^ (64 * w)) 0

/-- The burn of key slot n was cut, and some of its fuses are blown. -/
def SecSt.keyCut (q : SecSt) (n : Nat) : Bool := q.keyPart.testBit n && q.keyFuses n != 0

/-- The hash in key slot n as a number of 384 bits; a slot whose burn was cut still counts as empty, the old state (R402). -/
def SecSt.key (q : SecSt) (n : Nat) : Nat := if q.keyPart.testBit n then 0 else q.keyFuses n

/-- A fuse field is partly blown: 1 to 4 of 8 fuses, or a cut key slot (R402). -/
def SecSt.partial_ (q : SecSt) : Bool :=
  let some14 := fun (n : Nat) => decide (0 < n) && !fieldBlown n
  [1, 2, 3].any (fun i => some14 (Sparse.get (fun _ => 0) q.lcF i)) ||
    (List.range 4).any (fun i => some14 (Sparse.get (fun _ => 0) q.krevF i) || q.keyCut i) || some14 q.ikFlagF

/-- Slot n is revoked. -/
def SecSt.revoked (q : SecSt) (n : Nat) : Bool := fieldBlown (Sparse.get (fun _ => 0) q.krevF n)

/-- Slot n is programmed and not revoked. -/
def SecSt.keyLive (q : SecSt) (n : Nat) : Bool := q.key n != 0 && !q.revoked n

/-- The registers show the fuses (R419). -/
def HostDie.showFuses (h : HostDie) : HostDie :=
  let q := h.sec
  let h := h.p F.SEC_LC_NEXT q.lifecycle
  let h := h.p F.SEC_LC_PARTIAL (b2n q.partial_)
  let h := h.p F.SEC_LC_IKPROG (b2n q.ikFlag)
  let h := (List.range 4).foldl (fun h n =>
    (h.setB F.SEC_KREV_REV n (q.revoked n)).setB F.SEC_KREV_PROG n (q.key n != 0)) h
  let h := h.p F.SEC_ARB_COUNT q.arbF
  let h := h.p F.SEC_UID_UID q.uid.toNat
  (List.range 24).foldl (fun h i => h.wr .SEC_KEY i (Sparse.get (fun _ => 0#64) q.keyF i)) h

/-- The release of nRST_H (R401, R404): the lifecycle takes effect; in RETURNED the remaining fuses of IK and of the slot
revocations are blown. -/
def HostDie.fusesAtReset (h : HostDie) : HostDie :=
  let lc := h.sec.lifecycle
  let h := if lc = 3 then { h with sec := { h.sec with
      ikF := 2 ^ 256 - 1, ikFlagF := 8, krevF := [(0, 8), (1, 8), (2, 8), (3, 8)] } } else h
  (h.showFuses).p F.SEC_LC_LC lc

/-- The host die's HELLO (R327), built by the security block from the fuses. -/
def HostDie.hello (h : HostDie) : Hello :=
  let q := h.sec
  { reason := 0, info := h.g F.SEC_LC_LC + 4 * h.g F.HDBG_STAT_STATE, arb := q.arbF
    revoked := (List.range 4).foldl (fun v n => v + b2n (q.revoked n) * 2 ^ n) 0
    keys := (List.range 4).map q.key }

/-- The bit of STL_STAT that says HELLO was exchanged on a link. -/
def sessBit : Ch → Fld
  | .la => F.HSTL_STAT_SESSA
  | .lb => F.HSTL_STAT_SESSB

/-- Both sessions are open: a download may begin (R339). -/
def HostDie.bothOpen (h : HostDie) : HostDie :=
  if h.is F.HSTL_STAT_SESSA ∧ h.is F.HSTL_STAT_SESSB then { h with down := { h.down with due := true } } else h

/-- The host die answers a HELLO that it has heard (R327, R417): once H_SEC is ON, it opens its own session. -/
def HostDie.answerHello (h : HostDie) (l : Ch) : HostDie :=
  let e := h.link l
  if ¬ e.heard ∨ e.opened ∨ e.down ∨ ¬ h.hostOn 5 then h
  else ((((h.setLink l (e.openSession h.hello h.now)).count F.HSTL_CNT_SENT 1).p (sessBit l) 1).pump l).bothOpen

/-! ### Fuse commands (R403) -/

/-- A session with scope bit b is open. -/
def HostDie.inScope (h : HostDie) (b : Nat) : Bool := h.g F.HDBG_STAT_STATE != 0 && h.bit F.HDBG_STAT_SCOPE b

/-- The condition of a fuse command (R401, R403). -/
def HostDie.otpAllowed (h : HostDie) (op slot lct arbt : Nat) : Bool :=
  let lc := h.lifecycle
  let life := h.inScope 5
  h.hostOn 5 && decide (1 ≤ h.g F.PWR_HPL_CUR) &&
    (if op = 1 then h.sec.key slot == 0 && (lc == 0 || ((lc == 1 || lc == 2) && life))
     else if op = 2 then life && (List.range 4).any (fun n => n != slot && h.sec.keyLive n)
     else if op = 3 then !h.sec.ikFlag && (lc == 0 || (lc == 1 && life))
     else if op = 4 then
       (lc == 0 || life) &&
         (if lc = 0 then (lct == 1 && (List.range 4).any (fun n => h.sec.key n != 0)) || lct == 3
          else if lc = 1 then lct == 2 || lct == 3
          else if lc = 2 then lct == 3
          else false)
     else if op = 5 then decide (h.sec.arbF ≤ arbt) && decide (arbt ≤ h.sec.secver) && (lc == 1 || lc == 2)
     else false)

/-- A write of SEC_OTPCMD (R403, R419): an access error while a command runs. -/
def HostDie.otpCommand (h : HostDie) (op slot lct arbt : Nat) (p : Party) : HostDie :=
  if h.is F.SEC_OTPSTAT_BUSY then h.accessError p (regAddr .SEC_OTPCMD 0)
  else
    let data := (List.range 6).map (fun w => h.rd .SEC_KSTAGE w)
    { h.p F.SEC_OTPSTAT_BUSY 1 with sec := { h.sec with
        job := some ⟨op, slot, lct, arbt, data, !h.otpAllowed op slot lct arbt⟩ } }

/-- A command of the host die that runs while it is not held in reset. -/
def runHost (t : Nat) (s : State) (f : HostDie → HostDie) : Host.Outcome State Fault Refusal :=
  .next (s.modHost (fun h => let h := h.at t; if h.inReset then h else f h))

/-- PROGRAM_KEY_SLOT (R403). -/
def execProgramKeySlot (slot : Fin 4) (party : Party) (t : Time) (s : State) : Host.Outcome State Fault Refusal :=
  runHost t s (fun h => h.otpCommand 1 slot.val 0 0 party)

/-- REVOKE_KEY_SLOT (R403). -/
def execRevokeKeySlot (slot : Fin 4) (party : Party) (t : Time) (s : State) : Host.Outcome State Fault Refusal :=
  runHost t s (fun h => h.otpCommand 2 slot.val 0 0 party)

/-- PROGRAM_IK (R403). -/
def execProgramIk (party : Party) (t : Time) (s : State) : Host.Outcome State Fault Refusal :=
  runHost t s (fun h => h.otpCommand 3 0 0 0 party)

/-- ADVANCE_LIFECYCLE (R401, R403). -/
def execAdvanceLifecycle (lct : Fin 4) (party : Party) (t : Time) (s : State) : Host.Outcome State Fault Refusal :=
  runHost t s (fun h => h.otpCommand 4 0 lct.val 0 party)

/-- RAISE_ARB (R403). -/
def execRaiseArb (arbt : Fin 128) (party : Party) (t : Time) (s : State) : Host.Outcome State Fault Refusal :=
  runHost t s (fun h => h.otpCommand 5 0 0 arbt.val party)

/-- The fuses after `n` fuses of a command were blown one after another (R402); a blown fuse stays blown, and ARB has
64 (R400). -/
def SecSt.burn (q : SecSt) (j : OtpJob) (n : Nat) : SecSt :=
  let cut := fun (w : Nat) => min 64 (n - 64 * w)
  if j.op = 1 then
    { q with
      keyF := (List.range 6).foldl (fun m w =>
        Sparse.put (fun _ => 0#64) m (6 * j.slot + w)
          (Sparse.get (fun _ => 0#64) m (6 * j.slot + w) |||
            BitVec.ofNat 64 ((j.data.getD w 0#64).toNat % 2 ^ cut w))) q.keyF
      keyPart := setBits q.keyPart j.slot j.slot (b2n (decide (n < 384))) }
  else if j.op = 2 then
    { q with krevF := Sparse.put (fun _ => 0) q.krevF j.slot (max (Sparse.get (fun _ => 0) q.krevF j.slot) (min n 8)) }
  else if j.op = 3 then
    let ik := (List.range 4).foldl (fun v w => v + (j.data.getD w 0#64).toNat * 2 ^ (64 * w)) 0
    { q with ikF := Nat.lor q.ikF (ik % 2 ^ (min n 256)), ikFlagF := max q.ikFlagF (min 8 (n - 256)) }
  else if j.op = 4 then
    { q with lcF := Sparse.put (fun _ => 0) q.lcF j.lct (max (Sparse.get (fun _ => 0) q.lcF j.lct) (min n 8)) }
  else { q with arbF := min 64 (max q.arbF (min j.arbt (q.arbF + n))) }

/-- The fuses that a command blows in all. -/
def OtpJob.size (j : OtpJob) (q : SecSt) : Nat :=
  if j.op = 1 then 384 else if j.op = 3 then 264 else if j.op = 5 then min 64 j.arbt - q.arbF else 8

/-! ### Sessions (R407, R410) -/

/-- The logic dies within a scope (R412): FLDA, FLDB, or both for PROOF and FUSE. -/
def scopeDies (scope : Nat) : List Ch :=
  let both := scope.testBit 3 || scope.testBit 4
  (if both || scope.testBit 1 then [Ch.la] else []) ++ (if both || scope.testBit 2 then [Ch.lb] else [])

/-- The open session ends (R410): LOCKED, the force bits of the host die clear, EXTEST lets go, and CLOSE goes to the
dies in scope, which ends the session there; the force bits of the other dies clear at once (log 169). -/
def State.endSession (s : State) : State :=
  if s.host.g F.HDBG_STAT_STATE = 0 then s
  else
    let scope := s.host.g F.HDBG_STAT_SCOPE
    let session := s.host.g F.HDBG_STAT_SESSION
    let s := ([Ch.la, Ch.lb].filter (fun d => !(scopeDies scope).contains d)).foldl (fun s d => s.modDie d (·.unforce d)) s
    s.modHost (fun h =>
      let h := (h.p F.HDBG_STAT_STATE 0).p F.HDBG_STAT_SCOPE 0
      let h := (h.p F.HDBG_STAT_SESSION 0).p F.HDBG_STAT_LEFT 0
      let h := h.unforce
      let h := { h with sec := { h.sec with
        endAfter := false, jtagPins := none
        jtag := if h.sec.jtag = .extest ∨ h.sec.jtag = .dap then .bypass else h.sec.jtag } }
      (scopeDies scope).foldl (fun h l => h.send l (.debugReq session 2 [])) h)

/-- A session is open whose end a running fuse command delays (R418). -/
def HostDie.endWaits (h : HostDie) : Bool := h.is F.SEC_OTPSTAT_BUSY && h.g F.HDBG_STAT_STATE != 0

/-- A session end asked for while a fuse command runs takes effect after it (R418). -/
def State.askEnd (s : State) : State :=
  if s.host.endWaits then s.modHost (fun h => { h with sec := { h.sec with endAfter := true } })
  else s.endSession

/-- A session opens (R408, R412): its number, scope and TTL, and OPEN to the dies in scope. -/
def HostDie.openSession (h : HostDie) (p : PendOpen) (t : Nat) : HostDie :=
  let n := p.number
  let h := ((h.p F.HDBG_STAT_STATE p.state).p F.HDBG_STAT_SCOPE p.scope).p F.HDBG_STAT_SESSION n
  let h := h.p F.HDBG_STAT_LEFT p.ttl
  let h := { h with sec := { h.sec with sessEnd := t + p.ttl * 1000000000 } }
  (scopeDies p.scope).foldl (fun h l =>
    h.send l (.debugReq n 1 (bytesLE 4 n ++ [p.scope % 64] ++ [h.lifecycle]))) h

/-- A session takes the place of the open one (R418): it opens once that one has ended. -/
def State.nextSession (s : State) (p : PendOpen) (t : Nat) : State :=
  if s.host.endWaits then s.modHost (fun h => { h with sec := { h.sec with endAfter := true, waiting := some p } })
  else s.endSession.modHost (fun h => h.openSession p t)

/-- The number of a session that is to open, which no other session has (R408). -/
def HostDie.newNumber (h : HostDie) : Nat × HostDie :=
  let n := (h.sec.lastSession + 1) % 2 ^ 32
  (n, { h with sec := { h.sec with lastSession := n } })

/-- The seconds of TTL left (R420); the rounding of a part of a second is open (log 171). -/
def HostDie.ttlLeft (h : HostDie) : Nat :=
  if h.g F.HDBG_STAT_STATE = 0 then 0
  else
    let r := h.sec.sessEnd - h.now
    r / 1000000000 + (if r % 1000000000 = 0 then 0 else Config.ttlRounding h.now % 2)

/-- The running fuse command ends after `cut` fuses, or with `none` after all of them (R402, R403); the session end
and the opening that waited for it follow (R418). -/
def State.otpEnd (s : State) (cut : Option Nat) (t : Nat) : State :=
  match s.host.sec.job with
  | none => s
  | some j =>
    let size := j.size s.host.sec
    let n := (cut.map (min size)).getD size
    let result := if j.refused then 2 else if n < size then 1 else 0
    let s := s.modHost (fun h =>
      let h := if j.refused then h else { h with sec := h.sec.burn j n }
      let h := { h with sec := { h.sec with job := none } }
      let h := ((h.showFuses.p F.SEC_OTPSTAT_BUSY 0).p F.SEC_OTPSTAT_DONE 1).p F.SEC_OTPSTAT_RESULT result
      (List.range 6).foldl (fun h w => h.wr .SEC_KSTAGE w 0#64) h)
    let s := if s.host.sec.endAfter then s.endSession else s
    match s.host.sec.waiting with
    | none => s
    | some p => (s.modHost (fun h => { h with sec := { h.sec with waiting := none } })).modHost (fun h => h.openSession p t)

/-- A running fuse command loses H_SEC, its supply, or the level PL1 (R402, R403): it ends there; how many fuses it
has blown is open. -/
def State.otpCut (s : State) (t : Nat) : State :=
  match s.host.sec.job with
  | none => s
  | some j =>
    let f := s.freeWord
    f.2.otpEnd (some (f.1.toNat % (j.size s.host.sec + 1))) t

/-- OTP_COMMAND_DONE (R402, R403): the running fuse command ends. `cut`: it was interrupted after that many fuses. -/
def execOtpCommandDone (cut : Option Nat) (t : Time) (s : State) : Host.Outcome State Fault Refusal :=
  .next ((s.modHost (·.at t)).otpEnd cut t)

/-! ### Challenge and response (R408, R409) -/

/-- CHREQ (R408, R409): the scope and TTL of DBG_SCOPEREQ are asked for; refused with TTL 0, in LOCKOUT, and for 1 s after a
failed verification. A new request replaces an unanswered challenge. -/
def execChreq (party : Party) (t : Time) (s : State) : Host.Outcome State Fault Refusal :=
  runHost t s (fun h =>
    if ¬ h.hostOn 5 ∨ (party ≠ .hostFirmware ∧ party ≠ .hostBar) then h
    else if h.g F.HDBG_SCOPEREQ_TTL = 0 ∨ h.is F.HDBG_STAT_LOCKOUT ∨ t < h.sec.refuse then h
    else
      { (h.p F.HDBG_STAT_CHRDY 0).p F.HDBG_CTRL_CHREQ 1 with sec := { h.sec with
          asked := true, chalScope := h.g F.HDBG_SCOPEREQ_SCOPE, chalTtl := h.g F.HDBG_SCOPEREQ_TTL } })

/-- CHALLENGE_READY (R408): the 64 challenge bytes stand in DBG_CHAL; the nonce is open. The session number that a
pass will assign is kept for it. -/
def execChallengeReady (t : Time) (s : State) : Host.Outcome State Fault Refusal :=
  runHost t s (fun h =>
    if ¬ h.sec.asked ∨ ¬ h.hostOn 5 then h
    else
      let n := h.newNumber
      let h := n.2
      let q := h.sec
      let nonce := (List.range 32).map (fun i => (Config.challenge q.issued).getD i 0 % 256)
      let bytes := nonce ++ bytesLE 8 q.uid.toNat ++ [h.lifecycle, q.chalScope] ++ bytesLE 2 q.chalTtl ++
        bytesLE 4 n.1 ++ List.replicate 16 0
      let h := { h with sec := { q with
        asked := false, issued := q.issued + 1, chal := bytes, chalAt := t, chalNum := n.1
        issScope := q.chalScope, issTtl := q.chalTtl } }
      let h := (List.range 8).foldl (fun h w =>
        h.wr .HDBG_CHAL w (BitVec.ofNat 64 (ofBytesLE ((bytes.drop (8 * w)).take 8)))) h
      (h.p F.HDBG_STAT_CHRDY 1).p F.HDBG_CTRL_CHREQ 0)

/-- CHALLENGE_EXPIRY (R408): a challenge ends 10 s after its issue. -/
def execChallengeExpiry (t : Time) (s : State) : Host.Outcome State Fault Refusal :=
  runHost t s (fun h =>
    if h.is F.HDBG_STAT_CHRDY ∧ h.sec.chalAt + 10000000000 ≤ t then h.p F.HDBG_STAT_CHRDY 0 else h)

/-- VERIFY (R408): the response is taken, with the challenge that it answers as issued; DBG_RESP clears; the challenge
is used up. -/
def execVerify (party : Party) (t : Time) (s : State) : Host.Outcome State Fault Refusal :=
  runHost t s (fun h =>
    if ¬ h.hostOn 5 ∨ h.is F.HDBG_STAT_BUSY ∨ (party ≠ .hostFirmware ∧ party ≠ .hostBar) then h
    else
      let resp := ((List.range 25).map (fun w => bytesLE 8 (h.rd .HDBG_RESP w).toNat)).flatten
      let valid := h.is F.HDBG_STAT_CHRDY && decide (t < h.sec.chalAt + 10000000000)
      let q := h.sec
      let h := { h with sec := { q with
        resp := some (if valid then resp else []), verChal := q.chal, verScope := q.issScope, verTtl := q.issTtl, verNum := q.chalNum } }
      let h := (List.range 25).foldl (fun h w => h.wr .HDBG_RESP w 0#64) h
      ((h.p F.HDBG_STAT_BUSY 1).p F.HDBG_STAT_CHRDY 0).p F.HDBG_CTRL_VERIFY 1)

/-- The response is good (R407, R408): the key's hash is in an unrevoked slot, or is the failure-analysis key's in RETURNED
with a scope that it may grant, and the signature over the challenge verifies. -/
def HostDie.respGood (h : HostDie) (resp : List Nat) : Bool :=
  let key := resp.take 97
  let hash := Config.sha384 key
  let lc := h.lifecycle
  decide (resp ≠ []) && Config.verifySig key h.sec.verChal ((resp.drop 97).take 96) &&
    (if lc = 1 ∨ lc = 2 then (List.range 4).any (fun n => h.sec.keyLive n && h.sec.key n == hash)
     else if lc = 3 then hash == Config.analysisKey && Nat.land h.sec.verScope 0x28 == 0
     else false)

/-- VERIFICATION (R408, R409): a pass opens a session in AUTH and clears FAILS and FAIL; a failure raises host source
41 and refuses CHREQ for 1 s; the eighth in a row locks out. -/
def execVerification (t : Time) (s : State) : Host.Outcome State Fault Refusal :=
  let h := s.host.at t
  match h.sec.resp with
  | none => .next { s with host := h }
  | some resp =>
    if ¬ h.hostOn 5 then .next { s with host := h }
    else
      let good := h.respGood resp
      let h := { h with sec := { h.sec with resp := none } }
      let h := ((h.p F.HDBG_STAT_BUSY 0).p F.HDBG_CTRL_VERIFY 0).p F.HDBG_STAT_FAIL (b2n (!good))
      let q := h.sec
      if good then .next (({ s with host := h.p F.HDBG_STAT_FAILS 0 }).nextSession ⟨1, q.verScope, q.verTtl, q.verNum⟩ t)
      else
        let n := min 8 (h.g F.HDBG_STAT_FAILS + 1)
        let h := h.p F.HDBG_STAT_FAILS n
        let h := if n = 8 then h.p F.HDBG_STAT_LOCKOUT 1 else h
        .next { s with host := ({ h with sec := { q with refuse := t + 1000000000 } }).raise 41 0 }

/-- CHREQ_REFUSAL_END (R409): CHREQ is accepted again 1 s after a failed verification. -/
def execChreqRefusalEnd (t : Time) (s : State) : Host.Outcome State Fault Refusal :=
  runHost t s (fun h => if h.sec.refuse ≤ t then { h with sec := { h.sec with refuse := 0 } } else h)

/-- CLOSE (R410): a write of 1 to DBG_CTRL.CLOSE. -/
def execClose (party : Party) (t : Time) (s : State) : Host.Outcome State Fault Refusal :=
  let s := s.modHost (·.at t)
  .next (if party = .hostFirmware ∨ party = .hostBar then s.askEnd else s)

/-- OPENREQ is an access error (R407, R420): outside DEVELOP, with scope PROOF or LIFE, without a TTL, or with H_SEC
not ON. -/
def HostDie.openDenied (h : HostDie) : Bool :=
  h.lifecycle != 1 || Nat.land (h.g F.HDBG_SCOPEREQ_SCOPE) 0x28 != 0 || h.g F.HDBG_SCOPEREQ_TTL == 0 || !h.hostOn 5

/-- OPENREQ (R407, R420): in DEVELOP an unauthenticated session opens, every scope but PROOF and LIFE; otherwise an access
error. -/
def execOpenreq (party : Party) (t : Time) (s : State) : Host.Outcome State Fault Refusal :=
  let s := s.modHost (·.at t)
  if s.host.inReset then .next s
  else if s.host.openDenied then .next (s.modHost (fun h => h.accessError party (regAddr .HDBG_CTRL 0)))
  else
    let scope := s.host.g F.HDBG_SCOPEREQ_SCOPE
    let ttl := s.host.g F.HDBG_SCOPEREQ_TTL
    let n := s.host.newNumber
    .next (({ s with host := n.2 }).nextSession ⟨2, scope, ttl, n.1⟩ t)

/-- TTL_EXPIRY (R410). -/
def execTtlExpiry (t : Time) (s : State) : Host.Outcome State Fault Refusal :=
  let s := s.modHost (·.at t)
  .next (if s.host.g F.HDBG_STAT_STATE ≠ 0 ∧ s.host.sec.sessEnd ≤ t then s.askEnd else s)

/-! ### JTAG (R411) -/

/-- A JTAG instruction is selected, BYPASS where it is not available; the data register takes what it captures. -/
def HostDie.jtag (h : HostDie) (i : JtagInstr) (ok : Bool) (dr : Nat) (pins : Option Nat) : HostDie :=
  { h with sec := { h.sec with
      jtag := if ok then i else .bypass, jtagDr := if ok then dr else 0, jtagPins := if ok then pins else none } }

/-- IDCODE (R411). -/
def execIdcode (s : State) : Host.Outcome State Fault Refusal :=
  .next (s.modHost (fun h => h.jtag .idcode true 0x1964054F none))

/-- BYPASS (R411). -/
def execBypass (s : State) : Host.Outcome State Fault Refusal :=
  .next (s.modHost (fun h => h.jtag .bypass true 0 none))

/-- SAMPLE/PRELOAD (R411): the boundary-scan register captures the levels of the host-side balls. -/
def execSamplePreload (levels : Nat) (s : State) : Host.Outcome State Fault Refusal :=
  .next (s.modHost (fun h => h.jtag .sample true levels none))

/-- EXTEST (R411): the host-side balls take the boundary-scan values, in a session with scope HOST. -/
def execExtest (levels : Nat) (s : State) : Host.Outcome State Fault Refusal :=
  .next (s.modHost (fun h => h.jtag .extest (h.inScope 0) levels (some levels)))

/-- General register `i` of host core `n`. -/
def HostDie.hostReg (h : HostDie) (n i : Nat) : Word :=
  Sparse.get (fun _ => 0#64) (Sparse.get (fun _ => CompCore.reset) h.cores n).w i

/-- A write of general register `i` of host core `n`; register 0 stays 0 (R73). -/
def HostDie.setHostReg (h : HostDie) (n i : Nat) (v : Word) : HostDie :=
  if i = 0 then h
  else
    let c := Sparse.get (fun _ => CompCore.reset) h.cores n
    { h with cores := Sparse.put (fun _ => CompCore.reset) h.cores n { c with w := Sparse.put (fun _ => 0#64) c.w i v } }

/-- DAP (R411): debug access to an 8-byte word of host SRAM, or from 4,194,304 on to the general registers of HC0 to
HC3, 32 each (log 104), in a session with scope HOST while H_CPU is ON. -/
def execDap (addr : Fin 4194432) (write : Option Word) (s : State) : Host.Outcome State Fault Refusal :=
  .next (s.modHost (fun h =>
    if h.inScope 0 ∧ h.hostOn 1 then
      if addr.val < 4194304 then
        let a := 8 * addr.val
        let h := match write with
          | some v => { h with mem := pokeBytes h.mem a (bytesLE 8 v.toNat) }
          | none => h
        h.jtag .dap true (ofBytesLE (h.bytes a 8)) none
      else
        let k := addr.val - 4194304
        let h := match write with
          | some v => h.setHostReg (k / 32) (k % 32) v
          | none => h
        h.jtag .dap true (h.hostReg (k / 32) (k % 32)).toNat none
    else h.jtag .bypass true 0 none))

end Sys2Proof.Machine
end

