-- ==== Sys2Proof/Machine/Pwr.lean ====
section
/-! DEFINITION. Power domains, performance levels and resets (14): bring-up and take-down (R374-R378), requests and their
judgement (R379-R383), pausing and waking (R384, R385), levels (R386-R388), saves (R389-R391), the power-down sequence and
the warm return (R392-R394, R478), FRST and nRST_H (R395, R396, R477), the field restart. -/

namespace Sys2Proof.Machine

/-! ### Views -/

/-- The STATE code of domain k of a logic die. -/
def LogicDie.dom (x : LogicDie) (k : Nat) : Nat := x.g F.PWR_DOM_STATE k

/-- STATE and STEP of domain k; the power die's own view shows the same (R468). -/
def LogicDie.setDom (x : LogicDie) (k st step : Nat) : LogicDie := (x.p F.PWR_DOM_STATE st k).p F.PWR_DOM_STEP step k

/-- A POWER_REQ state report of domain k to the host die (R379). -/
def LogicDie.report (x : LogicDie) (k : Nat) : LogicDie := x.send (.powerReq 4 k (x.dom k) x.now)

/-- LA_IO, LB_IO, P0_OUT and P1_OUT are ON, and no quiet-marked unit is penned (R380, R452); a burn pens none. -/
def State.ioReady (s : State) : Bool :=
  s.la.dom 3 == domOn && s.lb.dom 3 == domOn && s.la.dom 6 == domOn && s.lb.dom 6 == domOn &&
    [s.la, s.lb].all (fun x => !x.bist.cur.any (fun q => bistQuiet q && q.test != 0x10))

/-- The code of a log record of a sequencing event: domain and step (R375, R376). -/
def stepData (k step : Nat) : Nat := k + step * 2 ^ 4

/-! ### What leaving and reaching ON does (R30, R229, R238, R279, R380, R432) -/

/-- The fold task of a die pauses (R384); with RUNNING every permit falls (R201). -/
def LogicDie.pause (x : LogicDie) (d : Ch) (t : Nat) : LogicDie :=
  let x := (x.p F.FOLD_STATUS_RUNNING 0).p F.PWR_STAT_PAUSED 1
  ((x.setCrookOut false).driveAll d t).foldStops

/-- Domain k of die d leaves ON: self-tests of its units end first (R455). -/
def State.leaveOn (s : State) (d : Ch) (k t : Nat) : State :=
  let s := s.bistLeave d k
  if k = 0 then s.modDie d (·.pause d t)
  else if k = 4 then
    match d with
    | .la => (s.modDie .la (fun x => x.lampsDark .la t)).modDie .lb (fun x => x.lampsDark .lb t)
    | .lb => s.modDie .lb (fun x => x.proofLost 9 0x3F)
  else if k = 7 then
    let s := s.modDie d (·.stagesOff)
    match d with
    | .la => s
    | .lb => (s.modDie .la (fun x => x.p F.MX_CTRL_BLANKED 1)).modDie .lb (fun x => x.p F.MX_DRVSTAT_BLANKED 1)
  else if k = 6 then s.modDie d (fun x => (List.range 32).foldl (fun x n => x.openSwitch n) x)
  else if k = 8 then s.modDie d (·.afeOff)
  else if k = 9 then
    let off := fun (x : LogicDie) => { x with inSide := { x.inSide with pdInOff := setBit x.inSide.pdInOff d.num } }
    ((s.modDie .la off).modDie .lb off).modDie d (·.sourcesOff)
  else s

/-- Domain k of die d is ON again: power-die registers are rewritten from their shadow copies (R373), restored inputs
restart, timers are made up by `slow` slow-clock ticks (R432). -/
def State.reachOn (s : State) (d : Ch) (k slow t : Nat) : State :=
  if k = 3 then s.modDie d (fun x => (x.restartInputs (fun _ => true)).gtMakeUp d 3 slow)
  else if k = 6 then s.modDie d (fun x => x.driveAll d t)
  else if k = 9 then
    let on := fun (x : LogicDie) =>
      ({ x with inSide := { x.inSide with pdInOff := clrBit x.inSide.pdInOff d.num } }).samplesReturn
        (fun i => frontPd i == d.num)
    let s := (s.modDie .la on).modDie .lb on
    s.modDie d (fun x => (List.range 6).foldl (fun x k =>
      let g := 6 * d.num + k
      (x.p F.SI_FE_TYPE (x.g F.SI_GRP_TYPE g) k).p F.SI_FE_WET (x.g F.SI_GRP_WET g) k) x)
  else s

/-! ### Save regions (R14, R389, R390) -/

/-- The domain of the power die that a register of its region belongs to (R470), as PWR_DOM counts them. -/
def pdDomain : Reg → Option Nat
  | .SI_FE | .SI_CPL | .TP_DRV => some 9
  | .SO_SW | .SO_SENS => some 6
  | .LMP_STG | .LMP_STS | .LMP_OSAFE | .LMP_OSR | .MX_LINE | .MX_COL | .MX_DRVSTAT => some 7
  | .ADC_AFE | .ADC_AIFLT | .ADC_FACT => some 8
  | _ => none

/-- The block of a register that lies with a logic-die domain (R371, R389): CK_ with the core; SI_, TP_, SO_, ADC_,
VCT_, GT_ and the power-die registers with LA_IO, but for the timebase, which is always on; LMP_, PE_ and MX_ with
LA_LAMP. -/
def logicDomReg (k : Nat) (r : Reg) : Bool :=
  let a := r.layout.base
  let within := fun (lo hi : Nat) => decide (lo ≤ a) && decide (a < hi)
  match r.layout.place with
  | .logic =>
    (k == 0 && within 0x40078000 0x40080000) ||
      (k == 3 && r != .GT_TBASE && (within 0x40010000 0x40030000 || within 0x40050000 0x40078000)) ||
      (k == 4 && within 0x40030000 0x40050000)
  | .power => k == 3 && (pdDomain r).isSome
  | .host => false

/-- Lamp SRAM (R371, R389): aspects, pattern banks, frame buffers. -/
def lampSram (r : Reg) : Bool := r == .LMP_ASP || r == .PE_PROG || r == .MX_FB

/-- The block of a register that lies with a host domain (R371): BB_, STL_, FOLD_SNAP, the collector and the log with
H_NET, SEC_ and DBG_ with H_SEC. -/
def hostDomReg (k : Nat) (r : Reg) : Bool :=
  let b := r.layout.base / 0x10000
  r.layout.place == .host &&
    ((k == 2 && (b == 1 || b == 2 || b == 3 || b == 4 || b == 8)) || (k == 5 && (b == 6 || b == 7)))

/-- What a save of a host domain holds of its registers (R389): not the collector's, the log's, or a debug session's. -/
def hostSaved (k : Nat) (r : Reg) : Bool :=
  let b := r.layout.base / 0x10000
  hostDomReg k r && b != 2 && b != 8 && r != .HDBG_STAT && r != .HDBG_CTRL

/-- The key of general register `i` of core `n` in a save region. -/
def coreKey (n i : Nat) : Nat := 2 ^ 20 + 32 * n + i

/-- The words of a register file that satisfy `p`: those that differ from their reset values. -/
def fileWords (m : Sparse Word) (p : Reg → Bool) : List (Nat × Word) := m.filter (fun e => p (Reg.ofNum (e.1 % 512)))

/-- The words that a save of domain k of a logic die holds (R389, log 176). -/
def LogicDie.saveWords (x : LogicDie) (k : Nat) : List (Nat × Word) :=
  fileWords x.regs (fun r => if k = 2 then r == .LOG_STAT else logicDomReg k r && !lampSram r) ++
    (if k = 0 then x.core.w.map (fun e => (coreKey 0 e.1, e.2)) ++ x.comp.w.map (fun e => (coreKey 2 e.1, e.2)) else [])

/-- The words that a save of host domain k holds. -/
def HostDie.saveWords (h : HostDie) (k : Nat) : List (Nat × Word) :=
  fileWords h.regs (hostSaved k) ++
    (if k = 1 then (List.range 4).flatMap (fun n =>
      (Sparse.get (fun _ => CompCore.reset) h.cores n).w.map (fun e => (coreKey n e.1, e.2))) else [])

/-- A save region with its commit word (R389). -/
def saveRegion (words : List (Nat × Word)) (seq : Nat) : SaveRegion :=
  ⟨words, crc32c (words.flatMap (fun e => bytesLE 8 e.2.toNat)), seq⟩

/-- The fields of a register that configuration writes take their saved values; what hardware keeps stands. -/
def restoreFields (r : Reg) (now saved : Word) : Word :=
  r.layout.fields.foldl (fun v f =>
    if f.acc == .rw || f.acc == .rwl || f.acc == .rwf then Word.setBits v f.hi f.lo (Word.bits saved f.hi f.lo) else v) now

/-- A register file with the saved words of the registers that satisfy `p`; a word that the region does not list had
its reset value. -/
def restoreFile (m : Sparse Word) (p : Reg → Bool) (words : List (Nat × Word)) : Sparse Word :=
  let keys := (fileWords m p).map (fun e => e.1) ++ (words.filter (fun e => decide (e.1 < 2 ^ 20))).map (fun e => e.1)
  keys.foldl (fun m k => Sparse.put regDflt m k
    (restoreFields (Reg.ofNum (k % 512)) (Sparse.get regDflt m k) (Sparse.get regDflt words k))) m

/-- The general registers of core `n` in a region. -/
def savedCore (words : List (Nat × Word)) (n : Nat) : Sparse Word :=
  (words.filter (fun e => decide (coreKey n 0 ≤ e.1) && decide (e.1 < coreKey n 32))).map (fun e => (e.1 - coreKey n 0, e.2))

/-- Domain k of a logic die has a valid save (R389). -/
def LogicDie.saveGood (x : LogicDie) (k : Nat) : Bool := x.bit F.PWR_SAVE_VALID k

/-- A save of domain k begins: its commit word is cleared first (R389). -/
def LogicDie.dropSave (x : LogicDie) (k : Nat) : LogicDie :=
  { x.setB F.PWR_SAVE_VALID k false with pw := { x.pw with saves := Sparse.put (fun _ => none) x.pw.saves k none } }

/-- The save of domain k is written, its commit word last (R389). -/
def LogicDie.putSave (x : LogicDie) (k : Nat) : LogicDie :=
  let n := (x.g F.PWR_SAVE_SEQ + 1) % 2 ^ 32
  let x := (x.setB F.PWR_SAVE_VALID k true).p F.PWR_SAVE_SEQ n
  { x with pw := { x.pw with saves := Sparse.put (fun _ => none) x.pw.saves k (some (saveRegion (x.saveWords k) n)) } }

/-- The save of domain k is restored (R390). -/
def LogicDie.restoreSave (x : LogicDie) (k : Nat) : LogicDie :=
  match Sparse.get (fun _ => none) x.pw.saves k with
  | none => x
  | some q =>
    if k = 0 then
      { x with
        regs := restoreFile x.regs (logicDomReg 0) q.words
        core := { x.core with w := savedCore q.words 0, wCommit := savedCore q.words 0 }
        comp := { x.comp with w := savedCore q.words 2 } }
    else if k = 3 ∨ k = 4 then
      { x with regs := restoreFile x.regs (fun r => logicDomReg k r && !lampSram r) q.words }
    else x

/-- A domain that comes up as from OFF takes its reset values (R390), but its lock bits (R12). -/
def LogicDie.freshRegs (x : LogicDie) (k : Nat) : LogicDie :=
  let locks := [F.SI_CTRL_LOCK, F.TP_CTRL_LOCK, F.SO_CTRL_LOCK, F.LMP_CTRL_LOCK, F.ADC_CTRL_LOCK, F.VCT_CTRL_LOCK, F.GT_CTRL_LOCK]
  let y := { x with regs := x.regs.filter (fun e => !logicDomReg k (Reg.ofNum (e.1 % 512))) }
  let y := locks.foldl (fun y f => if logicDomReg k f.reg then y.p f (x.g f) else y) y
  if k = 3 then
    { y with
      inputs := [], sources := [], gtCaps := [], gtCapNum := [], gtLog := [], gtTicked := [], outs := [], sigBusy := [], adcs := []
      trigs := [], vct := VctSt.reset }
  else if k = 4 then
    { y with lamps := [], lampSide := LogicDie.reset.lampSide, pes := [], mx := LogicDie.reset.mx }
  else y

/-- The memory step of domain k (R374): from OFF every RAM of the domain is zeroed; in both cases the caches are invalid. -/
def LogicDie.memoryStep (x : LogicDie) (k : Nat) (off : Bool) : LogicDie :=
  if k = 0 then { x with pipe := PipeSt.reset }
  else if ¬ off then x
  else if k = 2 then { x with mem := [], memC := [], memF := [], xview := [], logRing := [] }
  else if k = 4 then { x with regs := x.regs.filter (fun e => !lampSram (Reg.ofNum (e.1 % 512))) }
  else x

/-! ### Bring-up steps (R374) -/

/-- A domain has an oscillator of its own (PRESUMED, log 175): the core domains, which run at performance levels. -/
def ownOsc (host : Bool) (k : Nat) : Bool := if host then k == 1 else k == 0

/-- A domain has memory of its own, by the table *Power domains* (log 175). -/
def ownMem (host : Bool) (k : Nat) : Bool := if host then k == 1 || k == 2 || k == 4 else k == 0 || k == 2 || k == 4

/-- The step after step `n` that a domain does not pass at once. -/
def stepAfter (host : Bool) (k n : Nat) : Nat :=
  if n ≤ 1 ∧ ownOsc host k then 2 else if n ≤ 2 ∧ ownMem host k then 3 else 4

/-! ### Transitions (R374-R378) -/

/-- The collectors of both logic dies record that the input domain of a power die has left ON at a request (R30): in
FC_SEEN, since a permitted request is no fault and opens no record (log 141). -/
def State.inputsGone (s : State) : State :=
  let rec39 := fun (x : LogicDie) => x.seen [⟨39, stepData 9 0, none, false, false⟩]
  (s.modDie .la rec39).modDie .lb rec39

/-- A transition of domain k towards `target` starts. Upward it begins with the regulator step; downward a logic-die domain
saves first where it goes to FALLOW (R377, R389). Tests that wait may start or are refused (R450). -/
def State.startTrans (s : State) (d : Ch) (k target t : Nat) : State :=
  let up := decide (target = domOn)
  let s := if (s.die d).dom k = domOn ∧ ¬ up then
      let s := s.leaveOn d k t
      if k = 9 then s.inputsGone else s
    else s
  let s := s.modDie d (fun x =>
    let x := (x.setDom k 3 (if up then 1 else if target = 1 then 5 else 4)).p F.PWR_DOM_TARGET target k
    let x := if target = 1 then x.dropSave k else x
    { x with pw := { x.pw with
        down := setBits x.pw.down k k (b2n (!up)), repeated := clrBit x.pw.repeated k, woke := clrBit x.pw.woke k } })
  if up then s else s.bistGo

/-- A granted request for domain k: held while the domain is in transition (R378), nothing where it is there already. -/
def State.askDom (s : State) (d : Ch) (k target t : Nat) : State :=
  let x := s.die d
  if x.dom k = 3 then
    s.setDie d { x with pw := { x.pw with held := Sparse.put (fun _ => none) x.pw.held k (some target) } }
  else if x.dom k = target then s
  else s.startTrans d k target t

/-- A transition of domain k ends in state `st`, which is reported (R378, R379). -/
def LogicDie.landDom (x : LogicDie) (k st : Nat) : LogicDie :=
  let x := (x.setDom k st 0).report k
  { x with pw := { x.pw with fallow := setBits x.pw.fallow k k (b2n (decide (st = 1))) } }

/-- A held request or a wake for domain k, whose transition has ended, starts the next (R378). -/
def State.nextTrans (s : State) (d : Ch) (k t : Nat) : State :=
  let x := s.die d
  let st := x.dom k
  let held := Sparse.get (fun _ => none) x.pw.held k
  let woke := x.pw.woke.testBit k
  let s := s.setDie d { x with pw := { x.pw with
    held := Sparse.put (fun _ => none) x.pw.held k none, woke := clrBit x.pw.woke k } }
  if woke ∧ st ≠ domOn then s.startTrans d k domOn t
  else match held with
    | some target => if target = st then s else s.startTrans d k target t
    | none => s

/-- A transition of domain k ends in state `st`, and the next starts. -/
def State.endTrans (s : State) (d : Ch) (k st t : Nat) : State := (s.modDie d (·.landDom k st)).nextTrans d k t

/-! ### Field restart (R342, R396, R397) -/

/-- Registers that a field restart keeps (R307, R397, R422, R460): the hold counter, the safety timebase, the fuses. -/
def keptRegs : List Reg :=
  [.PWR_RST, .GT_TBASE, .BIST_FUSE, .BIST_SLFUSE, .BIST_PDFUSE, .BIST_PDSLF, .ADC_FACT, .PWR_PDID, .PWR_PDSTAT]

/-- A logic die restarts: everything returns to its reset value but what the always-on domain and the fuses hold, and the
boot ROM starts with the given HELLO reason. `unlock`: LOCKED clears as well (R342). -/
def LogicDie.restart (x : LogicDie) (reason : Nat) (unlock : Bool) : LogicDie :=
  let locked := x.is F.FC_CTRL_LOCKED && !unlock
  let y := { LogicDie.reset with
    regs := x.regs.filter (fun e => keptRegs.contains (Reg.ofNum (e.1 % 512)))
    aon := if unlock then ⟨[]⟩ else x.aon
    boot := { BootSt.reset with phase := .scrub, reason := reason }
    pw := { PwrSt.reset with
      chkCode := x.pw.chkCode, chkPins := x.pw.chkPins, frstAt := x.pw.frstAt, frstLog := x.pw.frstLog, upAt := x.pw.upAt }
    bist := { BistSt.reset with slPart := x.bist.slPart }
    fresh := x.fresh }
  let y := y.fusesAct.p F.PWR_SAVE_RCHK (x.g F.PWR_SAVE_RCHK)
  if locked then (y.p F.FC_CTRL_LOCKED 1).p F.FC_CTRL_NORESUME 1 else y

/-- Both logic dies restart (R342, R385, R394); a burn that runs is interrupted (R460). -/
def State.fieldRestart (s : State) (reason : Nat) (unlock : Bool) : State :=
  (s.burnsCut.modDie .la (·.restart reason unlock)).modDie .lb (·.restart reason unlock)

/-! ### Bring-up and take-down -/

/-- A die that comes back proceeds as for a closed record (R306, R385, R394): READY and a proposal, where it is
neither LOCKED nor marked NORESUME and no record of class 2 or 3 is open. -/
def LogicDie.comeBack (x : LogicDie) : LogicDie :=
  let x := x.p F.PWR_STAT_PAUSED 0
  if x.is F.FC_CTRL_LOCKED ∨ x.is F.FC_CTRL_NORESUME ∨ (x.is F.FC_CTRL_OPEN ∧ 2 ≤ x.g F.FC_RECS_CLASS) then x
  else (x.p F.FC_CTRL_READY 1).propose

/-- After a wake, LA_MEM and LA_CORE are ON (R385): with valid saves of both the die comes back; otherwise both dies
restart. -/
def State.afterWake (s : State) (d : Ch) : State :=
  let x := s.die d
  if ¬ x.pw.waking ∨ x.dom 0 ≠ domOn ∨ x.dom 2 ≠ domOn then s
  else if ¬ x.saveGood 0 ∨ (x.pw.memSlept ∧ ¬ x.saveGood 2) then s.fieldRestart 0 false
  else s.setDie d { x with pw := { x.pw with waking := false, memSlept := false } }.comeBack

/-- The logic step of domain k of a logic die (R374, R390): its save is restored; without a valid one LA_IO and
LA_LAMP come up as from OFF, with source 39. -/
def LogicDie.logicStep (x : LogicDie) (d : Ch) (k : Nat) : LogicDie :=
  if ¬ x.pw.fallow.testBit k ∨ 5 ≤ k then x
  else if x.saveGood k then x.restoreSave k
  else if k = 3 ∨ k = 4 then ((x.memoryStep k true).freshRegs k).raise d 39 (stepData k 4)
  else x

/-- The step in progress of domain k is done; the next that it does not pass at once begins, or the domain is ON
(R374, R390). What held its requests goes on after that (R378). -/
def State.stepDone (s : State) (d : Ch) (k slow t : Nat) : State :=
  let x := s.die d
  let step := x.g F.PWR_DOM_STEP k
  if x.dom k ≠ 3 ∨ x.pw.down.testBit k ∨ step = 0 then s
  else
    let x := { x with pw := { x.pw with repeated := clrBit x.pw.repeated k } }
    let x := if step = 3 then x.memoryStep k (!x.pw.fallow.testBit k) else x
    if step < 4 then s.setDie d (x.setDom k 3 (stepAfter false k step))
    else
      let s := (s.setDie d ((x.logicStep d k).landDom k domOn)).reachOn d k slow t
      (s.afterWake d).nextTrans d k t

/-- Domains of the host die. -/
def HostDie.setDom (h : HostDie) (k st step : Nat) : HostDie := (h.p F.PWR_HDOM_STATE st k).p F.PWR_HDOM_STEP step k

/-- H_SEC leaves ON (R304, R383, R410, R417): a running fuse command ends where it stands (R402), then the session;
challenge and verification stop, and every force bit clears. -/
def State.secOff (s : State) : State :=
  let s := s.modHost (fun h => { h with sec := { h.sec with waiting := none } })
  let s := (s.otpCut s.host.now).endSession
  let s := s.modHost (fun h =>
    let h := ((h.p F.HDBG_STAT_CHRDY 0).p F.HDBG_STAT_BUSY 0).p F.HDBG_CTRL_CHREQ 0
    ({ h.p F.HDBG_CTRL_VERIFY 0 with sec := { h.sec with asked := false, resp := none } }).unforce)
  (s.modDie .la (·.unforce .la)).modDie .lb (·.unforce .lb)

/-- A transition of a host domain starts (R374, R377): H_SEC leaving ON ends every session (R383), H_CPU leaving ON
the debug access port (R411); before FALLOW the domain is saved (R389). -/
def State.startHost (s : State) (k target : Nat) : State :=
  let up := decide (target = domOn)
  let s := if k = 5 ∧ ¬ up ∧ s.host.hostOn 5 then s.secOff else s
  s.modHost (fun h =>
    let h := if k = 1 ∧ ¬ up ∧ h.sec.jtag = .dap then { h with sec := { h.sec with jtag := .bypass } } else h
    let h := h.setDom k 3 (if up then 1 else if target = 1 then 5 else 4)
    let saves := if target = 1 then Sparse.put (fun _ => none) h.pw.saves k none else h.pw.saves
    { h with pw := { h.pw with
        going := Sparse.put (fun _ => 0) h.pw.going k target, saves := saves
        down := setBits h.pw.down k k (b2n (!up)), repeated := clrBit h.pw.repeated k } })

/-- The RAM of a host domain is lost (R374, R377, R383): snapshot buffers and merged log with H_NET, host SRAM with
the cache with H_MEM. -/
def HostDie.ramLost (h : HostDie) (k : Nat) : HostDie :=
  if k = 2 then { h with snap := SnapSt.reset, mlog := [], unstreamed := 0 }
  else if k = 4 then { h with mem := [] }.p F.HSTL_STAT_CACHE_VALID 0
  else h

/-- A host transition ends in state `st` (R378): OFF loses the domain's RAM; H_SEC ON lets a waiting HELLO be answered
(R417); H_NET ON lets its collector raise an earlier failure (R376); a held request starts, but no wake restarts a
domain that has failed. -/
def State.endHost (s : State) (k st : Nat) : State :=
  let s := s.modHost (fun h =>
    let h := h.setDom k st 0
    let h := if st = 0 then h.ramLost k else h
    let h := if k = 5 ∧ st = domOn then (h.answerHello .la).answerHello .lb else h
    let h := if k = 2 ∧ st = domOn ∧ h.pw.netFail ≠ 0 then
        ({ h with pw := { h.pw with netFail := 0 } }).raiseAll [⟨50, stepData 2 h.pw.netFail, none, false, false⟩]
      else h
    { h with pw := { h.pw with fallow := setBits h.pw.fallow k k (b2n (decide (st = 1))) } })
  let held := Sparse.get (fun _ => none) s.host.pw.held k
  let stays := s.host.pw.failed.testBit k && s.host.pw.wakes.testBit k
  let s := s.modHost (fun h => { h with pw := { h.pw with
    held := Sparse.put (fun _ => none) h.pw.held k none, wakes := clrBit h.pw.wakes k } })
  match held with
  | some target => if target = st ∨ stays then s else s.startHost k target
  | none => s

/-- Hold a request for a host domain in transition (R378); `wake`: a wake asks for it. -/
def HostDie.hold (h : HostDie) (k target : Nat) (wake : Bool) : HostDie :=
  { h with pw := { h.pw with
    held := Sparse.put (fun _ => none) h.pw.held k (some target), wakes := setBits h.pw.wakes k k (b2n wake) } }

/-- A host domain comes up with its reset values (R390). Lock bits (R12), the lifecycle in force (R401), and the count
of failed verifications with its lockout (R409) last until nRST_H. -/
def HostDie.freshDom (h : HostDie) (k : Nat) : HostDie :=
  let keep := [F.BB_CTRL_LOCK, F.HSTL_CTRL_LOCK, F.HFC_CTRL_LOCK, F.SEC_LC_LC, F.HDBG_STAT_FAILS, F.HDBG_STAT_LOCKOUT]
  let y := { h with regs := h.regs.filter (fun e => !hostDomReg k (Reg.ofNum (e.1 % 512))) }
  let y := keep.foldl (fun y f => if hostDomReg k f.reg then y.p f (h.g f) else y) y
  if k = 1 then (List.range 4).foldl HostDie.resetCore y
  else if k = 2 then { y with back := { BackSt.reset with seq := h.back.seq, rtag := h.back.rtag }, fc := FcSt.reset }
  else if k = 3 then { y with crcErr := false, answer := [] }
  else if k = 5 then y.showFuses
  else y

/-- The save of a host domain is restored (R390). -/
def HostDie.restoreSave (h : HostDie) (k : Nat) : HostDie :=
  match Sparse.get (fun _ => none) h.pw.saves k with
  | none => h.freshDom k
  | some q =>
    let h := { h with regs := restoreFile h.regs (hostSaved k) q.words }
    if k = 1 then (List.range 4).foldl (fun h n =>
      let c := Sparse.get (fun _ => CompCore.reset) h.cores n
      { h with cores := Sparse.put (fun _ => CompCore.reset) h.cores n { c with w := savedCore q.words n } }) h
    else h

/-- The step in progress of a host domain is done (R374). A domain that comes up from FALLOW restores its save;
otherwise it takes its reset values (R390). -/
def State.hostStepDone (s : State) (k : Nat) : State :=
  let h := s.host
  let step := h.g F.PWR_HDOM_STEP k
  if h.g F.PWR_HDOM_STATE k ≠ 3 ∨ h.pw.down.testBit k ∨ step = 0 then s
  else if step < 4 then
    s.modHost (fun h =>
      let h := if step = 3 ∧ ¬ h.pw.fallow.testBit k then h.ramLost k else h
      { h.setDom k 3 (stepAfter true k step) with pw := { h.pw with repeated := clrBit h.pw.repeated k } })
  else (s.modHost (fun h => if h.pw.fallow.testBit k then h.restoreSave k else h.freshDom k)).endHost k domOn

/-- BRING_UP_STEP (R374, R376, R390): the ready signal of the step in progress arrives for domain k of a logic die or, with
`none`, of the host die. Ready in the repeat of a step counts as transient. `slow`: slow-clock ticks since the save. -/
def execBringUpStep (dom : Option Ch) (k : Fin 11) (slow : Nat) (t : Time) (s : State) :
    Host.Outcome State Fault Refusal :=
  match dom with
  | some d =>
    .next ((s.modDie d (fun x =>
      let x := x.at t
      if x.pw.repeated.testBit k.val ∧ x.dom k.val = 3 then
        (x.count F.PWR_CNT_TRANS).log d x.now x.recFold 0x0201 2 (stepData k.val (x.g F.PWR_DOM_STEP k.val))
      else x)).stepDone d k.val slow t)
  | none =>
    .next ((s.modHost (fun h =>
      let h := h.at t
      if h.pw.repeated.testBit k.val then h.log 0x0201 2 (stepData k.val (h.g F.PWR_HDOM_STEP k.val)) else h)).hostStepDone k.val)

/-- FIXED_DELAY_EXPIRY (R375, R376): the fixed delay of the step in progress has run out. A faulted monitor lets the
sequence go on; without ready the step is repeated once, and a second miss fails the domain. -/
def execFixedDelayExpiry (dom : Option Ch) (k : Fin 11) (faulted : Bool) (slow : Nat) (t : Time) (s : State) :
    Host.Outcome State Fault Refusal :=
  let k := k.val
  match dom with
  | some d =>
    let s := s.modDie d (·.at t)
    let x := s.die d
    let step := x.g F.PWR_DOM_STEP k
    if x.dom k ≠ 3 ∨ x.pw.down.testBit k ∨ step = 0 then .next s
    else if faulted then
      .next ((s.modDie d (fun x =>
        ((x.p F.PWR_DOM_FIXED 1 k).count F.PWR_CNT_FIXED).log d x.now x.recFold 0x0200 2 (stepData k step))).stepDone d k slow t)
    else if ¬ x.pw.repeated.testBit k then
      .next (s.setDie d { x with pw := { x.pw with repeated := setBit x.pw.repeated k } })
    else
      let s := s.modDie d (fun x =>
        (((x.landDom k 0).p F.PWR_DOM_RESULT 6 k).p F.PWR_DOM_FAIL 1 k).raise d 39 (stepData k step))
      let s := if k = 9 then s.modDie (other d) (fun x => x.raise (other d) 39 (stepData k step)) else s
      .next (s.nextTrans d k t)
  | none =>
    let s := s.modHost (·.at t)
    let h := s.host
    let step := h.g F.PWR_HDOM_STEP k
    if h.g F.PWR_HDOM_STATE k ≠ 3 ∨ h.pw.down.testBit k ∨ step = 0 then .next s
    else if faulted then
      .next ((s.modHost (fun h => (h.p F.PWR_HDOM_FIXED 1 k).log 0x0200 2 (stepData k step))).hostStepDone k)
    else if ¬ h.pw.repeated.testBit k then
      .next { s with host := { h with pw := { h.pw with repeated := setBit h.pw.repeated k } } }
    else
      let s := s.modHost (fun h =>
        let h := (h.p F.PWR_HDOM_RESULT 6 k).p F.PWR_HDOM_FAIL 1 k
        let h := { h with pw := { h.pw with failed := setBit h.pw.failed k } }
        if k = 2 then { h with pw := { h.pw with netFail := step } }
        else h.raiseAll [⟨50, stepData k step, none, false, false⟩])
      .next (s.endHost k 0)

/-- SAVE (R389): the save region of domain k is written and its commit word with it. Nothing is written once VF24 has
fallen below 12.0 V in the power-down sequence (R393). -/
def execSave (dom : Option Ch) (k : Fin 6) (t : Time) (s : State) : Host.Outcome State Fault Refusal :=
  let k := k.val
  match dom with
  | some d =>
    .next (s.modDie d (fun x =>
      let x := x.at t
      if k < 5 ∧ x.dom k = 3 ∧ x.g F.PWR_DOM_STEP k = 5 ∧ ¬ x.pw.brown then (x.putSave k).p F.PWR_DOM_STEP 4 k else x))
  | none =>
    .next (s.modHost (fun h =>
      let h := h.at t
      if 1 ≤ k ∧ h.g F.PWR_HDOM_STATE k = 3 ∧ h.g F.PWR_HDOM_STEP k = 5 then
        { h.p F.PWR_HDOM_STEP 4 k with pw := { h.pw with
          saves := Sparse.put (fun _ => none) h.pw.saves k (some (saveRegion (h.saveWords k) 0)) } }
      else h))

/-- The power-down sequence ends once no domain is in transition (R392, R393): the sources that it suppressed are logged. -/
def LogicDie.sequenceEnd (x : LogicDie) (d : Ch) : LogicDie :=
  if x.is F.PWR_STAT_PDSEQ ∧ (List.range 10).all (fun j => x.dom j != 3) then
    let x := x.pw.pdSeen.foldl (fun x src =>
      let c := Config.suppressedRecord src
      x.log d x.now x.recFold (0x0200 + c % 3) 2 (c / 3)) x
    { x.p F.PWR_STAT_PDSEQ 0 with pw := { x.pw with dipped := true, seqEnd := x.now, pdSeen := [] } }
  else x

/-- TAKE_DOWN (R377, R392): the take-down of a domain completes, its steps in reverse order behind it (log 175), in
the state that it leads to, once its save is written or given up. The power-down sequence ends with its last
take-down. -/
def execTakeDown (dom : Option Ch) (k : Fin 11) (t : Time) (s : State) : Host.Outcome State Fault Refusal :=
  let k := k.val
  match dom with
  | some d =>
    let s := s.modDie d (·.at t)
    let x := s.die d
    let ready := x.g F.PWR_DOM_STEP k ≠ 5 || x.pw.brown
    if x.dom k ≠ 3 ∨ ¬ x.pw.down.testBit k ∨ ¬ ready then .next s
    else
      .next ((s.endTrans d k (x.g F.PWR_DOM_TARGET k) t).modDie d (fun x => x.sequenceEnd d))
  | none =>
    let s := s.modHost (·.at t)
    let h := s.host
    if h.g F.PWR_HDOM_STATE k ≠ 3 ∨ ¬ h.pw.down.testBit k ∨ h.g F.PWR_HDOM_STEP k = 5 then .next s
    else .next (s.endHost k (Sparse.get (fun _ => 0) h.pw.going k % 3))

/-! ### Requests (R378-R383) -/

/-- The states that the table *Power domains* lists for domain k of a logic die. -/
def domListed (k st : Nat) : Bool :=
  if k = 0 ∨ k = 2 ∨ k = 3 ∨ k = 4 then st == 2 || st == 1
  else if k = 1 ∨ (6 ≤ k ∧ k ≤ 9) then st == 2 || st == 0
  else st == 2

/-- Domain k of a logic die is ON or on its way there, so that a request for another state makes it leave ON. -/
def LogicDie.leavesOn (x : LogicDie) (k : Nat) : Bool := x.dom k == domOn || (x.dom k == 3 && !x.pw.down.testBit k)

/-- The result of a released DOMAIN request (R379), judged against the zone states and cmd of the fold being committed;
`sib` holds the requests of the same fold. -/
def LogicDie.domResult (x : LogicDie) (k st : Nat) (zones : Word) (sib : List DomReq) : Nat :=
  let live := (List.range 16).any (fun z => safeOne zones z) || x.g F.SO_CMD_CMD != 0
  let asks := fun (j : Nat) => sib.any (fun r => r.dom == j && r.state == 1)
  if ¬ domListed k st then 3
  else if st = domOn then 1
  else if k = 3 ∨ k = 6 ∨ k = 8 ∨ k = 9 then (if live ∧ x.leavesOn k then 2 else 1)
  else if k = 0 then (if live ∧ x.leavesOn 0 then 2 else if x.dom 2 = domOn ∨ asks 2 then 1 else 4)
  else if k = 2 then (if asks 0 then 1 else 4)
  else if k = 1 then (if x.hdr.triad then 3 else 1)
  else 1

/-- The released DOMAIN requests of a commit, in program order (R128, R379). A self-test of a unit whose domain a
request would take from ON ends first (R455). -/
def State.judgeDomains (s : State) (d : Ch) (zones : Word) (all : List DomReq) (t : Nat) : List DomReq → State
  | [] => s
  | r :: rs =>
    let s := if r.state ≠ domOn ∧ (s.die d).dom r.dom = domOn then s.bistLeave d r.dom else s
    let result := (s.die d).domResult r.dom r.state zones all
    let s := s.modDie d (fun x => (x.p F.PWR_DOM_RESULT result r.dom).report r.dom)
    let s := if result = 1 then s.askDom d r.dom r.state t else s.bistGo
    s.judgeDomains d zones all t rs

/-- A host domain is ON or on its way there. -/
def HostDie.leavesOn (h : HostDie) (k : Nat) : Bool :=
  h.hostOn k || (h.g F.PWR_HDOM_STATE k == 3 && !h.pw.down.testBit k)

/-- PWR_HDOM_TARGET (R382): host firmware requests a state of host domain k; the host processor may not. -/
def execPwrHdomTarget (k : Fin 6) (target : Fin 4) (party : Party) (t : Time) (s : State) :
    Host.Outcome State Fault Refusal :=
  let s := s.modHost (·.at t)
  let k := k.val
  let target := target.val
  if s.host.inReset then .next s
  else if party ≠ .hostFirmware then .next (s.modHost (fun h => h.accessError party (regAddr .PWR_HDOM k)))
  else
    let h := s.host
    let result :=
      if k = 0 ∨ target = 3 then 3
      else if k = 2 ∧ target ≠ domOn ∧ h.leavesOn 2 ∧ (h.is F.HSTL_STAT_SESSA ∨ h.is F.HSTL_STAT_SESSB) then 4
      else if k = 4 ∧ target ≠ domOn ∧ h.leavesOn 4 ∧ (h.hostOn 1 ∨ h.hostOn 2) then 4
      else 1
    let s := s.modHost (fun h =>
      let h := (h.p F.PWR_HDOM_TARGET target k).p F.PWR_HDOM_RESULT result k
      if result = 1 then { h with pw := { h.pw with failed := clrBit h.pw.failed k } } else h)
    if result ≠ 1 then .next s
    else if h.g F.PWR_HDOM_STATE k = 3 then .next (s.modHost (fun h => h.hold k target false))
    else if h.g F.PWR_HDOM_STATE k = target then .next s
    else .next (s.startHost k target)

/-- A power-die domain that fails and leaves ON without a request (R30): its functions fall as at a request, and the
collectors of both dies record the cause. -/
def execDomainFailure (d : Ch) (k : Fin 10) (t : Time) (s : State) : Host.Outcome State Fault Refusal :=
  let s := (s.modDie .la (·.at t)).modDie .lb (·.at t)
  let k := k.val
  if k < 6 ∨ (s.die d).dom k ≠ domOn then .next s
  else
    let s := s.leaveOn d k t
    let s := s.modDie d (fun x => ((x.setDom k 0 0).p F.PWR_DOM_FAIL 1 k).report k)
    let s := s.modDie d (fun x => x.raise d 39 (stepData k 0))
    .next (if k = 9 then s.modDie (other d) (fun x => x.raise (other d) 39 (stepData k 0)) else s).bistGo

/-! ### Waking (R385) -/

/-- A paused die wakes: it notes the other die and asks for LA_MEM and LA_CORE. -/
def State.wake (s : State) (d : Ch) (tell : Bool) (t : Nat) : State :=
  let x := s.die d
  if ¬ x.is F.PWR_STAT_PAUSED ∨ x.pw.waking then s
  else
    let x := { x with pw := { x.pw with waking := true, memSlept := x.pw.memSlept || x.dom 2 != domOn } }
    let x := if tell then x.note .wake else x
    let go := fun (s : State) (k : Nat) =>
      let y := s.die d
      if y.dom k = 3 ∧ y.pw.down.testBit k then
        s.setDie d { y with pw := { y.pw with woke := setBit y.pw.woke k } }
      else s.askDom d k domOn t
    (go (go (s.setDie d x) 2) 0).afterWake d

/-- A wake source of a paused die, enabled and with its domains ON (R385): 0 input, 1 timer, 2 crook, 3 backbone. -/
def LogicDie.wakeOk (x : LogicDie) (src i : Nat) : Bool :=
  match src with
  | 0 => x.is F.PWR_WAKE_INPUT && x.dom 3 == domOn && !x.inSide.pdInOff.testBit (frontPd i) && x.bit F.SI_WAKE_BITS i
  | 1 => x.is F.PWR_WAKE_TIMER && x.dom 3 == domOn && decide (i < 16) && x.bit F.PWR_WAKE_WAKEGT i
  | 2 => x.is F.PWR_WAKE_CROOK
  | _ => x.is F.PWR_WAKE_BACKBONE

/-- The event of a wake source comes at this instant (R385): a change of the filtered state of an input, or a flag of
a timer. -/
def LogicDie.wakeComes (x : LogicDie) (src i : Nat) : Bool :=
  match src with
  | 0 => (x.inp i).filtAt == x.now && (x.inp i).filtWas != x.is F.SI_STAT_FILT i
  | 1 => x.is F.GT_STAT_M0 i || x.is F.GT_STAT_M1 i
  | _ => true

/-- A wake source acts on a paused die. -/
def State.wakeBy (s : State) (d : Ch) (src i t : Nat) : State :=
  if (s.die d).is F.PWR_STAT_PAUSED ∧ (s.die d).wakeOk src i then
    (s.modDie d (fun x => x.p F.PWR_WAKE_CAUSE (2 ^ src))).wake d true t
  else s

/-- WAKE (R385): source 0 a filtered change of input i, 1 a compare match of timer i, 2 a crook change. -/
def execWake (d : Ch) (src : Fin 3) (i : Fin 48) (t : Time) (s : State) : Host.Outcome State Fault Refusal :=
  let s := s.modDie d (·.at t)
  .next (if (s.die d).wakeComes src.val i.val then s.wakeBy d src.val i.val t else s)

/-- WAKE_NOTE (R385): the other die's wake note arrives. -/
def execWakeNote (d : Ch) (t : Time) (s : State) : Host.Outcome State Fault Refusal :=
  match (s.modDie d (·.at t)).takeNote d (fun n => n == .wake) with
  | some (_, s) => .next (s.wake d false t)
  | none => .next (s.modDie d (·.at t))

/-- The real-time counter (R398): slow-clock ticks of 32.768 kHz, counted on from the instant at which its value was
last set (log 178). -/
def HostDie.rtc (h : HostDie) : Nat := (h.g F.PWR_HRTC_RTC + (h.now - h.pw.rtcAt) * 32768 / 1000000000) % 2 ^ 48

/-- A wake of the host domains (R385): those named in DOMS go ON, but not one that has failed (R376). -/
def State.hostWake (s : State) (src : Nat) : State :=
  let h := s.host
  let on := fun (k : Nat) => h.g F.PWR_HDOM_STATE k
  let ok : Bool := match src with
    | 0 => h.is F.PWR_HWAKE_PCIE && (on 3 == 1 || on 3 == 2)
    | 1 => h.is F.PWR_HWAKE_BACKBONE && on 2 == 2
    | 2 => h.is F.PWR_HWAKE_TIMER && h.g F.PWR_HWAKET_WAKET != 0 &&
        decide (h.g F.PWR_HWAKET_WAKET ≤ h.rtc)
    | _ => h.is F.PWR_HWAKE_FIELD && on 2 == 2
  if ¬ ok ∨ h.inReset then s
  else
    let s := s.modHost (fun h => h.p F.PWR_HWAKE_CAUSE (2 ^ src))
    [1, 2, 3, 4, 5].foldl (fun s k =>
      if ¬ s.host.bit F.PWR_HWAKE_DOMS k ∨ s.host.pw.failed.testBit k then s
      else if s.host.g F.PWR_HDOM_STATE k = 3 then s.modHost (fun h => h.hold k domOn true)
      else if s.host.hostOn k then s
      else (s.modHost (fun h => h.p F.PWR_HDOM_TARGET domOn k)).startHost k domOn) s

/-- HOST_WAKE (R385): source 0 PCIe, 1 backbone, 2 the real-time counter, which stands at `rtc`, 3 field. -/
def execHostWake (src : Fin 4) (rtc : BitVec 48) (t : Time) (s : State) : Host.Outcome State Fault Refusal :=
  .next ((s.modHost (fun h =>
    let h := (h.at t).p F.PWR_HRTC_RTC rtc.toNat
    { h with pw := { h.pw with rtcAt := h.now } })).hostWake src.val)

/-- PWR_HWAKE_FIELD (R381, R398): host firmware writes PWR_HWAKE; FIELD written 1 while a field die reports its fold task
paused sends that die POWER_REQ ON for its core domain. -/
def execPwrHwakeField (v : Word) (party : Party) (t : Time) (s : State) : Host.Outcome State Fault Refusal :=
  runHost t s (fun h =>
    if party ≠ .hostFirmware then h.accessError party (regAddr .PWR_HWAKE 0)
    else
      let w := v.toNat
      let h := ((h.p F.PWR_HWAKE_PCIE (w % 2)).p F.PWR_HWAKE_BACKBONE (w / 2 % 2)).p F.PWR_HWAKE_TIMER (w / 4 % 2)
      let h := (h.p F.PWR_HWAKE_FIELD (w / 8 % 2)).p F.PWR_HWAKE_DOMS (w / 256 % 64)
      if w.testBit 3 then
        let h := if h.is F.PWR_FREP_PAUSEDA then h.send .la (.powerReq 1 0 2 h.now) else h
        if h.is F.PWR_FREP_PAUSEDB then h.send .lb (.powerReq 1 0 2 h.now) else h
      else h)

/-- POWER_REQ_REQUEST (R381): a request for ON acts as a backbone wake and is granted; any other is refused, result 5. -/
def execPowerReqRequest (d : Ch) (t : Time) (s : State) : Host.Outcome State Fault Refusal :=
  let s := s.modDie d (·.at t)
  match s.incoming d false with
  | some (.powerReq op k st _) =>
    let s := s.accepted d false
    if op ≠ 1 then .next s
    else if st = domOn then
      .next ((s.modDie d (fun x => x.send (.powerReq 2 k st x.now))).wakeBy d 3 0 t)
    else
      .next (s.modDie d (fun x =>
        (if k < 11 then x.p F.PWR_DOM_RESULT 5 k else x).send (.powerReq 3 k st x.now)))
  | _ => .next s

/-! ### Performance levels (R386-R388) -/

/-- PWR_PL_REQ (R11, R387): only the parameter blocks and released fold-task stores may write it; within a fold the
value pends. -/
def execPwrPlReq (d : Ch) (pl : Fin 4) (party : Party) (t : Time) (s : State) : Host.Outcome State Fault Refusal :=
  .next (s.modDie d (fun x =>
    let x := x.at t
    if party = .foldTask ∨ party = .boot then x.levelWrite (BitVec.ofNat 64 pl.val) else x.accessError d party (regAddr .PWR_PL 0)))

/-- LEVEL_READY (R387): the other die's level-ready note arrives; it counts for a change to the same level. -/
def execLevelReady (d : Ch) (t : Time) (s : State) : Host.Outcome State Fault Refusal :=
  let s := s.modDie d (·.at t)
  match s.takeNote d (fun n => match n with | .level _ => true | _ => false) with
  | some (.level pl, s) =>
    .next (s.modDie d (fun x =>
      if x.is F.PWR_PL_PEND ∧ x.g F.PWR_PL_REQ = pl then { x with pw := { x.pw with plTheirs := true, plBoth := x.now } } else x))
  | _ => .next s

/-- CLOCK_SWITCH (R387): in the interval between folds before the first fold start that lies at least 1 µs after both
notes are held; PWR_PL.CUR and FOLD_STATUS.PL take the level. -/
def execClockSwitch (t : Time) (s : State) : Host.Outcome State Fault Refusal :=
  let s := (s.modDie .la (·.at t)).modDie .lb (·.at t)
  let ok := fun (x : LogicDie) => x.is F.PWR_PL_PEND && x.pw.plMine && x.pw.plTheirs && x.fold.phase == .idle &&
    decide (x.pw.plBoth + 1000 ≤ x.nextStart t)
  if ok s.la ∧ ok s.lb then
    let go := fun (x : LogicDie) =>
      let pl := x.g F.PWR_PL_REQ
      let x := ((x.p F.PWR_PL_CUR pl).p F.FOLD_STATUS_PL pl).p F.PWR_PL_PEND 0
      { x with pw := { x.pw with plMine := false, plTheirs := false } }
    .next ((s.modDie .la go).modDie .lb go)
  else .next s

/-- LEVEL_ABANDON (R387): the switch has not happened 1 ms after the release; both dies set REFUSED. -/
def execLevelAbandon (t : Time) (s : State) : Host.Outcome State Fault Refusal :=
  let go := fun (x : LogicDie) =>
    let x := x.at t
    if x.is F.PWR_PL_PEND ∧ x.pw.plAt + 1000000 ≤ t then
      { (x.p F.PWR_PL_PEND 0).p F.PWR_PL_REFUSED 1 with pw := { x.pw with plMine := false, plTheirs := false } }
    else x
  .next ((s.modDie .la go).modDie .lb go)

/-- PWR_HPL_REQ (R388): host firmware sets the host level; the ramp and the clock switch are time only. A fuse command
that loses PL1 ends where it stands (R403). -/
def execPwrHplReq (pl : Fin 4) (party : Party) (t : Time) (s : State) : Host.Outcome State Fault Refusal :=
  let s := s.modHost (·.at t)
  if s.host.inReset then .next s
  else if party ≠ .hostFirmware then .next (s.modHost (fun h => h.accessError party (regAddr .PWR_HPL 0)))
  else
    let s := if pl.val = 0 then s.otpCut t else s
    .next (s.modHost (fun h => (h.p F.PWR_HPL_REQ pl.val).p F.PWR_HPL_CUR pl.val))

/-! ### Power-down and return (R392-R394, R478) -/

/-- The hardware stop path of the power die of die d acts (R392). -/
def LogicDie.stopPath (x : LogicDie) (d : Ch) : LogicDie :=
  let x := x.pathStop
  let x := if d = .la then x.p F.MX_CTRL_BLANKED 1 else x.p F.MX_DRVSTAT_BLANKED 1
  x.p F.PWR_PDSTAT_STOP 1

/-- Folds stop (R392): a running attempt is rolled back and never commits. -/
def LogicDie.stopFolds (x : LogicDie) : LogicDie :=
  ((x.p F.FOLD_STATUS_RUNNING 0).rollback).foldStops

/-- Queue every unsent log record (R392, R440). -/
def LogicDie.flushLog (x : LogicDie) : Nat → LogicDie
  | 0 => x
  | n + 1 => if x.g F.LOG_STAT_UNSENT ≤ x.logInFlight then x else (x.sendLog).flushLog n

/-- The take-down of domain k in the power-down sequence (R392): LA_MEM goes to FALLOW, the others OFF; a logic-die
domain that is ON is saved first. -/
def LogicDie.powerDownDom (x : LogicDie) (k : Nat) : LogicDie :=
  let target := if k = 2 then 1 else 0
  if k = 5 ∨ x.dom k = target then x
  else
    let saving := x.dom k = 3 ∧ x.g F.PWR_DOM_STEP k = 5
    let save := decide (k < 5) && x.dom k == domOn
    let x := if k = 8 ∧ x.leavesOn 8 then x.afeOff else x
    let x := if save then x.dropSave k else x
    let x := (x.setDom k 3 (if save ∨ saving then 5 else 4)).p F.PWR_DOM_TARGET target k
    { x with pw := { x.pw with down := setBit x.pw.down k } }

/-- The power-down sequence starts on a die (R392): outputs and folds stop, the log is flushed, and the field domains
go down; where none has to, it ends at once. -/
def LogicDie.powerDown (x : LogicDie) (d : Ch) : LogicDie :=
  let x := ((x.stopPath d).stopFolds).p F.PWR_STAT_PDSEQ 1
  let x := x.count F.PWR_CNT_DIPS
  let x := if d = .lb then x.proofLost 9 0x3F else x.peClear
  let x := x.flushLog 128
  let x := { x with pw := { x.pw with
    upAt := none, brown := false, held := [], woke := 0, waking := false, memSlept := false, dipped := false } }
  ((List.range 10).foldl LogicDie.powerDownDom x).sequenceEnd d

/-- VF24 falls below 19.0 V, or acts as if it had (R392, R478). Tests that run or wait end (R450, R455). A sequence
already running is not started again. -/
def State.vf24Fall (s : State) (low : Bool) (mv10 : Nat) (t : Nat) : State :=
  let go := fun (d : Ch) (x : LogicDie) =>
    let x := (x.at t).p F.PWR_PDSTAT_VF24 mv10
    let x := if low then (x.p F.PWR_STAT_VF24LOW 1).p F.PWR_PDSTAT_LOW 1 else x
    let x := { x with pw := { x.pw with upAt := none } }
    if x.is F.PWR_STAT_PDSEQ ∨ x.boot.phase = .off then x.stopPath d else x.powerDown d
  let s := (s.bistAbort .la).bistAbort .lb
  ((s.modDie .la (go .la)).modDie .lb (go .lb)).bistGo

/-- VF24_LOW (R392): VF24 falls below 19.0 V; it stands at `mv10` × 10 mV. -/
def execVf24Low (mv10 : Fin 1900) (t : Time) (s : State) : Host.Outcome State Fault Refusal := .next (s.vf24Fall true mv10.val t)

/-- VF24_OVERVOLTAGE (R478): VF24 above 33.0 V for 2 µs. -/
def execVf24Overvoltage (mv10 : Fin 65536) (t : Time) (s : State) : Host.Outcome State Fault Refusal :=
  .next (s.vf24Fall false mv10.val t)

/-- A logic die whose always-on domain has lost its supply: fuses alone remain. -/
def LogicDie.unpowered (x : LogicDie) : LogicDie :=
  let fuses : List Reg := [.BIST_FUSE, .BIST_SLFUSE, .BIST_PDFUSE, .BIST_PDSLF, .ADC_FACT, .PWR_PDID]
  { LogicDie.reset with
    regs := x.regs.filter (fun e => fuses.contains (Reg.ofNum (e.1 % 512)))
    bist := { BistSt.reset with slPart := x.bist.slPart }
    fresh := x.fresh }

/-- VF24_BROWNOUT (R393): below 12.0 V the flush and the saves not yet written stop; below 8.0 V (`lost`) the always-on
domains are lost. -/
def execVf24Brownout (lost : Bool) (t : Time) (s : State) : Host.Outcome State Fault Refusal :=
  let go := fun (x : LogicDie) =>
    let x := x.at t
    if lost then x.unpowered
    else if x.is F.PWR_STAT_PDSEQ then
      { x with
        pw := { x.pw with brown := true }
        stl := { x.stl with queue := x.stl.queue.filter (fun m => match m with | .logRecord _ _ => false | _ => true) } }
    else x
  let s := if lost then s.burnsCut else s
  .next ((s.modDie .la go).modDie .lb go)

/-- FIELD_POWER_UP (R372, R393, R422, R478): VF24 comes to 19.2 V or more, from below or from an overvoltage (log 99).
A field side that had lost its always-on domains starts from nothing, its timebase at 0, and its boot ROMs run;
otherwise the millisecond before a warm return begins, unless VF24 is above 30 V (R478). -/
def execFieldPowerUp (mv10 : Fin 65536) (t : Time) (s : State) : Host.Outcome State Fault Refusal :=
  let go := fun (x : LogicDie) =>
    let x := if x.boot.phase = .off ∧ x.pw.frstAt = none then
        { x.unpowered.fusesAct with boot := { BootSt.reset with phase := .scrub, reason := 0 } }
      else { x.at t with pw := { x.pw with upAt := if mv10.val ≤ 3000 then some t else none } }
    ((x.p F.PWR_PDSTAT_VF24 mv10.val).p F.PWR_PDSTAT_LOW 0).p F.PWR_STAT_VF24LOW 0 |>.p F.PWR_PDSTAT_STOP 0
  .next ((s.modDie .la go).modDie .lb go)

/-- CRC-64 over code SRAM (R391). -/
def LogicDie.codeCheck (x : LogicDie) : Nat :=
  crc64 ((List.range 0x800000).map (fun a => (x.mem8 a).toNat))

/-- The pin record of a die (R335): the RWL fields of its SI_, TP_, SO_, LMP_ and ADC_ registers, in ascending address. -/
def pinRegs : List Reg :=
  regList.filter (fun r => r.layout.place == .logic &&
    ((0x40010000 ≤ r.layout.base && decide (r.layout.base < 0x40038000)) ||
      (0x40050000 ≤ r.layout.base && decide (r.layout.base < 0x40060000))) &&
    r.layout.fields.any (fun f => f.acc == .rwl))

/-- The instances of a register family. -/
def Reg.count (r : Reg) : Nat := r.layout.dims.foldl (fun n d => n * d.1) 1

/-- The RWL bits of a register value. -/
def rwlPart (r : Reg) (v : Word) : Nat :=
  (r.layout.fields.filter (fun f => f.acc == .rwl)).foldl (fun n f => n + Word.bits v f.hi f.lo * 2 ^ f.lo) 0

/-- Insert an address and value into a list in ascending order of addresses. -/
def insAddr (a v : Nat) : List (Nat × Nat) → List (Nat × Nat)
  | [] => [(a, v)]
  | (b, w) :: l => if a < b then (a, v) :: (b, w) :: l else (b, w) :: insAddr a v l

/-- The bytes of the pin record (R335). -/
def LogicDie.pinRecord (x : LogicDie) : List Nat :=
  let cells := pinRegs.foldl (fun l r =>
    (List.range r.count).foldl (fun l i => insAddr (regAddr r i) (rwlPart r (x.rd r i)) l) l) []
  (cells.map (fun c => bytesLE 8 c.2)).flatten

/-- What a warm return finds on a die (R391, R394): 0xF warm, else the COLD cause. `seqFail`: a domain failed to come up. -/
def LogicDie.returnCause (x : LogicDie) (seqFail : Bool) : Nat :=
  let need := [0, 2, 3, 4] ++ (if x.hdr.triad then [1] else [])
  if seqFail then 4
  else if ¬ need.all (fun k => x.bit F.PWR_SAVE_VALID k) ∨ x.pw.brown then 1
  else if ¬ x.is F.PWR_SAVE_RCHK ∨ x.codeCheck ≠ x.pw.chkCode ∨ crc64 x.pinRecord ≠ x.pw.chkPins then 2
  else 15

/-- The field domains of a die come up as from FALLOW, with their saves (R372, R394): LA_TRIAD only in triad mode. -/
def State.allOn (s : State) (d : Ch) (slow t : Nat) : State :=
  [0, 2, 3, 4, 6, 7, 8, 9].foldl (fun s k =>
    (s.modDie d (fun x =>
      let x := if x.dom k = domOn then x else (x.memoryStep k false).restoreSave k
      let x := (x.setDom k domOn 0).p F.PWR_DOM_TARGET domOn k
      { x with pw := { x.pw with down := clrBit x.pw.down k, fallow := clrBit x.pw.fallow k } })).reachOn d k slow t)
    (s.modDie d (fun x => if x.hdr.triad then x.setDom 1 domOn 0 else x))

/-- A warm return is due (R393): the power-down sequence has ended, and VF24 has stayed above 19.2 V for 1 ms since. -/
def LogicDie.returnDue (x : LogicDie) (t : Nat) : Bool :=
  !x.is F.PWR_STAT_PDSEQ && x.pw.dipped && x.pw.upAt.any (fun u => decide (max u x.pw.seqEnd + 1000000 ≤ t))

/-- WARM_RETURN (R394): 1 ms after VF24 has risen above 19.2 V and the sequence has ended. With both dies warm they
come back as after a closed record, and PWR_STAT.WARM is set; otherwise both restart, with the cause in COLD. `slow`:
slow-clock ticks since the saves; `failA`, `failB`: sequencing failed. -/
def execWarmReturn (failA failB : Bool) (slow : Nat) (t : Time) (s : State) : Host.Outcome State Fault Refusal :=
  let s := (s.modDie .la (·.at t)).modDie .lb (·.at t)
  if ¬ (s.la.returnDue t ∧ s.lb.returnDue t) then .next s
  else
    let s := (s.allOn .la slow t).allOn .lb slow t
    let a := s.la.returnCause failA
    let b := s.lb.returnCause failB
    if a = 15 ∧ b = 15 then
      let go := fun (x : LogicDie) =>
        let x := (x.p F.PWR_STAT_WARM 1).count F.PWR_CNT_WARM
        { x with pw := { x.pw with upAt := none, dipped := false } }.comeBack
      .next ((s.modDie .la go).modDie .lb go)
    else
      let s := s.fieldRestart 0 false
      .next ((s.modDie .la (fun x => x.p F.PWR_STAT_COLD (if a = 15 then 3 else a))).modDie .lb
        (fun x => x.p F.PWR_STAT_COLD (if b = 15 then 3 else b)))

/-! ### Resets (R395, R396, R477) -/

/-- FRST_ASSERT (R395, R396): FRST goes high. Once it has been high for long enough the power dies open their
switches, drive their crook outputs low, darken their lamps and hold their logic dies in reset (LogicDie.at); a
shorter pulse is ignored. -/
def execFrstAssert (t : Time) (s : State) : Host.Outcome State Fault Refusal :=
  let go := fun (x : LogicDie) =>
    let x := x.at t
    if x.pw.frstAt.isSome then x else { x with pw := { x.pw with frstAt := some t, frstOn := false } }
  .next ((s.modDie .la go).modDie .lb go)

/-- The hold counter takes a hold that ends at `t` (R396, R397). -/
def LogicDie.holdEnds (x : LogicDie) (hold : Nat) : LogicDie :=
  let x := x.p F.PWR_RST_HOLD (min (hold / 1000000) 65535)
  let x := if 1000 ≤ hold then x.count F.PWR_RST_COUNT else x
  if 5000000000 < hold then x.p F.PWR_RST_RST_LONG 1 else x

/-- FRST_RELEASE (R395, R396): where FRST has acted, the hold is counted and measured, and both dies restart with
HELLO reason 1; a pulse that did not act is ignored. -/
def execFrstRelease (t : Time) (s : State) : Host.Outcome State Fault Refusal :=
  let s := (s.modDie .la (·.at t)).modDie .lb (·.at t)
  let s := if s.la.pw.frstOn ∨ s.lb.pw.frstOn then s.burnsCut else s
  let go := fun (x : LogicDie) =>
    match x.pw.frstAt with
    | none => x
    | some a =>
      let hold := x.now - a
      if ¬ x.pw.frstOn then
        let x := if 1000 ≤ hold then x.holdEnds hold else x
        { x with pw := { x.pw with frstAt := none } }
      else
        let x := x.holdEnds hold
        let x := { x with pw := { x.pw with frstAt := none, frstLog := some (min (hold / 1000000) 65535) } }
        (x.restart 1 false).p F.PWR_PDSTAT_FRST 0 |>.p F.PWR_PDSTAT_STOP 0
  .next ((s.modDie .la go).modDie .lb go)

/-- Registers of the host die that nRST_H keeps (R398). -/
def keptHostRegs : List Reg := [.PWR_HSTAT, .PWR_HRTC]

/-- What stays on a link of the host die that is reset: the messages under way, and CLOSE of a session that ended with
the reset (R410). -/
def LinkEnd.inReset (e : LinkEnd) : LinkEnd :=
  { e with cw := none, queue := e.queue.filter (fun m => match m with | .debugReq _ 2 _ => true | _ => false) }

/-- The host die is reset (R396, R398): the cache is lost, fuses stay, the real-time counter counts on. -/
def HostDie.clear (h : HostDie) (t : Nat) : HostDie :=
  { HostDie.reset with
    linkA := h.linkA.inReset
    linkB := h.linkB.inReset
    regs := h.regs.filter (fun e => keptHostRegs.contains (Reg.ofNum (e.1 % 512)))
    now := h.now
    pw := { HPwrSt.reset with nrstAt := some t, rtcAt := h.pw.rtcAt }
    posted := h.posted
    sec := { SecSt.reset with
      issued := h.sec.issued
      lcF := h.sec.lcF, keyF := h.sec.keyF, krevF := h.sec.krevF, arbF := h.sec.arbF, ikF := h.sec.ikF,
      ikFlagF := h.sec.ikFlagF, uid := h.sec.uid, keyPart := h.sec.keyPart } }

/-- The host die enters its held reset: a running fuse command ends where it stands (R402), and the open session ends
with a CLOSE to the dies in its scope (R410). -/
def State.holdHost (s : State) (t : Nat) : State :=
  let s := s.modHost (·.at t)
  if s.host.inReset then s
  else ((s.otpCut t).endSession).modHost (fun h => h.clear t)

/-- NRST_H_ASSERT (R396): the host die is held and sends no control words. -/
def execNrstHAssert (t : Time) (s : State) : Host.Outcome State Fault Refusal := .next (s.holdHost t)

/-- HOST_SUPPLY_LOW (R477): VAON, VIO_H or VDD_H below its threshold holds the host die as nRST_H does. -/
def execHostSupplyLow (t : Time) (s : State) : Host.Outcome State Fault Refusal := .next (s.holdHost t)

/-- The lane test of segment 0 (R448, R463): active lanes that failed twice take the spares that did not, in order;
where they outnumber them the host half of the stile is not established. -/
def HostDie.laneTest (h : HostDie) (lanes : List Nat) : HostDie :=
  let bad := lanes.filter (fun l => decide (l < 64))
  let free := (List.range 4).filter (fun k => !lanes.contains (64 + k))
  let h := ((bad.zip free).zip (List.range 4)).foldl (fun h (e : (Nat × Nat) × Nat) =>
    ((h.p F.HBIST_REP_LANE e.1.1 e.2).p F.HBIST_REP_VALID 1 e.2).p F.HBIST_REP_SPARE e.1.2 e.2) h
  let fits := decide (bad.length ≤ free.length)
  let h := h.p F.BIST_HSTAT_RESULT (if lanes = [] then 0 else if fits then 1 else 2)
  { (h.p F.BIST_HSTAT_TEST 1).p F.BIST_HSTAT_COVER 9950 with xhCut := !fits }

/-- NRST_H_RELEASE (R333, R396, R401, R404): the hold is counted, the fuses take effect, host SRAM is scrubbed, the
paths open, and the boot ROM waits for BOOT. `lanes`: lanes of segment 0, active ones first, that failed their boot
test twice (R448, R463). -/
def execNrstHRelease (lanes : List (Fin 68)) (t : Time) (s : State) : Host.Outcome State Fault Refusal :=
  .next (s.modHost (fun h =>
    let h := h.at t
    match h.pw.nrstAt with
    | none => h
    | some a =>
      let hold := t - a
      let idle := { LinkEnd.zero with cwAt := t }
      let h := { h with pw := { h.pw with nrstAt := none }, mem := [], linkA := idle, linkB := idle }
      let h := h.p F.PWR_HSTAT_HOLD (min (hold / 1000000) 65535)
      let h := if 1000 ≤ hold then h.count F.PWR_HSTAT_COUNT else h
      let h := if 5000000000 < hold then h.p F.PWR_HSTAT_RST_LONG 1 else h
      let h := h.fusesAtReset.laneTest (lanes.map Fin.val)
      let h := h.log 0x0202 2 (min (hold / 1000000) 65535)
      h.p F.HSTL_DL_STAT_READY 1))

end Sys2Proof.Machine
end

