-- ==== Sys2Proof/Machine/RegAccess.lean ====
section
/-! DEFINITION. Register accesses on a logic die (R9-R13, R465-R470): which register an address names, what a read returns,
the side effects of reads, and what a write does by field types, by lock bits and by the rules of each block. -/

namespace Sys2Proof.Machine

/-! ### Which register an address names (R465, R467, R468) -/

/-- The index that an offset names in dimensions of (count, stride); nothing between instances. -/
def dimIndex : List (Nat × Nat) → Nat → Option Nat
  | [], off => if off = 0 then some 0 else none
  | (count, stride) :: ds, off =>
    let q := off / stride
    if q < count then (dimIndex ds (off % stride)).map (fun i => q * ds.foldl (fun n e => n * e.1) 1 + i) else none

/-- The instance of a family that lies at an address. -/
def regMatch (r : Reg) (a : Nat) : Option (Reg × Nat) :=
  if r.layout.base ≤ a then (dimIndex r.layout.dims (a - r.layout.base)).map (fun i => (r, i)) else none

/-- A family or instance that a die does not have: PE_ and MX_ on LB, the matrix driver off PD1, repair ends of other dies
(R267, R268, R468). -/
def regAbsent (d : Ch) (r : Reg) (i : Nat) : Bool :=
  let a := r.layout.base
  match r with
  | .MX_LINE | .MX_COL | .MX_DRVSTAT => d == .la
  | .BIST_PDREP | .BIST_PDFUSE => !segPd d (i / 12) || decide ((segLanes (i / 12)).2 ≤ i % 12)
  | _ => decide (0x40038000 ≤ a) && decide (a < 0x40050000) && d == .lb

/-- The register of a logic die's map at an address: its own blocks or its power die's region. -/
def regAt (d : Ch) (a : Nat) : Option (Reg × Nat) :=
  let place : Place := if 0x50000000 ≤ a then .power else .logic
  match regList.findSome? (fun r => if r.layout.place == place then regMatch r a else none) with
  | some (r, i) => if regAbsent d r i then none else some (r, i)
  | none => none

/-- The register of the host die at a BAR0 offset. -/
def hostRegAt (a : Nat) : Option (Reg × Nat) :=
  regList.findSome? (fun r => if r.layout.place == .host then regMatch r a else none)

/-- The lock bit of the block that holds a register (R12, R467). -/
def lockOf (r : Reg) : Option Fld :=
  let a := r.layout.base
  if r.layout.place == .power then some F.PWR_PDCTRL_LOCK
  else if r.layout.place == .host then
    if a / 0x10000 = 2 then some F.HFC_CTRL_LOCK
    else if a / 0x10000 = 3 then some F.HSTL_CTRL_LOCK
    else if a / 0x10000 = 4 then some F.BB_CTRL_LOCK
    else if a / 0x10000 = 5 then some F.PWR_HCTRL_LOCK
    else none
  else if a < 0x40004000 then some F.FOLD_CTRL_LOCK
  else if a < 0x40008000 then none
  else if a < 0x4000C000 then some F.FC_CTRL_LOCK
  else if a < 0x4000E000 then some F.PWR_CTRL_LOCK
  else if a < 0x40010000 then none
  else if a < 0x40018000 then some F.SI_CTRL_LOCK
  else if a < 0x40020000 then some F.TP_CTRL_LOCK
  else if a < 0x40030000 then some F.SO_CTRL_LOCK
  else if a < 0x40038000 then some F.LMP_CTRL_LOCK
  else if a < 0x40050000 then none
  else if a < 0x40060000 then some F.ADC_CTRL_LOCK
  else if a < 0x40070000 then some F.VCT_CTRL_LOCK
  else if a < 0x40078000 then some F.GT_CTRL_LOCK
  else if a < 0x40080000 then none
  else some F.BIST_CTRL_LOCK

/-- The block of a register is locked. -/
def LogicDie.locked (x : LogicDie) (r : Reg) : Bool :=
  match lockOf r with
  | some f => x.is f
  | none => false

/-- The bits of a register that no field names. -/
def Reg.reserved (r : Reg) : Nat :=
  2 ^ 64 - 1 - r.layout.fields.foldl (fun n f => n + maskBits f.hi f.lo) 0

/-- Some field of a register accepts a write (R10): not every field is RO, or RWL after the lock. -/
def Reg.writable (r : Reg) (locked : Bool) : Bool :=
  r.layout.fields.any (fun f => !(f.acc == .ro || (f.acc == .rwl && locked)))

/-- What a plain write makes of a register value, field by field (R9); RO, RC, WO and RWF fields stay. -/
def applyFields (r : Reg) (locked : Bool) (old v : Nat) : Nat :=
  r.layout.fields.foldl (fun w f =>
    let n := bitsOf v f.hi f.lo
    let c := bitsOf w f.hi f.lo
    match f.acc with
    | .rw => setBits w f.hi f.lo n
    | .rwl => if locked then w else setBits w f.hi f.lo n
    | .w1c => setBits w f.hi f.lo (c - Nat.land c n)
    | .w1s => setBits w f.hi f.lo (Nat.lor c n)
    | _ => w) old

/-- The W1C bits of `old` that a write `v` clears although hardware sets them in the same cycle (R13): they stay set. -/
def coincident (r : Reg) (old v hw : Nat) : Nat :=
  r.layout.fields.foldl (fun m f =>
    if f.acc == .w1c then
      Nat.lor m (Nat.land (bitsOf old f.hi f.lo) (Nat.land (bitsOf v f.hi f.lo) (bitsOf hw f.hi f.lo)) * 2 ^ f.lo)
    else m) 0

/-- The value that WO fields never show (R9). -/
def Reg.shown (r : Reg) (v : Nat) : Nat :=
  r.layout.fields.foldl (fun w f => if f.acc == .wo then setBits w f.hi f.lo 0 else w) v

/-! ### Reads (R9, R465, R470) -/

/-- What a register shows of the world outside at this instant, where no command brings it: left open. -/
def LogicDie.measured (x : LogicDie) (d : Ch) (r : Reg) (i : Nat) : Word :=
  Config.measured d.num r.num i x.now &&& ~~~ BitVec.ofNat 64 r.reserved

/-- The mid and output node levels of SOn now (R222): those that a check at this instant read, else left open. -/
def LogicDie.nodeLevels (x : LogicDie) (d : Ch) (n : Nat) : Nat :=
  if (x.out n).readAt = x.now then x.g F.SO_STAT_NODE n + 2 * x.g F.SO_STAT_MID n
  else bitsOf (x.measured d .SO_STAT n).toNat 1 0

/-- PD1's matrix driver is blanked (R264): as the last lamp-link frame says, before the first frame is drawn, or with
P1_LAMP not ON. -/
def LogicDie.mxShut (x : LogicDie) : Bool :=
  x.is F.MX_DRVSTAT_BLANKED || x.mx.drawn.isNone || x.g F.PWR_DOM_STATE 7 != domOn

/-- What a register shows where the state holds it in another form. -/
def LogicDie.view (x : LogicDie) (d : Ch) (r : Reg) (i : Nat) : Word :=
  let v := x.rd r i
  match r with
  | .SI_FILT => BitVec.ofNat 64 (x.gather F.SI_STAT_FILT 48)
  | .SI_RAW => BitVec.ofNat 64 (x.gather F.SI_STAT_RAW 48)
  | .SI_TSUM => BitVec.ofNat 64 x.tsum
  | .TP_SUM => BitVec.ofNat 64 x.tpSum
  | .SO_SUM => BitVec.ofNat 64 x.soSum
  | .SO_CTRL => Word.setBits v 1 1 (x.g F.FOLD_STATUS_STARTED)
  | .LMP_SUM => BitVec.ofNat 64 x.lmpSum
  | .LMP_PROOF => if d = .la then 0#64 else v
  | .LMP_STG => if x.loopDark (i + 24 * d.num) x.now then Word.setBits v F.LMP_STG_B.hi F.LMP_STG_B.lo 0 else v
  | .LMP_MEAS => if d = .lb then Word.setBits v 47 32 0 else v
  | .PE_STAT => Word.setBits v 9 7 (x.peState i)
  | .ADC_STAT => Word.setBits (Word.setBits v 0 0 (b2n (x.adcBusy i))) 11 11 (b2n (x.capturing i))
  | .ADC_POP => x.popHead i
  | .FC_ACT => BitVec.ofNat 64 (x.active d / 2 ^ (64 * i))
  | .GT_CAP => x.capHead i
  | .CK_STAT => Word.setBits v 0 0 (b2n (x.ckBusy i))
  | .CK_POLY | .CK_INIT | .CK_XOR | .CK_EXP | .CK_RES => BitVec.ofNat 64 (v.toNat % 2 ^ x.ckWidth i)
  | .GT_STAT => Word.setBits v 6 6 (b2n (x.gtRuns i))
  | .PWR_PDDOM => BitVec.ofNat 64 (x.g F.PWR_DOM_STATE (5 + i) + 16 * x.g F.PWR_DOM_STEP (5 + i))
  | .PWR_PDID => BitVec.ofNat 64 (d.num + 256 * (Config.dieRevision (3 + d.num) % 256))
  | .SO_STAT => Word.setBits v 1 0 (x.nodeLevels d i)
  | .SO_CROOK => if x.crookRead = x.now then v else Word.setBits v 2 2 (bitsOf (x.measured d r 0).toNat 2 2)
  | .SO_SENS => BitVec.ofNat 64 (x.nodeLevels d i / 2 + 2 * (x.nodeLevels d i % 2))
  | .LMP_GRP =>
    let mv := bitsOf (x.measured d r i).toNat 15 0
    BitVec.ofNat 64 (mv + 65536 * (b2n (decide (mv < 17000)) + 2 * b2n (decide (31000 < mv))))
  | .SI_CPL => Word.setBits v 15 8 (bitsOf (x.measured d r i).toNat 15 8)
  | .SO_SW => Word.setBits v 31 16 (bitsOf (x.measured d r i).toNat 31 16)
  | .MX_LINE =>
    BitVec.ofNat 64 (b2n (!x.mxShut && x.lineOn i x.now) + 2 * x.g F.MX_LINE_TRIP i + 65536 * bitsOf (x.measured d r i).toNat 31 16)
  | .MX_COL =>
    BitVec.ofNat 64 (b2n (!x.mxShut && x.sinkOn i x.now) + 256 * bitsOf (x.measured d r i).toNat 15 8)
  | .MX_DRVSTAT => Word.setBits v 0 0 (b2n x.mxShut)
  | .ADC_FACT => Config.factoryCoefficient d.num i
  | _ => v

/-- The 32 bytes of a log record (R438). -/
def recBytes (e : LogRec) : List Nat :=
  bytesLE 8 e.time ++ bytesLE 8 e.fold ++ bytesLE 2 e.code ++ bytesLE 2 e.origin ++ bytesLE 10 e.data ++ bytesLE 2 e.seq

/-- An 8-byte word of the log ring. -/
def LogicDie.ringWord (x : LogicDie) (off : Nat) : Word :=
  BitVec.ofNat 64 (ofBytesLE
    (((recBytes (Sparse.get (fun _ => LogRec.zero) x.logRing (off / 32))).drop (off % 32)).take 8))

/-- What a read of the whole register at an address returns (R465): registers, signature buffers (R217), the log ring
(R445); 0 elsewhere. A power-die register whose domain is not ON shows its RWL fields alone; after a lasting control-link
fault the region reads 0 (R470). -/
def LogicDie.busPeek (x : LogicDie) (d : Ch) (a : Nat) : Word :=
  if 0x40024000 ≤ a ∧ a < 0x4002C000 then x.bufGet a
  else if 0x4008C000 ≤ a ∧ a < 0x4009C000 then x.ringWord (a - 0x4008C000)
  else if 0x50000000 ≤ a ∧ x.pw.ctlFail then 0#64
  else
    match regAt d a with
    | none => 0#64
    | some (r, i) =>
      let v := BitVec.ofNat 64 (r.shown (x.view d r i).toNat)
      match pdDomain r with
      | some k => if x.g F.PWR_DOM_STATE k = domOn then v else BitVec.ofNat 64 (rwlPart r v)
      | none => v

/-- The side effects of a read by a party other than the fold task (R9, R277, R292, R431, R445). -/
def LogicDie.busTouch (x : LogicDie) (d : Ch) (a : Nat) : LogicDie :=
  match regAt d a with
  | some (.FOLD_EXEC, _) => x.p F.FOLD_EXEC_MAX 0
  | some (.GT_CAP, i) => x.capPop i
  | some (.ADC_POP, i) => x.popEffect i .companion
  | some (.LOG_STAT, _) => { x with logDropSeen := x.g F.LOG_STAT_DROP }
  | _ => x

/-- The side effects of a fold-task load (R277, R292, R431): the clear of an RC field is held until commit with what the
load returned; for a capture, with the number of its entry. -/
def LogicDie.busLoadFold (x : LogicDie) (d : Ch) (a : Nat) : LogicDie :=
  match regAt d a with
  | some (.FOLD_EXEC, _) => x.holdStore d (.rcClear a (x.rd .FOLD_EXEC))
  | some (.GT_CAP, i) =>
    match x.caps i with
    | [] => x
    | e :: _ => x.holdStore d (.rcClear a (BitVec.ofNat 64 e.1))
  | some (.ADC_POP, i) => x.popEffect i .foldTask
  | some (.LOG_STAT, _) => { x with logDropSeen := x.g F.LOG_STAT_DROP }
  | _ => x

/-- A held clear of an RC register in commit (R292, R431): only of the value, or the entry, that the load returned. -/
def LogicDie.rcClear (x : LogicDie) (d : Ch) (a : Nat) (seen : Word) : LogicDie :=
  match regAt d a with
  | some (.FOLD_EXEC, _) =>
    if x.g F.FOLD_EXEC_MAX = Word.bits seen 55 32 then x.p F.FOLD_EXEC_MAX 0 else x
  | some (.GT_CAP, i) =>
    match x.caps i with
    | [] => x
    | e :: _ => if BitVec.ofNat 64 e.1 = seen then x.capPop i else x
  | _ => x

/-! ### Writes (R9-R12, R465, R467) -/

/-- The companion core may write at an address of the die-register region (R83, R135): not a register of a timer whose CWR
is 0. -/
def LogicDie.compMayWrite (x : LogicDie) (a : Nat) : Bool :=
  if 0x40070100 ≤ a ∧ a < 0x40070500 then x.is F.GT_CFG_CWR ((a - 0x40070100) / 64) else true

/-- The admission check at the FOLD_ lock (R41). -/
def LogicDie.foldLock (x : LogicDie) : LogicDie :=
  let x := x.p F.FOLD_CTRL_LOCK 1
  if x.admits (x.g F.PWR_PL_CUR) then x else x.p F.FOLD_STATUS_CFG_REJECT 1

/-- Folds run where RUN is set, the configuration is admitted and the channel is not safe (R41, R69). -/
def LogicDie.setRun (x : LogicDie) : LogicDie :=
  let x := x.p F.FOLD_CTRL_RUN 1
  if x.is F.FOLD_CTRL_LOCK ∧ ¬ x.is F.FOLD_STATUS_CFG_REJECT ∧ ¬ x.is F.FC_CTRL_SAFE then x.p F.FOLD_STATUS_RUNNING 1
  else x

/-- A write that follows the field types alone. -/
def LogicDie.plainWrite (x : LogicDie) (r : Reg) (i : Nat) (v : Word) : LogicDie :=
  x.wr r i (BitVec.ofNat 64 (applyFields r (x.locked r) (x.rd r i).toNat v.toNat))

/-- What a write of a register does where its block states more than the field types; the write is no access error. -/
def LogicDie.blockWrite (x : LogicDie) (d : Ch) (p : Party) (r : Reg) (i : Nat) (v : Word) : LogicDie :=
  let b := fun (f : Fld) => Word.bits v f.hi f.lo
  match r with
  | .FOLD_CTRL =>
    let x := if b F.FOLD_CTRL_LOCK = 1 ∧ ¬ x.is F.FOLD_CTRL_LOCK then x.foldLock else x
    if b F.FOLD_CTRL_RUN = 1 ∧ ¬ x.is F.FOLD_CTRL_RUN then x.setRun else x
  | .PWR_PL => (x.plainWrite .PWR_PL 0 v).levelWrite v
  | .SI_CTRL => if b F.SI_CTRL_LOCK = 1 ∧ ¬ x.is F.SI_CTRL_LOCK then x.siLock d else x
  | .PE_CTRL =>
    let x := (List.range 8).foldl (fun x e => (x.peSetRun e ((b F.PE_CTRL_RUN).testBit e)).setB F.PE_CTRL_PAUSE e
      ((b F.PE_CTRL_PAUSE).testBit e)) x
    (x.p F.PE_CTRL_SWAP (Nat.lor (x.g F.PE_CTRL_SWAP) (b F.PE_CTRL_SWAP))).p F.PE_CTRL_FSWAP
      (Nat.lor (x.g F.PE_CTRL_FSWAP) (b F.PE_CTRL_FSWAP))
  | .MX_CTRL =>
    let x := if b F.MX_CTRL_FLIP = 1 then x.p F.MX_CTRL_FLIP 1 else x
    x.mxEnable (b F.MX_CTRL_EN == 1)
  | .PE_PROG => (x.plainWrite r i v).peWrote (i / 32) i (x.rd r i) p
  | .MX_CFG => x.mxWriteCfg d p v
  | .ADC_CTRL =>
    let x := if x.is F.ADC_CTRL_LOCK then x else x.p F.ADC_CTRL_CALEN (b F.ADC_CTRL_CALEN)
    let x := x.setRefen (b F.ADC_CTRL_REFEN == 1)
    if b F.ADC_CTRL_LOCK = 1 ∧ ¬ x.is F.ADC_CTRL_LOCK then x.adcLock else x
  | .ADC_SWTRIG => x.swTrig (b F.ADC_SWTRIG_TRIG)
  | .ADC_URG =>
    x.writeUrg (b F.ADC_URG_REQ0 == 1) (b F.ADC_URG_ENTRY0) (b F.ADC_URG_REQ1 == 1) (b F.ADC_URG_ENTRY1)
  | .ADC_CALCMD => x.calCommand d (b F.ADC_CALCMD_CONV) (b F.ADC_CALCMD_SLOT) (b F.ADC_CALCMD_OP) p
  | .FC_FORCE | .FC_FORCEW =>
    let f := x.freeWord d
    f.2.force d (r == .FC_FORCEW) i v.toNat (f.1.toNat % 2 ^ 48)
  | .GT_CTRL =>
    let x := if b F.GT_CTRL_LOCK = 1 ∧ ¬ x.is F.GT_CTRL_LOCK then x.gtLock else x
    (List.range 16).foldl (fun x n => if (b F.GT_CTRL_SNAP).testBit n then x.gtSnap n else x) x
  | .GT_CMP0 | .GT_CMP1 => x.gtWriteCmp r i v.toNat
  | .GT_CNT => x.setCount i v.toNat
  | .CK_POLY | .CK_INIT | .CK_XOR | .CK_EXP => x.ckWidthWrite r i v
  | .CK_OWN => x.ckWriteOwner d p i (b F.CK_OWN_OWNER)
  | .CK_DMA =>
    let x := (x.p F.CK_DMA_ADDR (b F.CK_DMA_ADDR) i).p F.CK_DMA_LEN (b F.CK_DMA_LEN) i
    if b F.CK_DMA_GO = 1 then x.ckGo d (ckCode p) i else x
  | .BIST_REP => x.softRepair d (i / 12) (i % 12) (b F.BIST_REP_LANE) (b F.BIST_REP_VALID == 1) p
  | _ => x.plainWrite r i v

/-- An 8-byte write at an address is an access error (R10, R465): no register, a reserved bit set, no field that accepts a
write, or a rule of the block: PWR_PL (R387), an active pattern bank or a running engine's configuration (R254, R267), a
matrix field out of range or the front buffer (R263), ADC_CALCMD without CALEN (R284), force bits (R304), an active tally
list (R365), check-value units of others and CK3 (R434, R435), repair entries (R459). The signature references are written
by everyone but the fold task (R217). -/
def LogicDie.busDenies (x : LogicDie) (d : Ch) (p : Party) (a : Nat) (v : Word) : Bool :=
  match regAt d a with
  | none => !(decide (0x40024000 ≤ a) && decide (a < 0x40028000) && p != .foldTask)
  | some (r, i) =>
    decide (Nat.land v.toNat r.reserved ≠ 0) || !r.writable (x.locked r) ||
    match r with
    | .PWR_PL => p != .foldTask && p != .boot
    | .PE_CFG => x.bit F.PE_CTRL_RUN i
    | .PE_PROG => p != .boot && x.g F.PE_STAT_BANK (i / 32) == i / 16 % 2
    | .MX_CFG => !mxCfgOk v
    | .MX_FB => x.g F.MX_CTRL_FRONT == i / 64
    | .ADC_CALCMD => !x.is F.ADC_CTRL_CALEN
    | .FC_FORCE | .FC_FORCEW => !x.forceAllowed p
    | .VCT_TLIST => x.is F.VCT_CTRL_TLACT
    | .CK_OWN | .CK_STAT => decide (3 ≤ i)
    | .CK_CFG | .CK_POLY | .CK_INIT | .CK_XOR | .CK_EXP | .CK_DMA =>
      !x.ckOwned (ckCode p) i || ckCode p == 0 || x.ckBusy i
    | .BIST_REP => decide (i / 12 < 4) || !segWrites d (i / 12) || x.is F.BIST_CTRL_LOCK
    | _ => false

/-- The order in which writes of one cycle apply (R466): a companion store, a HOST_REQ or DEBUG_REQ write, a fold-task
store. -/
def partyRank : Party → Nat
  | .foldTask => 2
  | .hostReq | .debug => 1
  | _ => 0

/-- A write `v` of register r beside the writes of this instant by parties that come after its own (R466): of RW, RWF
and RWL fields theirs stand. -/
def LogicDie.ordered (x : LogicDie) (r : Reg) (a : Nat) (p : Party) (v : Word) : Word :=
  match x.posts.find? (fun w => w.2.1 == a && decide (partyRank p < partyRank w.1)) with
  | none => v
  | some w => r.layout.fields.foldl (fun v f =>
      if f.acc == .rw || f.acc == .rwf || f.acc == .rwl then Word.setBits v f.hi f.lo (Word.bits w.2.2 f.hi f.lo) else v) v

/-- The W1C bits that a write `v` clears although hardware has set them at this instant (R13). -/
def LogicDie.setByHw (x : LogicDie) (r : Reg) (i : Nat) (v : Word) : Word :=
  let was := { x with regs := x.before }.rd r i
  BitVec.ofNat 64 (coincident r (x.rd r i).toNat v.toNat (x.rd r i &&& ~~~ was).toNat)

/-- A write of a register of a logic die (R10, R465): a narrow or misplaced write, and one that is an access error, is
discarded whole. A write of a signature reference leaves SO_SIGSTAT.REF (DESIGN CHOICE, log 134). Writes of one
instant apply in the order of R466, and a W1C bit that hardware set at this instant stays (R13). The instructions of
the companion core carry no instant: their stores apply as they come (DESIGN CHOICE, log 159). -/
def LogicDie.busPost (x : LogicDie) (d : Ch) (p : Party) (a width : Nat) (v : Word) : LogicDie :=
  if width ≠ 8 ∨ a % 8 ≠ 0 ∨ x.busDenies d p a v then x.accessError d p a
  else
    match regAt d a with
    | none => x.bufPut a v
    | some (r, i) =>
      let kept := if partyRank p = 0 then 0#64 else x.setByHw r i v
      let y := x.blockWrite d p r i (if p = .companion then v else x.ordered r a p v)
      let y := if kept = 0#64 then y else y.wr r i (y.rd r i ||| kept)
      { y with posts := (p, a, v) :: y.posts }

end Sys2Proof.Machine
end

