-- ==== Sys2Proof/Machine/Flags.lean ====
section
/-! DEFINITION. The interrupt lines of the companion core (R104): which findings and events make each line pending. -/

namespace Sys2Proof.Machine

/-- Line `l` of the companion core is pending (R104 and the chapter of each source). -/
def LogicDie.irqLine (x : LogicDie) (l : Nat) : Bool :=
  let any := fun (n : Nat) (f : Nat → Bool) => (List.range n).any f
  if l < 8 then false
  else if l = 8 then Nat.land (x.g F.SI_CHG_BITS) (x.g F.SI_IRQEN_BITS) != 0
  else if l = 9 then x.tpSum != 0
  else if l = 10 then x.soSum != 0
  else if l = 11 then x.sigDone
  else if l = 12 then
    x.lmpSum != 0 || x.g F.LMP_NBSHORT_PAIRS != 0 || any 8 (fun k => bitsOf (x.rd .LMP_OSSTAT k).toNat 35 33 != 0)
  else if l = 13 then any 8 (fun e => x.is F.PE_STAT_ILL e || x.is F.PE_STAT_ABORT e)
  else if l = 14 then (x.rd .MX_STAT).toNat != 0 || x.g F.MX_NBSHORT_PAIRS != 0
  else if l < 17 then
    let c := l - 15
    x.g F.ADC_CFG_QTHR c != 0 && decide (x.g F.ADC_CFG_QTHR c ≤ (x.adc c).queue.length)
  else if l = 17 then
    any 2 (fun c => x.is F.ADC_STAT_TRIGMISS c || x.is F.ADC_STAT_URGMISS c || x.is F.ADC_STAT_RETEVT c ||
      x.is F.ADC_QSTAT_OVF c)
  else if l = 18 then any 8 (fun k => x.g F.FC_SEEN_BITS k != 0)
  else if l = 19 then x.g F.VCT_EVT_EVT != 0
  else if l < 36 then
    let n := l - 20
    x.bit F.GT_IEN_IEN n &&
      (x.is F.GT_STAT_M0 n || x.is F.GT_STAT_M1 n || x.is F.GT_STAT_OVF n || !(x.caps n).isEmpty)
  else if l < 40 then x.is F.CK_STAT_DONE (l - 36) || x.is F.CK_STAT_MIS (l - 36)
  else if l = 40 then x.g F.LOG_STAT_DROP != x.logDropSeen
  else false

/-- IRQ_PENDING: the pending lines as a number. -/
def LogicDie.irqLines (x : LogicDie) : Nat :=
  (List.range 64).foldl (fun v l => v + b2n (x.irqLine l) * 2 ^ l) 0

end Sys2Proof.Machine
end

