-- ==== Sys2Proof/Machine/Operands.lean ====
section
/-! DEFINITION. Operand forms of the Evpeal instructions: general registers (R73), the address regions and their rights
(R83, R88, R92), alignment (R85), the stack bound (R99), ECC at an access (R86), journaled stores (R42, R43), held
register stores (R127), and the coded safe word (R77-R79). -/

namespace Sys2Proof.Machine

/-- The class code of R108. -/
def TrapClass.code : TrapClass → Nat
  | .illegal => 1
  | .scode => 2
  | .memecc => 3
  | .align => 4
  | .budget => 5
  | .stack => 6
  | .looplim => 7
  | .priv => 8

/-- A trap without a data address. -/
def Trap.plain (c : TrapClass) : Trap := ⟨c, 0, 0, 0⟩

/-- A trap of the access at a data address. -/
def Trap.atAddr (c : TrapClass) (a : Nat) : Trap := ⟨c, a, 0, a⟩

/-- What one instruction does to its die: it completes and runs on at the next address, completes with an access error
at an address (R81), completes and continues at another address, or traps. -/
inductive Op where
  | done (x : LogicDie)
  | denied (x : LogicDie) (addr : Nat)
  | jump (x : LogicDie) (target : Nat)
  | trap (t : Trap)

/-! ### General registers (R73) -/

/-- A general register of the executing role; w0 reads 0. -/
def LogicDie.w (x : LogicDie) (companion : Bool) (r : Fin 32) : Word :=
  if r.val = 0 then 0#64
  else Sparse.get (fun _ => 0#64) (if companion then x.comp.w else x.core.w) r.val

/-- Write a general register of the executing role; a write to w0 is discarded. -/
def LogicDie.setW (x : LogicDie) (companion : Bool) (r : Fin 32) (v : Word) : LogicDie :=
  if r.val = 0 then x
  else if companion then { x with comp := { x.comp with w := Sparse.put (fun _ => 0#64) x.comp.w r.val v } }
  else { x with core := { x.core with w := Sparse.put (fun _ => 0#64) x.core.w r.val v } }

/-! ### Address regions (R83, R464) -/

/-- The regions of the logic-die map. -/
inductive Region where
  | code | compCode | data | compData | inImage | outImage | sharedFold | sharedComp | slots | dieRegs | pdRegs | xview
  | unmapped
  deriving DecidableEq, Repr

/-- The region that holds an address. -/
def LogicDie.region (x : LogicDie) (a : Nat) : Region :=
  if a < x.hdr.codeSplit ∧ a < 0x800000 then .code
  else if a < 0x800000 then .compCode
  else if 0x10000000 ≤ a ∧ a < x.hdr.dataSplit ∧ a < 0x10400000 then .data
  else if 0x10000000 ≤ a ∧ a < 0x10400000 then .compData
  else if 0x20000000 ≤ a ∧ a < 0x20001000 then .inImage
  else if 0x20001000 ≤ a ∧ a < 0x20002000 then .outImage
  else if 0x20002000 ≤ a ∧ a < 0x20002800 then .sharedFold
  else if 0x20002800 ≤ a ∧ a < 0x20003000 then .sharedComp
  else if 0x30000000 ≤ a ∧ a < 0x30010000 then .slots
  else if 0x40000000 ≤ a ∧ a < 0x41000000 then .dieRegs
  else if 0x50000000 ≤ a ∧ a < 0x50100000 then .pdRegs
  else if 0x60000000 ≤ a ∧ a < 0x60002000 then .xview
  else .unmapped

/-- The region is one of registers. -/
def Region.isRegs (r : Region) : Bool := r == .dieRegs || r == .pdRegs

/-- The role may load from a region (R83). -/
def mayLoad (companion : Bool) : Region → Bool
  | .code => !companion
  | .compCode => companion
  | .compData => companion
  | .unmapped => false
  | _ => true

/-- The fold task may store at an address of a region (R83, R88, R92): output image words 0x000 and 0x008, and USER of a
slot. -/
def foldMayStore (r : Region) (a : Nat) : Bool :=
  match r with
  | .data | .sharedFold | .dieRegs | .pdRegs => true
  | .outImage => decide (a < 0x20001010)
  | .slots => decide (a % 64 ≥ 0x38)
  | _ => false

/-- The companion core may store at an address of a region (R83): die registers as each block permits. -/
def LogicDie.compMayStore (x : LogicDie) (r : Region) (a : Nat) : Bool :=
  match r with
  | .compData | .sharedComp => true
  | .dieRegs => x.compMayWrite a
  | _ => false

/-- A region that the fold task writes (R105). -/
def foldWrites : Region → Bool
  | .data | .outImage | .sharedFold | .slots | .dieRegs | .pdRegs => true
  | _ => false

/-- R85: the access is misaligned for its width, or a narrow store into a safe word of the output image. -/
def misaligned (store : Bool) (a width : Nat) : Bool :=
  a % width != 0 || (store && decide (0x20001000 ≤ a) && decide (a < 0x20001010) && width != 8)

/-- R99: an access whose base is w31 leaves the stack of the executing role. -/
def LogicDie.offStack (x : LogicDie) (companion : Bool) (base : Fin 32) (a width : Nat) : Bool :=
  base.val == 31 &&
    (if companion then decide (a < x.comp.spLo.toNat) || decide (x.comp.spHi.toNat < a + width)
     else decide (a < x.hdr.spLo) || decide (x.hdr.spHi < a + width))

/-- The memory of R311 that serves a region, if one does. The crosslink view is filled from frames and has none
(DESIGN CHOICE, log 8). -/
def Region.memory : Region → Option Nat
  | .code | .compCode => some 0
  | .data | .compData => some 1
  | .inImage | .outImage | .sharedFold | .sharedComp => some 6
  | .slots => some 7
  | _ => none

/-- A region that the data caches hold (R118). -/
def Region.cached : Region → Bool
  | .data | .compData => true
  | _ => false

/-! ### The pipeline of the fold task (R117-R119) -/

/-- The bytes of a cache line and the ways of a set (R21, R117). -/
def lineBytes : Ch → Nat
  | .la => 64
  | .lb => 32

def cacheWays : Ch → Nat
  | .la => 4
  | .lb => 2

/-- An empty set of a cache. -/
def CacheSet.empty : CacheSet := ⟨[], [], 0⟩

/-- The set of a 32 KiB cache that an address falls into, and its tag. -/
def cacheSet (d : Ch) (a : Nat) : Nat := a / lineBytes d % (32768 / (lineBytes d * cacheWays d))

def cacheTag (d : Ch) (a : Nat) : Nat := a / lineBytes d / (32768 / (lineBytes d * cacheWays d))

/-- An access finds its line in a cache. -/
def cacheHit (d : Ch) (m : Sparse CacheSet) (a : Nat) : Bool :=
  (Sparse.get (fun _ => CacheSet.empty) m (cacheSet d a)).tags.contains (cacheTag d a)

/-- The way of a full set that a miss replaces (R21): round robin on LB; on LA one of the three ways not used last. -/
def CacheSet.victim (q : CacheSet) : Ch → Nat
  | .la => q.used.tail.getD (Config.pseudoLru q.used % 3) 0
  | .lb => q.next

/-- A set after an access to the line with a tag: an invalid way is filled first. -/
def CacheSet.touch (q : CacheSet) (d : Ch) (tag : Nat) : CacheSet :=
  match q.tags.findIdx? (fun u => u == tag) with
  | some w => { q with used := w :: q.used.erase w }
  | none =>
    if q.tags.length < cacheWays d then
      ⟨q.tags ++ [tag], q.tags.length :: q.used, (q.next + 1) % cacheWays d⟩
    else
      let w := q.victim d
      ⟨q.tags.set w tag, w :: q.used.erase w, (q.next + 1) % cacheWays d⟩

/-- A cache after an access. -/
def cacheTouch (d : Ch) (m : Sparse CacheSet) (a : Nat) : Sparse CacheSet :=
  Sparse.put (fun _ => CacheSet.empty) m (cacheSet d a)
    ((Sparse.get (fun _ => CacheSet.empty) m (cacheSet d a)).touch d (cacheTag d a))

/-- The cycles of a form on its die. -/
def cyc (d : Ch) (la lb : Nat) : Nat := match d with | .la => la | .lb => lb

/-- The attempt spends cycles. -/
def LogicDie.spend (x : LogicDie) (n : Nat) : LogicDie := { x with core := { x.core with cycles := x.core.cycles + n } }

/-- The line of the instruction at `a` is fetched (R117): a miss of the instruction cache adds its cycles. -/
def LogicDie.fetchLine (x : LogicDie) (d : Ch) (a : Nat) : LogicDie :=
  let y := if cacheHit d x.pipe.icache a then x else x.spend (cyc d 14 11)
  { y with pipe := { y.pipe with icache := cacheTouch d x.pipe.icache a } }

/-- The line of a load at `a` is read (R117). -/
def LogicDie.loadLine (x : LogicDie) (d : Ch) (a : Nat) : LogicDie :=
  let y := if cacheHit d x.pipe.dcache a then x else x.spend (cyc d 14 11)
  { y with pipe := { y.pipe with dcache := cacheTouch d x.pipe.dcache a } }

/-- The cycle from which a register is usable (R117). -/
def PipeSt.readyAt (p : PipeSt) (r : Fin 32) : Nat :=
  match p.ready.find? (fun e => e.1 == r.val) with
  | some e => e.2
  | none => 0

/-- An instruction waits for its source registers; its destination no longer waits for an earlier producer (R117). -/
def LogicDie.await (x : LogicDie) (srcs dst : List (Fin 32)) : LogicDie :=
  { x with
    core := { x.core with cycles := srcs.foldl (fun n r => max n (x.pipe.readyAt r)) x.core.cycles }
    pipe := { x.pipe with ready := x.pipe.ready.filter (fun e => !(dst.map Fin.val).contains e.1) } }

/-- The value of a register is usable `n` cycles after this instruction's issue (R117). -/
def LogicDie.usableIn (x : LogicDie) (r : Fin 32) (n : Nat) : LogicDie :=
  if r.val = 0 then x else { x with pipe := { x.pipe with ready := (r.val, x.core.cycles + n) :: x.pipe.ready } }

/-- The core clock in MHz at the level in force (R386). -/
def LogicDie.coreMHz (x : LogicDie) : Nat :=
  match x.g F.PWR_PL_CUR with
  | 0 => 250
  | 1 => 500
  | 2 => 800
  | _ => 1000

/-- The load latency of a region (R118); times in ns are rounded up to whole cycles. -/
def LogicDie.latency (x : LogicDie) (d : Ch) : Region → Nat
  | .xview => cyc d 5 6
  | .code | .compCode => cyc d 6 7
  | .dieRegs => cyc d 8 10
  | .pdRegs => cyc d 8 10 + (420 * x.coreMHz + 999) / 1000
  | _ => cyc d 2 3

/-- A load of the fold task has its value: a blocking one holds every later instruction, another only those that use
it (R118). -/
def LogicDie.loaded (x : LogicDie) (d : Ch) (r : Region) (wd : Fin 32) : LogicDie :=
  match r with
  | .dieRegs | .pdRegs => x.spend (x.latency d r - 1)
  | _ => x.usableIn wd (x.latency d r)

/-- A store enters the store buffer, which it holds for `n` cycles of the store path; into a full buffer it waits
until one entry has drained (R119). While stores follow one after another into a buffer that is not full, it does not
drain: such a run fills LA's buffer after its first 4 stores (DEDUCED, log 160). -/
def LogicDie.enterBuffer (x : LogicDie) (d : Ch) (n : Nat) : LogicDie :=
  let b := x.pipe.buf.filter (fun e => decide (x.core.cycles < e))
  let free := decide (b.length < cyc d 4 6)
  let run := x.pipe.lastStore.any (fun l => l + 1 == x.core.cycles)
  let now := if free then x.core.cycles else b.headD 0
  let b := if free then (if run then b.map (· + 1) else b) else b.tail
  { x with
    core := { x.core with cycles := now }
    pipe := { x.pipe with lastStore := some now, buf := b ++ [max now (b.getLast?.getD 0) + n] } }

/-! ### ECC (R86) -/

/-- The memory that a finding names (R311): the cache, where the word stood in a line of it (DESIGN CHOICE, log 8). -/
def findingMem (f : Finding) (inCache : Bool) (cache m : Nat) : Nat := if f.cached && inCache then cache else m

/-- The cycles that a re-read adds (R86): a cache-miss adder in a cached region, the load latency elsewhere. -/
def LogicDie.rereadCycles (x : LogicDie) (d : Ch) (r : Region) : Nat := if r.cached then cyc d 14 11 else x.latency d r

/-- What ECC found at a read of memory `m` (R86): a corrected bit is counted; a re-read that succeeds is counted, logged
(code 0x0002) and raises source 16 + 2m, and its cycles add to the attempt. -/
def LogicDie.eccSeen (x : LogicDie) (d : Ch) (e : Ecc) (m a : Nat) (cyc : Nat) (companion : Bool) : LogicDie :=
  match e with
  | .clean => x
  | .lasting => x
  | .corrected => x.count F.FC_ECCCNT_CORR
  | .reread =>
    let x := x.count F.FC_ECCCNT_REREAD
    let x := if companion then x else x.spend cyc
    let x := x.log d x.now x.recFold 0x0002 0 (a % 2 ^ 32 + m * 2 ^ 32)
    x.raise d (16 + 2 * m) a

/-! ### Loads -/

/-- The bytes that a load of the executing role reads: committed copies for the companion core (R91), the frozen
companion half for the fold task (R90), the crosslink view (R35), registers through the bus (R465). -/
def LogicDie.loadBytes (x : LogicDie) (d : Ch) (companion : Bool) (r : Region) (a width : Nat) : Nat :=
  match r with
  | .inImage | .outImage | .sharedFold => readLE (if companion then x.memC else x.mem) a width
  | .sharedComp => readLE (if companion then x.mem else x.memF) a width
  | .xview => readLE x.xview (a - 0x40000000) width
  | .dieRegs | .pdRegs =>
    bitsOf (x.busPeek d (a - a % 8)).toNat (8 * (a % 8) + 8 * width - 1) (8 * (a % 8))
  | _ => readLE x.mem a width

/-- The side effects of a register load: at once on the companion core, held until commit in the fold task (R292). -/
def LogicDie.loadEffect (x : LogicDie) (d : Ch) (companion : Bool) (r : Region) (a : Nat) : LogicDie :=
  match r with
  | .dieRegs | .pdRegs =>
    if companion then x.busTouch d (a - a % 8) else x.busLoadFold d (a - a % 8)
  | _ => x

/-- The memory that a finding of a load names (R311): the data cache where the line stood in it. -/
def LogicDie.loadMem (x : LogicDie) (c : Ctx) (f : Finding) (a m : Nat) : Nat :=
  findingMem f ((x.region a).cached && (c.companion || cacheHit c.die x.pipe.dcache a)) 3 m

/-- A load of the executing role has read its line: the data cache of the fold task follows (R117). -/
def LogicDie.readLine (x : LogicDie) (c : Ctx) (a : Nat) : LogicDie :=
  if !c.companion && (x.region a).cached then x.loadLine c.die a else x

/-- One load of the executing role (R83, R85, R86, R99, R503) with what ECC finds: the traps in order, then the value. -/
def LogicDie.load (x : LogicDie) (c : Ctx) (f : Finding) (base : Fin 32) (a width : Nat) : Trap ⊕ (LogicDie × Nat) :=
  let r := x.region a
  if ¬ mayLoad c.companion r then .inl (Trap.atAddr .priv a)
  else if misaligned false a width then .inl (Trap.atAddr .align a)
  else if x.offStack c.companion base a width then .inl (Trap.atAddr .stack a)
  else
    match r.memory, f.kind with
    | some m, .lasting => .inl ⟨.memecc, a, x.loadMem c f a m, a⟩
    | some m, e =>
      .inr ((x.readLine c a).eccSeen c.die e (x.loadMem c f a m) a (x.rereadCycles c.die r) c.companion,
        x.loadBytes c.die c.companion r a width)
    | none, _ => .inr (x.loadEffect c.die c.companion r a, x.loadBytes c.die c.companion r a width)

/-! ### Stores -/

/-- A store of the attempt still enters the journal (R43). -/
def LogicDie.journals (x : LogicDie) : Bool := !x.core.jovf && decide (x.core.journal.length < x.g F.FOLD_BUDGET_JLIMIT)

/-- A journaled store of the fold task (R42, R43): one entry per 8-byte word until JLIMIT entries; past it the journal
stops and JOVF is set. -/
def LogicDie.journalStore (x : LogicDie) (a width v : Nat) : LogicDie :=
  let wa := a - a % 8
  let x :=
    if x.core.jovf then x
    else if x.core.journal.length < x.g F.FOLD_BUDGET_JLIMIT then
      { x with core := { x.core with journal := ⟨wa, x.ld64 wa⟩ :: x.core.journal } }
    else { x.p F.FOLD_STATUS_JOVF 1 with core := { x.core with jovf := true } }
  x.poke a width v

/-- A journaled store of a whole word. -/
def LogicDie.journal64 (x : LogicDie) (a : Nat) (v : Word) : LogicDie := x.journalStore a 8 v.toNat

/-- The cycles for which a store of the fold task holds the store path (R118). -/
def LogicDie.storePath (x : LogicDie) : Nat := if x.journals then 2 else 1

/-- An instruction that writes one word of the output image stores it as any store does (R118, R119). -/
def LogicDie.imageStore (x : LogicDie) (d : Ch) (a : Nat) (v : Word) : LogicDie := (x.enterBuffer d x.storePath).journal64 a v

/-- A companion store to its half of the shared page (R90): what it replaces is kept for a freeze in the same cycle. -/
def LogicDie.shareStore (x : LogicDie) (a width : Nat) (v : Word) : LogicDie :=
  let wa := a - a % 8
  let e : JEntry := ⟨wa, x.ld64 wa⟩
  { x with comp := { x.comp with
      sharedAt := x.now
      sharedOld := if x.comp.sharedAt = x.now then e :: x.comp.sharedOld else [e] } }.poke a width v.toNat

/-- One store of the executing role (R78, R83, R85, R94, R99, R503). A fold-task store to registers is held; other
fold-task stores are journaled; a companion register store is posted. -/
def LogicDie.store (x : LogicDie) (c : Ctx) (base : Fin 32) (a width : Nat) (v : Word) : Trap ⊕ LogicDie :=
  let r := x.region a
  let ok := if c.companion then x.compMayStore r a else foldMayStore r a
  if ¬ ok then .inl (Trap.atAddr .priv a)
  else if misaligned true a width then .inl (Trap.atAddr .align a)
  else if x.offStack c.companion base a width then .inl (Trap.atAddr .stack a)
  else
    match r with
    | .outImage =>
      if safeValid v then .inr ((x.enterBuffer c.die x.storePath).journalStore a width v.toNat) else .inl (Trap.atAddr .scode a)
    | .dieRegs | .pdRegs =>
      if c.companion then .inr (x.busPost c.die .companion a width v)
      else .inr ((x.enterBuffer c.die 1).holdStore c.die (.store a width v))
    | .sharedComp => .inr (x.shareStore a width v)
    | _ =>
      if c.companion then .inr (x.poke a width v.toNat)
      else .inr ((x.enterBuffer c.die x.storePath).journalStore a width v.toNat)

end Sys2Proof.Machine
end

