-- ==== Sys2Proof/Machine/EvCore.lean ====
section
/-! DEFINITION. How a core runs one Evpeal instruction: fetch traps, ILLEGAL, roles (R106, R116), the cycle budget (R100,
R117), the loop rule after an instruction (R125), traps of the fold task with retry (R108-R111, R293, R506) and of the
companion core (R105), interrupts (R104). -/

namespace Sys2Proof.Machine

/-- Where an instruction may run (R116). -/
inductive Role where
  | foldOnly | compOnly | both
  deriving DecidableEq, Repr

/-- The fold task's budget in cycles. -/
def LogicDie.budget (x : LogicDie) : Nat := x.g F.FOLD_BUDGET_BUDGET

/-- Core c of a logic die is halted by the debugger (R413, R414). -/
def LogicDie.coreHalted (x : LogicDie) (c : Nat) : Bool := x.bit F.DBG_STAT_HALTED c

/-- The attempt of a running fold may execute: it is in progress, awaits no compare of its end, and its cores are not
halted. -/
def LogicDie.foldRuns (x : LogicDie) : Bool :=
  x.core.running && x.core.ending.isNone && !x.coreHalted 0 && !x.coreHalted 1

/-- Window compare mode (R288); in triad mode voting stands in its place (R294). -/
def LogicDie.windowMode (x : LogicDie) : Bool := x.is F.FC_LSCFG_MODE && !x.hdr.triad

/-- An enabled interrupt line of the companion core is pending (R104). -/
def LogicDie.lineReady (x : LogicDie) : Bool := Nat.land x.irqLines x.comp.irqEnable.toNat != 0

/-- The companion core executes: native mode, LA_CORE ON (R384), started, not waiting in WAITEV without a line (R104),
and not halted but for the one instruction of a debug STEP (R413). -/
def LogicDie.compRuns (x : LogicDie) : Bool :=
  !x.hdr.triad && x.comp.on && x.g F.PWR_DOM_STATE 0 == domOn && (!x.comp.waiting || x.lineReady) && (!x.coreHalted 2 || x.comp.stepping)

/-- The loop rule of R125 after a fold-task instruction at `a` with successor `n` (loop exits of nested levels). -/
def loopExit (d n : Nat) : List LoopLevel → List LoopLevel
  | [] => []
  | v :: vs => if v.depth = d ∧ (n < v.start ∨ v.last < n) then loopExit d n vs else v :: vs

/-- The loop rule of R125: the back edge, or the end of levels that the successor leaves. -/
def loopRule (d a n : Nat) (ls : List LoopLevel) : List LoopLevel × Nat :=
  match ls with
  | v :: vs =>
    if v.depth = d ∧ a = v.last ∧ n = a + 4 ∧ v.left > 1 then ({ v with left := v.left - 1 } :: vs, v.start)
    else (loopExit d n (v :: vs), n)
  | [] => ([], n)

/-- A fold-task instruction of `cyc` cycles at `a` retires with successor `n`. On LB a back edge takes one cycle more
(R117). -/
def LogicDie.retire (x : LogicDie) (d : Ch) (a n cyc : Nat) : LogicDie :=
  let r := loopRule x.core.callDepth a n x.core.loops
  let back := if d = .lb ∧ n = a + 4 ∧ r.2 ≠ n then 1 else 0
  { x with core := { x.core with loops := r.1, pc := r.2, cycles := x.core.cycles + cyc + back } }

/-! ### Traps of the fold task -/

/-- The trap registers (R80, R108). -/
def LogicDie.recordTrap (x : LogicDie) (t : Trap) : LogicDie :=
  { x with core := { x.core with
      trapCause := BitVec.ofNat 64 (t.cls.code + x.core.attempt * 2 ^ 8 + (x.recFold % 2 ^ 55) * 2 ^ 9)
      trapPc := BitVec.ofNat 64 x.core.pc
      trapAddr := BitVec.ofNat 64 t.addr } }

/-- The DETAIL of a fold-task trap source: class and TRAP_PC [31:0] (R311). -/
def LogicDie.trapDetail (x : LogicDie) (code : Nat) : Nat := code + (x.core.trapPc.toNat % 2 ^ 32) * 2 ^ 4

/-- The fold-task trap is lasting (R108, R293, R506): source 6, with source 17 + 2m of the memory for MEMECC; the channel
goes safe. -/
def LogicDie.trapLasting (x : LogicDie) (d : Ch) (t : Trap) : LogicDie :=
  let e6 : FcEvent := ⟨6, x.trapDetail t.cls.code, none, false, false⟩
  if t.cls = .memecc then x.raiseAll d [e6, ⟨17 + 2 * t.mem, t.word, none, false, false⟩]
  else x.raiseAll d [e6]

/-- The first attempt ends in a way that a retry may mend (R109, R291): the cores halt, the held effects are discarded,
and the rollback starts. -/
def LogicDie.startRollback (x : LogicDie) (cause : Nat) : LogicDie :=
  { x with core := { x.core.discard with
      running := false, ending := none, rolling := true, firstCause := cause, firstCycles := x.core.cycles } }

/-- The reaction to a recorded fold-task trap (R108-R110): it ends the attempt; with JOVF set, or of class MEMECC, the
channel goes safe; on the first attempt the rollback starts; on the retry BUDGET leaves the fold to be missed and any
other class puts the channel safe. -/
def LogicDie.trapEnds (x : LogicDie) (d : Ch) (t : Trap) : LogicDie :=
  let x := { x with core := { x.core with running := false, ending := none } }
  if x.core.jovf then x.trapLasting d t
  else if t.cls = .memecc then x.trapLasting d t
  else if x.core.attempt = 0 then x.startRollback t.cls.code
  else if t.cls = .budget then { x with core := x.core.discard }
  else x.trapLasting d t

/-- A fold-task trap (R108, R288): its cause is recorded and its reaction follows, in window compare mode after the
compare of the signatures. -/
def LogicDie.foldTrap (x : LogicDie) (d : Ch) (t : Trap) : LogicDie :=
  let x := x.recordTrap t
  if x.windowMode then { x with core := { x.core with ending := some (.trap t) } } else x.trapEnds d t

/-! ### Traps and interrupts of the companion core -/

/-- Enter a companion handler (R104, R105): EPC, ECAUSE, IE to PIE and cleared, and the vector. -/
def LogicDie.compEnter (x : LogicDie) (epc cause target : Nat) : LogicDie :=
  { x with comp := { x.comp with
      epc := BitVec.ofNat 64 epc
      ecause := BitVec.ofNat 64 cause
      estatus := BitVec.ofNat 64 (2 * Word.bits x.comp.estatus 0 0)
      pc := target
      waiting := false } }

/-- A companion trap (R105, R506): it continues at TRAP_VBASE + 8 × class code; a PRIV trap on a store to a region that
the fold task writes also raises source 7, a MEMECC trap source 17 + 2m. -/
def LogicDie.compTrap (x : LogicDie) (d : Ch) (t : Trap) (store : Bool) : LogicDie :=
  let x := x.compEnter x.comp.pc (0x80 + t.cls.code) ((x.comp.trapVbase.toNat + 8 * t.cls.code) % 2 ^ 64)
  let x := { x with comp := { x.comp with eaddr := BitVec.ofNat 64 t.addr } }
  let x := if t.cls = .priv ∧ store ∧ foldWrites (x.region t.addr) then x.raise d 7 (t.addr % 2 ^ 32) else x
  if t.cls = .memecc then x.raise d (17 + 2 * t.mem) t.word else x

/-! ### One instruction -/

/-- The fetch traps of the fold task (R83, R86, R311, R503). -/
def LogicDie.foldFetch (x : LogicDie) (c : Ctx) : Option Trap :=
  if x.region x.core.pc ≠ .code then some (Trap.plain .priv)
  else if c.fetch.kind = .lasting then
    some ⟨.memecc, 0, findingMem c.fetch (cacheHit c.die x.pipe.icache x.core.pc) 2 0, x.core.pc⟩
  else none

/-- The fetch traps of the companion core. -/
def LogicDie.compFetch (x : LogicDie) (c : Ctx) : Option Trap :=
  if x.region x.comp.pc ≠ .compCode then some (Trap.plain .priv)
  else if c.fetch.kind = .lasting then some ⟨.memecc, 0, findingMem c.fetch true 2 0, x.comp.pc⟩
  else none

/-- The fold task has fetched its next instruction: its line, and what ECC found (R86, R117). -/
def LogicDie.fetched (x : LogicDie) (c : Ctx) : LogicDie :=
  (x.fetchLine c.die x.core.pc).eccSeen c.die c.fetch.kind
    (findingMem c.fetch (cacheHit c.die x.pipe.icache x.core.pc) 2 0) x.core.pc (cyc c.die 14 11) false

/-- The fold task issues the instruction it has fetched (R117): operands are usable, errors of registers are corrected
(R290). -/
def LogicDie.issued (x : LogicDie) (c : Ctx) (srcs dst : List (Fin 32)) : LogicDie :=
  ((x.fetched c).await srcs dst).count F.FC_ECCCNT_CORR c.regs

/-- The fold task executes one instruction: BUDGET at the boundary, the fetch traps, ILLEGAL, the role, then the
operation (R100, R106, R503). -/
def LogicDie.runFold (x : LogicDie) (c : Ctx) (role : Role) (srcs dst : List (Fin 32)) (cycles : LogicDie → Nat)
    (illegal : LogicDie → Bool) (body : LogicDie → Op) : LogicDie :=
  if ¬ x.foldRuns then x
  else if x.core.cycles ≥ x.budget then x.foldTrap c.die (Trap.plain .budget)
  else
    match x.foldFetch c with
    | some t => x.foldTrap c.die t
    | none =>
      if illegal x then (x.fetched c).foldTrap c.die (Trap.plain .illegal)
      else if role = .compOnly then (x.fetched c).foldTrap c.die (Trap.plain .priv)
      else
        let y := x.issued c srcs dst
        match body y with
        | .done z => z.retire c.die y.core.pc (y.core.pc + 4) (cycles y)
        | .denied z a => (z.accessError c.die .foldTask a).retire c.die y.core.pc (y.core.pc + 4) (cycles y)
        | .jump z n => z.retire c.die y.core.pc n (cycles y)
        | .trap t => y.foldTrap c.die t

/-- The companion core takes an instruction: the one of a debug STEP is used up (R413), and a WAITEV that a line has
ended stays ended (R104). -/
def LogicDie.woken (x : LogicDie) : LogicDie :=
  { x with comp := { x.comp with stepping := false, waiting := false } }

/-- The companion core issues the instruction that it has fetched: what ECC found at the fetch and in the registers
(R86, R290). -/
def LogicDie.compIssued (x : LogicDie) (c : Ctx) : LogicDie :=
  (x.woken.eccSeen c.die c.fetch.kind (findingMem c.fetch true 2 0) x.comp.pc 0 true).count F.FC_ECCCNT_CORR c.regs

/-- The companion core executes one instruction (R104-R106). -/
def LogicDie.runComp (x : LogicDie) (c : Ctx) (role : Role) (illegal : LogicDie → Bool) (store : Bool)
    (body : LogicDie → Op) : LogicDie :=
  if ¬ x.compRuns then x
  else
    match x.compFetch c with
    | some t => x.woken.compTrap c.die t false
    | none =>
      let x := x.compIssued c
      if illegal x then x.compTrap c.die (Trap.plain .illegal) false
      else if role = .foldOnly then x.compTrap c.die (Trap.plain .priv) false
      else
        match body x with
        | .done y => { y with comp := { y.comp with pc := (x.comp.pc + 4) % 2 ^ 64 } }
        | .denied y a =>
          let y := y.accessError c.die .companion a
          { y with comp := { y.comp with pc := (x.comp.pc + 4) % 2 ^ 64 } }
        | .jump y n => { y with comp := { y.comp with pc := n % 2 ^ 64 } }
        | .trap t => x.compTrap c.die t store

/-! ### The host cores (R14, R333, R472) -/

/-- A host core (R14). -/
def HostDie.core (h : HostDie) (n : Nat) : CompCore := Sparse.get (fun _ => CompCore.reset) h.cores n

/-- Replace a host core. -/
def HostDie.setCore (h : HostDie) (n : Nat) (k : CompCore) : HostDie :=
  { h with cores := Sparse.put (fun _ => CompCore.reset) h.cores n k }

/-- A host core as the operations on the companion role see it: its registers, the time, the last fold number that the
host die knows, and the interrupt of the host collector as line 18 (R313, R314). -/
def HostDie.coreDie (h : HostDie) (k : CompCore) : LogicDie :=
  let x := (({ LogicDie.reset with comp := k }.p F.GT_TBASE_TIME h.now).p F.FOLD_NUMBER_NUMBER (h.g F.FOLD_SNAP_LAST_NUMBER))
  x.p F.FC_SEEN_BITS (b2n ((List.range 4).any (fun i => h.g F.HFC_SEEN_BITS i != 0)))

/-- Host core n executes (R14, R333): an image runs, H_CPU is ON, and the core does not wait in WAITEV without a line.
HC1 to HC3 run once HC0 has released them, which their first instruction shows. -/
def HostDie.coreRuns (h : HostDie) (n : Nat) : Bool :=
  !h.inReset && h.running.isSome && h.hostOn 1 && (!(h.core n).waiting || (h.coreDie (h.core n)).lineReady)

/-- Host core n takes an instruction. -/
def HostDie.coreWoken (h : HostDie) (n : Nat) : CompCore :=
  let k := h.core n
  let k := if k.on then k else { k with on := true, pc := Config.hostCoreStart n h.now }
  { k with stepping := false, waiting := false }

/-- What ECC found at an access of a host core to host SRAM (R86, R312, R313): counts and sources of the host die;
`true` where the word stays uncorrectable. -/
def HostDie.eccSeen (h : HostDie) (n : Nat) (f : Finding) (a : Nat) : HostDie × Bool :=
  match f.kind with
  | .clean => (h, false)
  | .corrected => (h.count F.HFC_ECCCNT_CORR, false)
  | .reread => ((h.count F.HFC_ECCCNT_REREAD).raise 8 a, false)
  | .lasting => (h.raise (if f.cached then n else 9) a, true)

/-- What an instruction of a host core does: to the device, and to the core. -/
inductive HostOp where
  | done (s : State) (x : LogicDie)
  | jump (s : State) (x : LogicDie) (target : Nat)
  | fail (s : State) (t : Trap)

/-- An operation on the core alone. -/
def Op.onHost (s : State) : Op → HostOp
  | .done x => .done s x
  | .denied x a => .done (s.modHost (fun h => h.accessError .hostFirmware a)) x
  | .jump x n => .jump s x n
  | .trap t => .fail s t

/-- A trap of a host core (R105). -/
def LogicDie.hostTrap (x : LogicDie) (t : Trap) : CompCore :=
  let x := x.compEnter x.comp.pc (0x80 + t.cls.code) ((x.comp.trapVbase.toNat + 8 * t.cls.code) % 2 ^ 64)
  { x.comp with eaddr := BitVec.ofNat 64 t.addr }

/-- Host core n executes one instruction of the base set (R14, R472): its fetch comes from host SRAM; what belongs to
the safety extensions or to the units of a logic die is no instruction there. -/
def State.runCore (s : State) (n : Nat) (c : Ctx) (role : Role) (illegal : LogicDie → Bool)
    (body : State → LogicDie → HostOp) : State :=
  let s := s.modHost (·.at c.now)
  if ¬ c.companion ∨ ¬ s.host.coreRuns n then s
  else
    let x := s.host.coreDie (s.host.coreWoken n)
    let pc := x.comp.pc
    let trap := fun (s : State) (t : Trap) => s.modHost (fun h => h.setCore n (x.hostTrap t))
    if 0x2000000 ≤ pc then trap s (Trap.plain .priv)
    else
      let e := s.host.eccSeen n c.fetch pc
      let s : State := { s with host := e.1.count F.HFC_ECCCNT_CORR c.regs }
      if e.2 then trap s (Trap.plain .memecc)
      else if illegal x ∨ role = .foldOnly then trap s (Trap.plain .illegal)
      else
        match body s x with
        | .done s y => s.modHost (fun h => h.setCore n { y.comp with pc := (pc + 4) % 2 ^ 64 })
        | .jump s y a => s.modHost (fun h => h.setCore n { y.comp with pc := a % 2 ^ 64 })
        | .fail s t => trap s t

/-- One Evpeal instruction on its die. -/
def runInstr (c : Ctx) (role : Role) (srcs dst : List (Fin 32)) (cycles : LogicDie → Nat) (illegal : LogicDie → Bool)
    (store : Bool) (body : LogicDie → Op) (s : State) : Host.Outcome State Fault Refusal :=
  match c.host with
  | some n => .next (s.runCore n.val c role illegal (fun s x => (body x).onHost s))
  | none =>
    .next (s.modDie c.die (fun x =>
      let x := x.at c.now
      if c.companion then x.runComp c role illegal store body else x.runFold c role srcs dst cycles illegal body))

/-- No unassigned operand value. -/
def legal : LogicDie → Bool := fun _ => false

/-- An instruction of a unit that only the logic dies have: a host core has no such instruction (R14). -/
def dieOnly (c : Ctx) : LogicDie → Bool := fun _ => c.host.isSome

/-- An instruction that writes wd from register operands and traps nothing (R120, R122). -/
def runAlu (c : Ctx) (la lb : Nat) (srcs : List (Fin 32)) (wd : Fin 32) (f : LogicDie → Word) (s : State) :
    Host.Outcome State Fault Refusal :=
  runInstr c .both srcs [wd] (fun _ => cyc c.die la lb) legal false (fun x => .done (x.setW c.companion wd (f x))) s

/-- A multiplication (R117, R120): one cycle, its result usable after 3 cycles on LA and 4 on LB. -/
def runMul (c : Ctx) (wd wa wb : Fin 32) (f : Word → Word → Word) (s : State) : Host.Outcome State Fault Refusal :=
  runInstr c .both [wa, wb] [wd] (fun _ => 1) legal false
    (fun x =>
      let y := x.setW c.companion wd (f (x.w c.companion wa) (x.w c.companion wb))
      .done (if c.companion then y else y.usableIn wd (cyc c.die 3 4))) s

end Sys2Proof.Machine
end

