-- ==== Sys2Proof/Machine/EvMem.lean ====
section
/-! DEFINITION. How a core of a logic die loads and stores (R123); Evpeal branches, loops and calls (R124, R125), image I/O and FOLD (R126). -/

namespace Sys2Proof.Machine

/-- The address of an M-format access (R114): wa + sext(offset), modulo 2^64. -/
def LogicDie.mAddr (x : LogicDie) (companion : Bool) (wa : Fin 32) (off : Fin 65536) : Nat :=
  (x.w companion wa + sext 16 off.val).toNat

/-- A load of `width` bytes into wd, zero-extended (R123). -/
def runLoad (c : Ctx) (wd wa : Fin 32) (off : Fin 65536) (width : Nat) (s : State) :
    Host.Outcome State Fault Refusal :=
  runInstr c .both [wa] [wd] (fun _ => 1) legal false (fun x =>
    let a := x.mAddr c.companion wa off
    match x.load c (c.word 0) wa a width with
    | .inl t => .trap t
    | .inr (y, v) =>
      let y := y.setW c.companion wd (BitVec.ofNat 64 v)
      .done (if c.companion then y else y.loaded c.die (x.region a) wd)) s

/-- A store of the low `width` bytes of ws (R123). -/
def runStore (c : Ctx) (ws wa : Fin 32) (off : Fin 65536) (width : Nat) (s : State) :
    Host.Outcome State Fault Refusal :=
  runInstr c .both [wa, ws] [] (fun _ => 1) legal true (fun x =>
    match x.store c wa (x.mAddr c.companion wa off) width (x.w c.companion ws) with
    | .inl t => .trap t
    | .inr y => .done y) s

/-! ### Control flow (R124, R125) -/

/-- The program counter of the executing role. -/
def LogicDie.pc (x : LogicDie) (companion : Bool) : Nat := if companion then x.comp.pc else x.core.pc

/-- pc + 4 × sext(offset), modulo 2^64 (R114); `n` is the width of the offset. -/
def branchTarget (pc n off : Nat) : Nat := (BitVec.ofNat 64 pc + 4#64 * sext n off).toNat

/-- BEQ (R96, R124): in the fold task an offset of zero or below traps LOOPLIM whether or not the branch is taken. -/
def execIBeq (c : Ctx) (wa wb : Fin 32) (off : Fin 65536) (s : State) : Host.Outcome State Fault Refusal :=
  runInstr c .both [wa, wb] []
    (fun x => if x.w c.companion wa = x.w c.companion wb then cyc c.die 3 5 else 1) legal false
    (fun x =>
      if ¬ c.companion ∧ (off.val = 0 ∨ off.val ≥ 32768) then .trap (Trap.plain .looplim)
      else if x.w c.companion wa = x.w c.companion wb then .jump x (branchTarget (x.pc c.companion) 16 off.val)
      else .done x) s

/-- LOOPN (R97, R125): body length `len` (0 is unassigned) and count. -/
def execILoopn (c : Ctx) (len : Fin 1024) (count : Fin 65536) (s : State) : Host.Outcome State Fault Refusal :=
  runInstr c .foldOnly [] [] (fun _ => if count.val = 0 then cyc c.die 3 5 else cyc c.die 2 3)
    (fun _ => decide (len.val = 0)) false
    (fun x =>
      let p := x.core.pc
      if count.val > 4096 ∨ x.core.loops.length ≥ 4 then .trap (Trap.plain .looplim)
      else if count.val = 0 then .jump x (p + 4 * len.val + 4)
      else .done { x with core := { x.core with
        loops := ⟨p + 4, p + 4 * len.val, count.val, x.core.callDepth⟩ :: x.core.loops } }) s

/-- Enter a subroutine at `target` (R74, R98): w30 and, in the fold task, the hardware return copy and the depth. -/
def LogicDie.enterSub (x : LogicDie) (companion : Bool) (target : Nat) : Op :=
  let ra := x.pc companion + 4
  if companion then .jump (x.setW true 30 (BitVec.ofNat 64 ra)) target
  else if x.core.callDepth ≥ 8 then .trap (Trap.plain .stack)
  else
    let y := x.setW false 30 (BitVec.ofNat 64 ra)
    .jump { y with core := { y.core with callDepth := y.core.callDepth + 1, rets := ra :: y.core.rets } } target

/-- CALL (R98, R124). -/
def execICall (c : Ctx) (off : Fin 67108864) (s : State) : Host.Outcome State Fault Refusal :=
  runInstr c .both [] [30] (fun _ => cyc c.die 3 5) legal false
    (fun x => x.enterSub c.companion (branchTarget (x.pc c.companion) 26 off.val)) s

/-- RET (R98, R124, R125): STACK at depth 0 or where w30 differs from the hardware copy, then ALIGN; it ends the loop
levels recorded at the depth it returns from. -/
def execIRet (c : Ctx) (s : State) : Host.Outcome State Fault Refusal :=
  runInstr c .both [30] [] (fun _ => cyc c.die 3 5) legal false
    (fun x =>
      let t := (x.w c.companion 30).toNat
      if c.companion then (if t % 4 ≠ 0 then .trap (Trap.plain .align) else .jump x t)
      else if x.core.callDepth = 0 ∨ x.core.rets.head? ≠ some t then .trap (Trap.plain .stack)
      else if t % 4 ≠ 0 then .trap (Trap.plain .align)
      else .jump { x with core := { x.core with
        callDepth := x.core.callDepth - 1
        rets := x.core.rets.tail
        loops := x.core.loops.filter (fun l => l.depth != x.core.callDepth) } } t) s

/-- JR (R96, R124): in the fold task only upward. -/
def execIJr (c : Ctx) (wa : Fin 32) (s : State) : Host.Outcome State Fault Refusal :=
  runInstr c .both [wa] [] (fun _ => cyc c.die 4 6) legal false
    (fun x =>
      let t := (x.w c.companion wa).toNat
      if ¬ c.companion ∧ t ≤ x.core.pc then .trap (Trap.plain .looplim)
      else if t % 4 ≠ 0 then .trap (Trap.plain .align)
      else .jump x t) s

/-- CALLR (R96, R98, R124): LOOPLIM, then STACK, then ALIGN (R503). -/
def execICallr (c : Ctx) (wa : Fin 32) (s : State) : Host.Outcome State Fault Refusal :=
  runInstr c .both [wa] [30] (fun _ => cyc c.die 4 6) legal false
    (fun x =>
      let t := (x.w c.companion wa).toNat
      if ¬ c.companion ∧ t ≤ x.core.pc then .trap (Trap.plain .looplim)
      else if ¬ c.companion ∧ x.core.callDepth ≥ 8 then .trap (Trap.plain .stack)
      else if t % 4 ≠ 0 then .trap (Trap.plain .align)
      else x.enterSub c.companion t) s

/-! ### Image I/O and FOLD (R126) -/

/-- The code of SI(n) in the combined input image (R87). -/
def LogicDie.inCode (x : LogicDie) (n : Nat) : Nat := safeCode (x.ld64 (0x20000020 + 8 * (n / 32))) (n % 32)

/-- IN (R126): 32 inputs from n := (wa[6:0] + imm) mod 128; inputs above SI95 read safe-0. -/
def execIIn (c : Ctx) (wd wa : Fin 32) (imm : Fin 128) (s : State) : Host.Outcome State Fault Refusal :=
  runInstr c .foldOnly [wa] [wd] (fun _ => cyc c.die 2 3) legal false
    (fun x =>
      let n := ((x.w false wa).toNat % 128 + imm.val) % 128
      let v := (List.range 32).foldl
        (fun v i => v + (if n + i ≤ 95 then x.inCode (n + i) else 1) * 4 ^ i) 0
      .done (x.setW false wd (BitVec.ofNat 64 v))) s

/-- OUT and OUTC (R126): under the mask wa[31:0], the codes of wd go into the output word at `addr`; all 32 codes of wd
are checked. -/
def runOut (c : Ctx) (addr : Nat) (wd wa : Fin 32) (s : State) : Host.Outcome State Fault Refusal :=
  runInstr c .foldOnly [wd, wa] [] (fun _ => cyc c.die 2 3) legal true
    (fun x =>
      let src := x.w false wd
      let mask := (x.w false wa).toNat
      if ¬ safeValid src then .trap (Trap.plain .scode)
      else
        let v := (List.range 32).foldl
          (fun v i => if mask.testBit i then setCode v i (safeCode src i) else v) (x.ld64 addr)
        .done (x.imageStore c.die addr v)) s

/-- OUT (R126): output word 0x000. -/
def execIOut (c : Ctx) (wd wa : Fin 32) (s : State) : Host.Outcome State Fault Refusal := runOut c 0x20001000 wd wa s

/-- OUTC (R126): output word 0x008, the crook word. -/
def execIOutc (c : Ctx) (wd wa : Fin 32) (s : State) : Host.Outcome State Fault Refusal := runOut c 0x20001008 wd wa s

/-- The attempt has executed FOLD after `n` cycles and its last compare agrees (R93, R109, R289, R293): it is
complete; LAST and MAX take its cycles; a retry that completes counts in RETRIED and, after a mismatch, in TRANS,
raises source 0 or 5 and logs the resolved cause (code 0x0001). -/
def LogicDie.completeAttempt (x : LogicDie) (d : Ch) (n : Nat) : LogicDie :=
  let x := { x with core := { x.core with
    running := false, ending := none, complete := true, loops := [], rets := [], callDepth := 0 } }
  let x := x.p F.FOLD_EXEC_LAST n
  let x := if x.g F.FOLD_EXEC_MAX < n % 2 ^ 24 then x.p F.FOLD_EXEC_MAX n else x
  if x.core.attempt = 0 then x
  else
    let cause := x.core.firstCause
    let x := x.count F.FOLD_COUNTS_RETRIED
    let x := if cause = 0xF then x.count F.FC_LSCNT_TRANS else x
    let x := x.log d x.now x.recFold 0x0001 0 (cause % 16 + (x.core.firstCycles % 2 ^ 24) * 16)
    if cause = 0xF then x.raise d 0 (x.core.firstCycles % 2 ^ 24 + x.g F.FC_LSCFG_MODE * 2 ^ 24)
    else x.raise d 5 (x.trapDetail cause)

/-- FOLD (R93, R126, R289): ends the attempt with the output image and held effects as they stand; in window compare
mode the attempt then awaits the compare of its last signatures. Every loop level ends (R125). In cycle compare mode
the command is the FOLD of the trailing core, whose compare agrees: a difference is LOCKSTEP_MISMATCH (log 43). -/
def execIFold (c : Ctx) (s : State) : Host.Outcome State Fault Refusal :=
  runInstr c .foldOnly [] [] (fun _ => 1) legal false
    (fun x => .done (
      if x.windowMode then { x with core := { x.core with ending := some .fold, loops := [] } }
      else x.completeAttempt c.die (x.core.cycles + 1))) s

end Sys2Proof.Machine
end

