-- ==== Sys2Proof/Machine/Lockstep.lean ====
section
/-! DEFINITION. Lockstep of the fold-task cores, rollback and retry, triad voting (R286-R296), and resumption after a closed
record, a pause or a warm return (R148, R306). -/

namespace Sys2Proof.Machine

/-! ### Mismatch, retry, voting -/

/-- A lockstep mismatch of a running attempt (R291, R293): on the first attempt the rollback starts, unless the journal has
overflowed; otherwise source 1 puts the channel safe. -/
def LogicDie.mismatch (x : LogicDie) (d : Ch) : LogicDie :=
  if ¬ x.core.running then x
  else if x.core.attempt = 0 ∧ ¬ x.core.jovf then x.startRollback 0xF
  else
    let detail := x.core.attempt + (x.core.cycles % 2 ^ 24) * 2
    ({ x with core := { x.core.discard with running := false, ending := none } }).raise d 1 detail

/-- LOCKSTEP_MISMATCH (R287, R291): the compared outputs differ in cycle compare mode, or no majority is left in triad
mode. -/
def execLockstepMismatch (d : Ch) (t : Time) (s : State) : Host.Outcome State Fault Refusal :=
  .next (s.modDie d (fun x =>
    let x := x.at t
    if x.windowMode then x else x.mismatch d))

/-- A signature compare is due (R288): a window of WIN cycles has passed since the last, or the attempt has come to
FOLD or to a trap. -/
def LogicDie.compareDue (x : LogicDie) : Bool :=
  x.core.running && x.windowMode &&
    (x.core.ending.isSome || decide (x.core.window + x.g F.FC_LSCFG_WIN ≤ x.core.cycles))

/-- The signatures agree (R288, R289): the attempt completes at FOLD, its trap has its reaction, or the next window
begins. -/
def LogicDie.compareAgrees (x : LogicDie) (d : Ch) : LogicDie :=
  match x.core.ending with
  | some .fold => x.completeAttempt d x.core.cycles
  | some (.trap t) => x.trapEnds d t
  | none => { x with core := { x.core with window := x.core.window + x.g F.FC_LSCFG_WIN } }

/-- WINDOW_COMPARE (R288): the signatures of a window, of FOLD or of a trap are compared in window compare mode. -/
def execWindowCompare (d : Ch) (differ : Bool) (t : Time) (s : State) : Host.Outcome State Fault Refusal :=
  .next (s.modDie d (fun x =>
    let x := x.at t
    if ¬ x.compareDue then x else if differ then x.mismatch d else x.compareAgrees d))

/-- TRIAD_MINORITY (R294): one core alone differs and is masked for the rest of the attempt; a difference of the two cores
left after a mask is a mismatch. -/
def execTriadMinority (d : Ch) (core : Fin 3) (t : Time) (s : State) : Host.Outcome State Fault Refusal :=
  .next (s.modDie d (fun x =>
    let x := x.at t
    if ¬ x.hdr.triad ∨ ¬ x.core.running then x
    else
      match x.core.masked with
      | none => { x with core := { x.core with masked := some core.val, maskedAt := x.core.cycles } }
      | some m => if m = core.val then x else x.mismatch d))

/-- BUDGET (R100, R117): the attempt has taken FOLD_BUDGET cycles without FOLD. -/
def execBudget (d : Ch) (t : Time) (s : State) : Host.Outcome State Fault Refusal :=
  .next (s.modDie d (fun x =>
    let x := x.at t
    if x.foldRuns ∧ x.core.cycles ≥ x.budget then x.foldTrap d (Trap.plain .budget) else x))

/-- The retry starts (R109, R291): memory and registers as at the checkpoint, CYCLES 0, ATTEMPT 1, at the fold entry. -/
def LogicDie.startRetry (x : LogicDie) : LogicDie :=
  let x := x.rollback
  { x with core := { x.core with
      rolling := false, running := true, complete := false, attempt := 1, cycles := 0, window := 0, pc := x.hdr.entry,
      masked := none } }

/-- The journal entry of the word at `a` stays uncorrectable (R291, R293): its word keeps what the attempt wrote, and
source 25 puts the channel safe. -/
def LogicDie.entryLost (x : LogicDie) (d : Ch) (a : Nat) : LogicDie :=
  let x := { x with core := { x.core with
    rolling := false, journal := x.core.journal.filter (fun e => e.addr != a - a % 8) } }
  (x.rollback).raise d 25 a

/-- The cores are loaded from the checkpoint store (R291, R311): where its word stays uncorrectable, source 27 puts
the channel safe and no retry starts. -/
def LogicDie.restore (x : LogicDie) (d : Ch) (store : Ecc) : LogicDie :=
  if store = .lasting then ({ x with core := { x.core with rolling := false } }.rollback).raise d 27 0
  else
    let x := x.startRetry
    x.eccSeen d store 5 0 0 true

/-- ROLLBACK (R109, R290, R291, R293): the rollback ends. A journal entry that reads uncorrectable is read again;
where that succeeds, source 24 is raised and the retry starts. -/
def execRollback (d : Ch) (found : RollFound) (t : Time) (s : State) :
    Host.Outcome State Fault Refusal :=
  .next (s.modDie d (fun x =>
    let x := x.at t
    if ¬ x.core.rolling then x
    else
      let x := x.count F.FC_ECCCNT_CORR found.corrected
      match found.entry with
      | some (a, true) => x.entryLost d a
      | some (a, false) => (x.eccSeen d .reread 4 a 0 true).restore d found.store
      | none => x.restore d found.store))

/-! ### Starting folds (R148, R306) -/

/-- Slots and the zone-state word before the first fold of a start (R148): STATE, ARM0, ARM1 and STATUS of every slot
0, the zone word all safe-0, in the image entered with and in the committed one (R89, R214); USER and the
configuration words stay. -/
def LogicDie.slotReset (x : LogicDie) : LogicDie :=
  { x with
    mem := x.mem.filter (fun e =>
      !(decide (0x30000000 ≤ e.1) && decide (e.1 < 0x30010000) && decide (0x18 ≤ e.1 % 64) && decide (e.1 % 64 < 0x38)) &&
      !(decide (0x20001010 ≤ e.1) && decide (e.1 < 0x20001018)))
    memC := x.memC.filter (fun e => !(decide (0x20001010 ≤ e.1) && decide (e.1 < 0x20001018))) }

/-- Folds start on a die (R148, R182, R229): slots reset, the first commit with STARTED activates pulses and lamps. -/
def LogicDie.startFolds (x : LogicDie) : LogicDie :=
  let x := x.slotReset
  let x := { x with
    fold := { x.fold with phase := .idle, armTp := true, armLamp := true, reacted := 0 }
    core := { x.core with running := false, complete := false, rolling := false } }
  (x.p F.FOLD_CTRL_RUN 1).p F.FOLD_STATUS_RUNNING 1

/-- A die resumes (R306): from fold number `n`, not safe any more, without a digest comparison in the first fold. -/
def LogicDie.resume (x : LogicDie) (n : Nat) : LogicDie :=
  let x := x.startFolds
  let x := (x.p F.FOLD_NUMBER_NUMBER n).p F.FC_CTRL_READY 0
  let x := ((x.p F.FC_CTRL_SAFE 0).p F.FOLD_STATUS_SAFE 0).p F.PWR_STAT_PAUSED 0
  { x with
    fc := { x.fc with mine := none, theirs := none }
    fold := { x.fold with omitDigest := true } }

/-- Both dies are READY, each holds the proposal that the other makes now, and neither has rejected its configuration
(R41): the later instant and the larger fold number. -/
def State.agreedStart (s : State) : Option (Nat × Nat) :=
  let ok := fun (x : LogicDie) => x.is F.FC_CTRL_READY && !x.is F.FC_CTRL_LOCKED && !x.is F.FC_CTRL_NORESUME &&
    !x.is F.FOLD_STATUS_CFG_REJECT
  if ¬ ok s.la ∨ ¬ ok s.lb then none
  else
    match s.la.fc.mine, s.lb.fc.mine with
    | some a, some b =>
      if s.la.fc.theirs = some b ∧ s.lb.fc.theirs = some a then
        some (max (s.la.g F.FOLD_NUMBER_NUMBER) (s.lb.g F.FOLD_NUMBER_NUMBER), max a.2 b.2)
      else none
    | _, _ => none

/-- RESUMPTION (R306): at the later of the two proposed instants both dies resume folds. -/
def execResumption (t : Time) (s : State) : Host.Outcome State Fault Refusal :=
  match s.agreedStart with
  | some (n, start) =>
    if t = start then .next ((s.modDie .la (fun x => (x.at t).resume n)).modDie .lb (fun x => (x.at t).resume n))
    else .next s
  | none => .next s

end Sys2Proof.Machine
end

