-- ==== Sys2Proof/Machine/Stile.lean ====
section
/-! DEFINITION. The stile (12): message layout (R322-R327), control words, acknowledgement and retry (R315-R321), the host die's
receive ring (R345), HELLO and sessions (R320, R327, R417), TIME_SYNC (R326), fault notes (R325). -/

namespace Sys2Proof.Machine

/-! ### Layout (R322, R323, R326, R327) -/

/-- TYPE of a message. -/
def StileMsg.code : StileMsg → Nat
  | .hello _ => 0x01
  | .imageBegin _ => 0x02
  | .imageChunk _ _ _ => 0x03
  | .imageEnd _ _ => 0x04
  | .imageVerdict _ _ _ _ => 0x05
  | .paramWrite _ _ _ => 0x06
  | .paramAck _ _ _ => 0x07
  | .foldDone _ => 0x08
  | .hostReq _ _ _ _ | .hostRep _ _ _ _ _ => 0x09
  | .vctTx _ _ _ _ _ => 0x0A
  | .vctRx _ _ _ => 0x0B
  | .logRecord _ _ => 0x0C
  | .faultNote _ => 0x0D
  | .powerReq _ _ _ _ => 0x0E
  | .timeSync _ _ => 0x0F
  | .debugReq _ _ _ => 0x10
  | .debugRsp _ _ _ => 0x11
  | .bistCmd _ _ _ => 0x12
  | .bistRes _ _ _ _ _ _ => 0x13
  | .outside c _ => c

/-- Bytes padded with zeros to a multiple of n. -/
def padTo (n : Nat) (bs : List Nat) : List Nat := bs ++ List.replicate ((n - bs.length % n) % n) 0

/-- The payload of a message from the die that ROUTE names `sender` (0 host die, 1 LA, 2 LB). -/
def StileMsg.payload (sender : Nat) : StileMsg → List Nat
  | .hello h =>
    [sender, h.reason] ++ bytesLE 2 (Config.bootRomVersion sender) ++ bytesLE 4 (Config.dieRevision sender) ++
      bytesLE 8 h.info ++ bytesLE 8 h.arb ++ bytesLE 8 h.revoked ++
      ((List.range 4).map (fun i => bytesLE 48 (h.keys.getD i 0))).flatten ++ List.replicate 32 0
  | .imageBegin total => bytesLE 8 total ++ bytesLE 8 0
  | .imageChunk ofs data _ => bytesLE 8 ofs ++ data
  | .imageEnd total chunks => bytesLE 8 total ++ bytesLE 8 chunks
  | .imageVerdict reason detail digest tally =>
    [b2n (reason != 0), reason] ++ List.replicate 6 0 ++ bytesLE 8 detail ++ bytesLE 48 digest ++ bytesLE 8 tally
  | .paramWrite ofs data _ => bytesLE 8 ofs ++ data
  | .paramAck reason blocks ofs => [b2n (reason != 0), reason, 0, 0] ++ bytesLE 4 blocks ++ bytesLE 8 ofs
  | .foldDone f => (f.words.map (fun w => bytesLE 8 w.toNat)).flatten
  | .hostReq op tag addr data => [op, 0] ++ bytesLE 2 tag ++ bytesLE 4 0 ++ bytesLE 8 addr ++ bytesLE 8 data
  | .hostRep op status tag addr data =>
    [op, status] ++ bytesLE 2 tag ++ bytesLE 4 0 ++ bytesLE 8 addr ++ bytesLE 8 data
  | .vctTx conn crc fold data _ =>
    bytesLE 2 conn ++ [data.length, 0] ++ bytesLE 4 crc ++ bytesLE 8 fold ++ padTo 8 data
  | .vctRx conn time frame => bytesLE 2 conn ++ bytesLE 2 frame.length ++ bytesLE 4 0 ++ bytesLE 8 time ++ padTo 4 frame
  | .logRecord recs dropped => bytesLE 4 recs.length ++ bytesLE 4 dropped ++ (recs.map recBytes).flatten
  | .faultNote n => FaultNote.bytes n
  | .powerReq op dom st time => [op, dom, st] ++ List.replicate 5 0 ++ bytesLE 8 time
  | .timeSync time valid => bytesLE 8 time ++ bytesLE 4 (b2n valid) ++ bytesLE 4 0
  | .debugReq session op data => bytesLE 4 session ++ bytesLE 2 op ++ bytesLE 2 data.length ++ padTo 4 data
  | .debugRsp session op data => bytesLE 4 session ++ bytesLE 2 op ++ bytesLE 2 data.length ++ padTo 4 data
  | .bistCmd test unit opts => bytesLE 2 test ++ bytesLE 2 unit ++ bytesLE 4 opts ++ List.replicate 24 0
  | .bistRes test unit result cover duration detail =>
    bytesLE 2 test ++ bytesLE 2 unit ++ bytesLE 4 result ++ bytesLE 8 cover ++ bytesLE 8 duration ++
      (detail ++ List.replicate 40 0).take 40
  | .outside _ bs => bs.drop 12

/-- FLAGS of a message. -/
def StileMsg.flags (m : StileMsg) (resent : Bool) : Nat :=
  let rsp := match m with | .hostRep _ _ _ _ _ => true | _ => false
  let last := match m with
    | .imageChunk _ _ l => l
    | .paramWrite _ _ l => l
    | _ => false
  let missed := match m with | .foldDone f => f.missed | _ => false
  b2n rsp + 2 * b2n resent + 4 * b2n last + 8 * b2n missed

/-- The bytes 0 to 11 + LEN of a message; ends are numbered as ROUTE does. -/
def Sent.bytes (e : Sent) (sender receiver : Nat) : List Nat :=
  let p := e.msg.payload sender
  match e.msg with
  | .outside _ bs => bs.take 8 ++ bytesLE 4 e.seq ++ p
  | _ => [e.msg.code, e.msg.flags e.resent, sender + 16 * receiver, 0] ++ bytesLE 2 p.length ++ [0, 0] ++ bytesLE 4 e.seq ++ p

/-! ### The receive ring (R345) -/

/-- A message enters the receive ring, or is dropped and marked in OVF. -/
def HostDie.ringPut (h : HostDie) (bs : List Nat) : HostDie :=
  let k := h.g F.HSTL_RXPTR_HEAD
  if (k + 1) % 64 = h.g F.HSTL_RXPTR_TAIL then h.p F.HSTL_RXPTR_FLAG 1
  else { h with mem := pokeBytes h.mem (h.ringAddr k) bs }.p F.HSTL_RXPTR_HEAD ((k + 1) % 64)

/-- The host die accepts the next message of a link where it is one of `ok`, and enters it into the receive ring. -/
def State.hostTake (s : State) (l : Ch) (ok : StileMsg → Bool) : Option (StileMsg × State) :=
  match s.incoming l true with
  | none => none
  | some m =>
    if ok m then
      let bs := match s.sentTo l true with | some e => e.bytes (l.num + 1) 0 | none => []
      some (m, (s.accepted l true).modHost (fun h => h.ringPut bs))
    else none

/-! ### Control words (R316, R318-R320) -/

/-- An end of a link sends control words at `t`: it is powered, not held in reset, not silenced by a class-3 host fault, and
its 10 µs of silence are over (R316, R320). -/
def State.sendsCtl (s : State) (l : Ch) (fromHost : Bool) (t : Nat) : Bool :=
  decide ((s.linkEnd l fromHost).quiet ≤ t) &&
    (if fromHost then !s.host.muted && !s.host.inReset && !s.host.xhCut else (s.die l).boot.phase.alive)

/-- An end of a link receives at all: it is powered, not held in reset, and not the muted host die. -/
def State.hears (s : State) (l : Ch) (atHost : Bool) : Bool :=
  if atHost then !s.host.muted && !s.host.inReset && !s.host.xhCut else (s.die l).boot.phase.alive

/-- The clock of an end of a link. -/
def State.endAt (s : State) (l : Ch) (atHost : Bool) (t : Nat) : State :=
  if atHost then s.modHost (·.at t) else s.modDie l (·.at t)

/-- CONTROL_WORD_SEND (R316): an end sends a control word, which names the last message that it accepted. -/
def execControlWordSend (l : Ch) (fromHost : Bool) (t : Time) (s : State) : Host.Outcome State Fault Refusal :=
  let s := s.endAt l fromHost t
  if ¬ s.sendsCtl l fromHost t then .next s
  else
    let e := s.linkEnd l fromHost
    let named := if e.heard ∧ ¬ e.down then some ((e.expect + 2 ^ 32 - 1) % 2 ^ 32) else none
    .next (s.setLinkEnd l fromHost { e with cw := named })

/-- The messages left unacknowledged when a control word names `n`, and those it acknowledges (R317). -/
def ackUpTo (n : Nat) : List Sent → List Sent × List Sent
  | [] => ([], [])
  | e :: es =>
    if e.seq = n then (es, [e])
    else
      let r := ackUpTo n es
      if r.2 = [] then (e :: es, []) else (r.1, e :: r.2)

/-- The records of a LOG_RECORD. -/
def StileMsg.records : StileMsg → Nat
  | .logRecord recs _ => recs.length
  | _ => 0

/-- Records of the ring in acknowledged LOG_RECORD messages count as sent (R440). -/
def LogicDie.logAcked (x : LogicDie) (done : List Sent) : LogicDie :=
  let n := min x.logInFlight ((done.map (fun e => e.msg.records)).foldl (· + ·) 0)
  ({ x with logInFlight := x.logInFlight - n }).p F.LOG_STAT_UNSENT (x.g F.LOG_STAT_UNSENT - n)

/-- A request that a die has acknowledged (R342, R345); with RESTART, BUSY clears once both have. -/
def HostDie.reqAcked (h : HostDie) (l : Ch) (done : List Sent) : HostDie :=
  let mine := done.any (fun e => match e.msg with | .hostReq _ _ _ _ => true | _ => false)
  if ¬ mine ∨ ¬ h.req.unacked.testBit l.num then h
  else
    let q : ReqSt := { h.req with unacked := clrBit h.req.unacked l.num }
    let q : ReqSt := match l with | .la => { q with ackAtA := h.now } | .lb => { q with ackAtB := h.now }
    let h := { h with req := q }
    if q.op = 4 ∧ q.unacked = 0 then h.p F.HSTL_REQ_CMD_BUSY 0 else h

/-- An end takes an acknowledgement of its messages up to number `n`. -/
def State.takeAck (s : State) (l : Ch) (atHost : Bool) (n : Option Nat) : State :=
  let e := s.linkEnd l atHost
  match n with
  | none => s
  | some n =>
    let r := ackUpTo n e.unacked
    let s := s.setLinkEnd l atHost { e with unacked := r.1 }
    if atHost then s.modHost (fun h => (h.reqAcked l r.2).pump l) else s.modDie l (fun x => (x.logAcked r.2).pump)

/-- The bit of STL_STAT that says that a link carries control words. -/
def linkBit : Ch → Fld
  | .la => F.HSTL_STAT_LINKA
  | .lb => F.HSTL_STAT_LINKB

/-- An end sees its link carry control words, or not. -/
def State.setCarries (s : State) (l : Ch) (atHost : Bool) (v : Nat) : State :=
  if atHost then s.modHost (fun h => h.p (linkBit l) v) else s.modDie l (fun x => x.p F.STL_STAT_LINK v)

/-- A control word of an end can arrive: the end sends them, or sent the one of the RESTART that has put it into reset
(R342). -/
def State.ctlArrives (s : State) (l : Ch) (fromHost : Bool) (t : Nat) : Bool :=
  s.sendsCtl l fromHost t ||
    (!fromHost && (s.die l).boot.phase == .scrub && (s.die l).boot.reason == 2 && (s.die l).stl.cw.isSome)

/-- CONTROL_WORD (R316, R317): an end receives the other end's last control word; what it names, and every earlier message,
is acknowledged. -/
def execControlWord (l : Ch) (atHost : Bool) (t : Time) (s : State) : Host.Outcome State Fault Refusal :=
  let s := s.endAt l atHost t
  let e := s.linkEnd l atHost
  if e.down ∨ ¬ s.ctlArrives l (!atHost) t ∨ ¬ s.hears l atHost then .next s
  else
    let n := (s.linkEnd l (!atHost)).cw
    .next (((s.setLinkEnd l atHost { e with missed := false, cwAt := t }).setCarries l atHost 1).takeAck l atHost n)

/-- Each resend counts in RESENT and raises source 50, or host source 34, with the message type (R318, R320). -/
def State.noteResend (s : State) (l : Ch) (atHost : Bool) (ms : List Sent) : State :=
  if atHost then s.modHost (fun h => ms.foldl (fun h q => (h.count F.HSTL_CNT_RESENT).raise 34 q.msg.code) h)
  else s.modDie l (fun x => ms.foldl (fun x q => (x.count F.STL_CNT_RESENT).raise l 50 q.msg.code) x)

/-- Messages are sent again one after another from instant `b` on, each with its one resend (R318); the instant at
which the direction is free, and the messages in their new form. -/
def sendAgain (b : Nat) : List Sent → Nat × List Sent
  | [] => (b, [])
  | q :: qs =>
    let r := sendAgain (b + q.msg.span) qs
    (r.1, { q with resent := true, left := b + q.msg.span } :: r.2)

/-- A message has gone 2 µs since its last byte without an acknowledgement (R318). -/
def Sent.lapsed (q : Sent) (t : Nat) : Bool := decide (q.left + 2000 ≤ t)

/-- STILE_RESEND (R318): the oldest message with its resend still to come that was not acknowledged 2 µs after its
last byte left is sent again, and then every later unacknowledged message in order. -/
def execStileResend (l : Ch) (atHost : Bool) (t : Time) (s : State) : Host.Outcome State Fault Refusal :=
  let s := s.endAt l atHost t
  let e := s.linkEnd l atHost
  let due := fun (q : Sent) => !q.resent && q.lapsed t
  let kept := e.unacked.takeWhile (fun q => !due q)
  let again := e.unacked.drop kept.length
  if e.down ∨ again = [] ∨ ¬ s.hears l atHost then .next s
  else
    let r := sendAgain (max e.busy t) again
    .next ((s.setLinkEnd l atHost { e with unacked := kept ++ r.2, busy := r.1 }).noteResend l atHost again)

/-- CONTROL_WORD_SILENCE (R319): no valid control word for 2 µs counts as a missed acknowledgement; the oldest unacknowledged
message is sent again, where it has not been already. -/
def execControlWordSilence (l : Ch) (atHost : Bool) (t : Time) (s : State) : Host.Outcome State Fault Refusal :=
  let s := s.endAt l atHost t
  let e := s.linkEnd l atHost
  if e.down ∨ e.missed ∨ ¬ s.hears l atHost ∨ t < e.cwAt + 2000 then .next s
  else
    match e.unacked with
    | [] => .next (s.setLinkEnd l atHost { e with missed := true })
    | q :: rest =>
      if q.resent then .next (s.setLinkEnd l atHost { e with missed := true })
      else
        let r := sendAgain (max e.busy t) [q]
        let s := s.setLinkEnd l atHost { e with missed := true, unacked := r.2 ++ rest, busy := r.1 }
        .next (s.noteResend l atHost [q])

/-- A message that belongs to a field download. -/
def StileMsg.isDownload : StileMsg → Bool
  | .imageBegin _ | .imageChunk _ _ _ | .imageEnd _ _ | .paramWrite _ _ _ => true
  | _ => false

/-- Download messages still queued on both links are dropped. -/
def HostDie.dropDownload (h : HostDie) : HostDie :=
  let cut := fun (e : LinkEnd) => { e with queue := e.queue.filter (fun m => !m.isDownload) }
  { h with linkA := cut h.linkA, linkB := cut h.linkB }

/-- A lasting link fault at an end (R311, R320): no control words for 10 µs, the session ends; a logic die raises source 51,
the host die host source 35 with ABSENT, and a download under way starts over once both sessions are open again. -/
def State.linkFault (s : State) (l : Ch) (atHost : Bool) (t : Nat) : State :=
  let e := s.linkEnd l atHost
  let code := match e.unacked with | [] => 0 | q :: _ => q.msg.code
  let lost := (e.unacked.map (fun q => q.msg.records)).foldl (· + ·) 0
  let s := (s.setLinkEnd l atHost (e.fail t)).setCarries l atHost 0
  if atHost then
    s.modHost (fun h =>
      let h := ((h.p (sessBit l) 0).p F.HSTL_STAT_ABSENT 1).raise 35 code
      if h.down.busy ∧ h.down.sending then { h.dropDownload with down := { h.down with sending := false } } else h)
  else
    s.modDie l (fun x =>
      let x := { x with logInFlight := x.logInFlight - lost }
      (((x.p F.STL_STAT_SESSION 0).p F.STL_STAT_LASTING 1).p F.FC_CTRL_NORESUME 1).raise l 51 code)

/-- LASTING_LINK_FAULT (R318-R320): a message whose resend stays unacknowledged 2 µs after its last byte, or 2 µs
without a control word directly after a missed acknowledgement. -/
def execLastingLinkFault (l : Ch) (atHost : Bool) (t : Time) (s : State) : Host.Outcome State Fault Refusal :=
  let s := s.endAt l atHost t
  let e := s.linkEnd l atHost
  let resent := e.unacked.any (fun q => q.resent && q.lapsed t)
  .next (if ¬ e.down ∧ s.hears l atHost ∧ ((e.missed ∧ e.cwAt + 4000 ≤ t) ∨ resent) then s.linkFault l atHost t else s)

/-- A logic die opens a session with HELLO (R320, R327, R334). -/
def LogicDie.sayHello (x : LogicDie) (reason : Nat) : LogicDie :=
  let h : Hello := ⟨reason, b2n (x.is F.FC_CTRL_LOCKED), 0, 0, []⟩
  let x := { x with stl := x.stl.openSession h x.now }
  ((x.p F.STL_STAT_REASON reason).p F.STL_VERD_VALID 0).count F.STL_CNT_SENT 1

/-- LINK_RETURNED (R320): control words arrive again at an end that a lasting fault has stopped; it opens a new session with
HELLO, a logic die with reason 3. -/
def execLinkReturned (l : Ch) (atHost : Bool) (t : Time) (s : State) : Host.Outcome State Fault Refusal :=
  let s := s.endAt l atHost t
  let e := s.linkEnd l atHost
  if ¬ e.down ∨ ¬ s.sendsCtl l (!atHost) t ∨ ¬ s.sendsCtl l atHost t then .next s
  else
    let s := (s.setLinkEnd l atHost { e with down := false, expect := 0, cw := none, cwAt := t }).setCarries l atHost 1
    .next (if atHost then
        s.modHost (fun h => (h.setLink l ((h.link l).openSession h.hello h.now)).count F.HSTL_CNT_SENT 1)
      else s.modDie l (fun x => x.sayHello 3))

/-- STILE_MESSAGE_DISCARDED (R17, R317, R322): a message outside the set, with a failed check code or an unexpected
number, is discarded unacknowledged and counted. -/
def execStileMessageDiscarded (l : Ch) (atHost : Bool) (t : Time) (s : State) : Host.Outcome State Fault Refusal :=
  let s := s.endAt l atHost t
  .next (if ¬ s.hears l atHost then s
    else if atHost then s.modHost (fun h => h.count F.HSTL_CNT_DISCARD)
    else s.modDie l (fun x => x.count F.STL_CNT_DISCARD))

/-! ### HELLO (R320, R327, R334, R339, R342) -/

/-- The HELLO of a new session that an end of link `l` has not accepted yet. -/
def State.newHello (s : State) (l : Ch) (atHost : Bool) : Option (Sent × Hello) :=
  if (s.linkEnd l atHost).down ∨ ¬ s.hears l atHost then none
  else
    (s.linkEnd l (!atHost)).unacked.findSome? (fun e =>
      match e.msg with
      | .hello h => if e.taken then none else some (e, h)
      | _ => none)

/-- An end accepts a HELLO: the session's numbers start over (R317). -/
def State.takeHello (s : State) (l : Ch) (atHost : Bool) : State :=
  let peer := s.linkEnd l (!atHost)
  let mark := fun (e : Sent) => match e.msg with
    | .hello _ => { e with taken := true }
    | _ => e
  let s := s.setLinkEnd l (!atHost) { peer with unacked := peer.unacked.map mark }
  let me := s.linkEnd l atHost
  s.setLinkEnd l atHost { me with heard := true, expect := 1, cw := none, opened := me.opened && !me.heard }

/-- The VALID bit of the verdict of a die as the host die keeps it. -/
def verdValid : Ch → Fld
  | .la => F.HSTL_VERDA_VALID
  | .lb => F.HSTL_VERDB_VALID

/-- The DONE bit of a die in STL_REQ_STAT. -/
def reqDone : Ch → Fld
  | .la => F.HSTL_REQ_STAT_DONEA
  | .lb => F.HSTL_REQ_STAT_DONEB

/-- A request of the host die has its answer from a die: DONE and MSI-X vector 4 (R328). -/
def HostDie.setDone (h : HostDie) (l : Ch) : HostDie := { h.p (reqDone l) 1 with msix := h.msix ++ [4] }

/-- A HELLO with reason 2 shows that the die has taken the RESTART (DEDUCED, log 164): one that still waits is not
sent, and the request counts as acknowledged. -/
def HostDie.restartTaken (h : HostDie) (l : Ch) : HostDie :=
  let e := h.link l
  let h := h.setLink l { e with queue := e.queue.filter (fun m => match m with | .hostReq 4 _ _ _ => false | _ => true) }
  if h.req.op = 4 then h.reqAcked l [⟨0, .hostReq 4 0 0 0, false, false, 0⟩] else h

/-- The host die accepts a HELLO on link l (R327, R342, R356, R417): the ring, VERD cleared, DONE after a RESTART, SEQ of
telegrams over link A, its force bits after a field restart (R304); it brings H_SEC ON before it answers. -/
def State.hostHello (s : State) (l : Ch) (e : Sent) (h : Hello) : State :=
  let s := s.takeHello l true
  let s := s.modHost (fun q =>
    let q := q.ringPut (e.bytes (l.num + 1) 0)
    let q := (q.p (verdValid l) 0).p (sessBit l) (b2n (q.link l).opened)
    let q := match l with | .la => q.seqRestart | .lb => q
    let q := if h.reason = 2 then (q.restartTaken l).setDone l else q
    let q := if h.reason = 3 then q else q.unforce
    let q := { q with folds := clrBit q.folds l.num, lastReason3 := setBits q.lastReason3 l.num l.num (b2n (h.reason == 3)) }
    { q with down := { q.down with await := clrBit q.down.await l.num } })
  if (s.host.link l).opened then s.modHost (fun q => (q.pump l).bothOpen)
  else if s.host.hostOn 5 then s.modHost (fun q => q.answerHello l)
  else if s.host.pw.failed.testBit 5 then s
  else if s.host.g F.PWR_HDOM_STATE 5 = 3 then s.modHost (fun q => q.hold 5 domOn true)
  else (s.modHost (fun q => q.p F.PWR_HDOM_TARGET domOn 5)).startHost 5 domOn

/-- A logic die accepts the host die's HELLO: it keeps its security data (R327, R405). -/
def LogicDie.heardHost (x : LogicDie) (h : Hello) : LogicDie :=
  (({ x with boot := { x.boot with host := h } }).p F.STL_STAT_SESSION 1).pump

/-! ### TIME_SYNC (R47, R326) -/

/-- TIME_SYNC_SEND (R326): the host die sends its time on every open link, each TSPER × 100 µs. -/
def execTimeSyncSend (t : Time) (s : State) : Host.Outcome State Fault Refusal :=
  runHost t s (fun h =>
    [Ch.la, Ch.lb].foldl (fun h l =>
      if (h.link l).opened ∧ (h.link l).heard then h.send l (.timeSync t h.timeValid) else h) h)

/-- TIME_SYNC (R47, R326): the first byte arrives at timebase `t`; the die takes `t` − 80 ns − TIME into FOLD_ALIGN_ERR, and
ALIGNED is 1 within 1 µs. -/
def execTimeSync (d : Ch) (t : Time) (s : State) : Host.Outcome State Fault Refusal :=
  let s := s.modDie d (·.at t)
  match s.incoming d false with
  | some (.timeSync time valid) =>
    .next ((s.accepted d false).modDie d (fun x =>
      if ¬ valid then x.p F.FOLD_ALIGN_ERR_VALID 0
      else
        let off := (t : Int) - 80 - (time : Int)
        let x := (x.p F.FOLD_ALIGN_ERR_OFFSET (BitVec.ofInt 32 off).toNat).p F.FOLD_ALIGN_ERR_VALID 1
        let x := x.p F.FOLD_STATUS_ALIGNED (b2n (decide (off.natAbs ≤ 1000)))
        { x with boot := { x.boot with sync := some (time, t) } }))
  | _ => .next s

/-! ### Fault notes (R303, R325) -/

/-- FAULT_NOTE (R299, R303, R310, R325, R385): a note arrives over the crosslink at die d, from the host die at die d,
or from die d at the host die, which enters it into its ring and may wake its domains. -/
def execFaultNote (way : NoteWay) (d : Ch) (t : Time) (s : State) : Host.Outcome State Fault Refusal :=
  match way with
  | .crosslink =>
    match (s.modDie d (·.at t)).takeNote d (fun n => match n with | .fault _ => true | _ => false) with
    | some (.fault n, s) => .next (s.modDie d (fun x => x.takeFaultNote d 57 n))
    | _ => .next (s.modDie d (·.at t))
  | .fromHost =>
    let s := s.modDie d (·.at t)
    match s.incoming d false with
    | some (.faultNote n) => .next ((s.accepted d false).modDie d (fun x => x.takeFaultNote d 58 n))
    | _ => .next s
  | .toHost =>
    let s := s.modHost (·.at t)
    match s.hostTake d (fun m => match m with | .faultNote _ => true | _ => false) with
    | some (.faultNote n, s) => .next (if n.cls ≥ 2 then s.hostWake 3 else s)
    | _ => .next s

end Sys2Proof.Machine
end

