-- ==== Sys2Proof/Machine/Image.lean ====
section
/-! DEFINITION. Image containers (R331), their admission by lifecycle (R405, R406), and the host die's own boot (R333). -/

namespace Sys2Proof.Machine

/-- A little-endian field of a container: `n` bytes at offset `o`. -/
def fieldOf (img : List Nat) (o n : Nat) : Nat := ofBytesLE ((img.drop o).take n)

/-- The bytes of a container from o up to e are zero. -/
def zeroAt (img : List Nat) (o e : Nat) : Bool := ((img.drop o).take (e - o)).all (· == 0)

/-- LENGTH of a container. -/
def lengthOf (img : List Nat) : Nat := fieldOf img 8 8

/-- The KEY of a container. -/
def keyOf (img : List Nat) : List Nat := (img.drop 0x70).take 97

/-- SECVER of a container. -/
def secverOf (img : List Nat) : Nat := fieldOf img 0x10 8

/-- The signature of a container verifies under its KEY. -/
def signed (img : List Nat) : Bool :=
  Config.verifySig (keyOf img) (img.take (lengthOf img)) ((img.drop (lengthOf img)).take 96)

/-- The offset of a field that breaks a rule, if it does. -/
def wrong (broken : Bool) (o : Nat) : List Nat := if broken then [o] else []

/-- What is wrong with the common part of a container of the given KIND: `size` bytes arrived, FLAGS may hold `flags`. -/
def badContainer (kind flags : Nat) (img : List Nat) : List Nat :=
  let len := lengthOf img
  wrong (decide (img.length < 0x100)) 0 ++
    wrong (fieldOf img 0 4 != 0x96405A47) 0 ++
    wrong (fieldOf img 4 2 != kind) 4 ++
    wrong (fieldOf img 6 2 != 1) 6 ++
    wrong (len % 8 != 0 || decide (len < 0x100) || len + 96 != img.length) 8 ++
    wrong (Nat.land (fieldOf img 0x18 8) flags != fieldOf img 0x18 8) 0x18 ++
    wrong (!zeroAt img 0x68 0x70) 0x68 ++
    wrong (!zeroAt img 0xD1 0x100) 0xD1

/-- The security data that a boot ROM checks an image against: lifecycle, hashes of the key slots (0 for empty), revocation
bits, ARB. -/
structure Admission where
  lifecycle : Nat
  keys : List Nat
  revoked : Nat
  arb : Nat
  deriving DecidableEq, Repr

/-- The KEY of a container is in a programmed, unrevoked slot. -/
def Admission.keyOk (q : Admission) (img : List Nat) : Bool :=
  let hash := Config.sha384 (keyOf img)
  (List.range 4).any (fun n => q.keys.getD n 0 != 0 && !q.revoked.testBit n && q.keys.getD n 0 == hash)

/-- Reasons that refuse a host image (R405), with the offset of the field. -/
def Admission.refuseHost (q : Admission) (img : List Nat) : List (Nat × Nat) :=
  let sig := if signed img then [] else [(3, lengthOf img)]
  if q.lifecycle = 0 then sig ++ (if fieldOf img 0x18 8 % 2 = 1 then [(0xF, 0x18)] else [])
  else if q.lifecycle = 3 then
    sig ++ (if Config.sha384 (keyOf img) = Config.analysisKey then [] else [(4, 0x70)])
  else
    sig ++ (if q.keyOk img then [] else [(4, 0x70)]) ++ (if secverOf img < q.arb then [(5, 0x10)] else [])

/-- Reasons that refuse a field image or parameter set by key, version, signature and lifecycle (R405). -/
def Admission.refuseField (q : Admission) (img : List Nat) : List (Nat × Nat) :=
  let sig := if signed img then [] else [(3, lengthOf img)]
  if q.lifecycle = 3 then [(0xC, 0)]
  else if q.lifecycle = 0 then sig
  else sig ++ (if q.keyOk img then [] else [(4, 0x70)]) ++ (if secverOf img < q.arb then [(5, 0x10)] else [])

/-- The first reason in the order of the table *Verdict reasons*, with its offset (R336). -/
def firstReason : List (Nat × Nat) → Option (Nat × Nat)
  | [] => none
  | r :: rs =>
    match firstReason rs with
    | none => some r
    | some q => if r.1 ≤ q.1 then some r else some q

/-! ### Starting the host side (R333, R406) -/

/-- The download window lies in the upper 16 MiB of host SRAM (R329). -/
def windowBase : Nat := 0x1000000

/-- Bytes of the download window; beyond it they read 0. -/
def HostDie.window (h : HostDie) (ofs n : Nat) : List Nat :=
  (List.range n).map (fun i => if ofs + i < 0x1000000 then h.byte (windowBase + ofs + i) else 0)

/-- The host die's own security data. -/
def HostDie.admission (h : HostDie) : Admission :=
  let q := h.sec
  { lifecycle := h.lifecycle, keys := (List.range 4).map q.key,
    revoked := (List.range 4).foldl (fun v n => v + b2n (q.revoked n) * 2 ^ n) 0, arb := q.arbF }

/-- The plain body of a host image, or nothing where decryption fails. -/
def HostDie.hostBody (h : HostDie) (img : List Nat) : Option (List Nat) :=
  let len := fieldOf img 0x58 8
  if fieldOf img 0x18 8 % 2 = 0 then some ((img.drop 0x100).take len)
  else if h.sec.ikFlag then (Config.decryptImage h.sec.ikF (img.take (lengthOf img))).map (fun b => (b ++ List.replicate len 0).take len)
  else none

/-- What is wrong with the body of a host image (R331, R406). -/
def badHostBody (img : List Nat) : List Nat :=
  let len := fieldOf img 0x58 8
  let total := lengthOf img
  wrong (!zeroAt img 0x28 0x58) 0x28 ++
    wrong (fieldOf img 0x60 8 != 0) 0x60 ++
    (if fieldOf img 0x18 8 % 2 = 0 then wrong (decide (total < 0x100 + len)) 0x58
     else
      wrong (decide (total < 0x120 + len)) 0x58 ++ wrong (!zeroAt img 0x10C 0x110) 0x10C ++
        wrong (!zeroAt img (0x120 + len) total) 0x120)

/-- BOOT (R333): the boot ROM, where it waits for an image, checks, verifies, decrypts and copies the one at STL_DL_IMG, and
starts HC0; a failed check sets DONE with its reason and waits on. -/
def execBoot (t : Time) (s : State) : Host.Outcome State Fault Refusal :=
  runHost t s (fun h =>
    if ¬ h.is F.HSTL_DL_STAT_READY then h
    else
      let ofs := h.g F.HSTL_DL_IMG_OFS
      let n := h.g F.HSTL_DL_IMG_LEN
      let img := if ofs + n ≤ 0x1000000 then h.window ofs n else []
      let form := (badContainer 1 1 img ++ badHostBody img).map (fun o => (1, o))
      let fails := if form = [] then h.admission.refuseHost img else form
      let body := if fails = [] then h.hostBody img else none
      let fails := if fails = [] ∧ body = none then [(0xF, 0x18)] else fails
      let h := (h.p F.HSTL_DL_STAT_DONE 1).p F.HSTL_DL_STAT_BUSY (b2n h.down.busy)
      let h := { h with msix := h.msix ++ [3] }
      match firstReason fails with
      | some r =>
        let h := h.p F.HSTL_DL_STAT_RESULT r.1
        if r.1 = 3 ∨ r.1 = 4 ∨ r.1 = 5 ∨ r.1 = 0xF then h.raise 40 r.1 else h
      | none =>
        let h := { h with
          mem := pokeBytes h.mem 0 (body.getD [])
          running := some (fieldOf img 0x20 8)
          sec := { h.sec with secver := secverOf img } }
        let h := (List.range 4).foldl HostDie.resetCore h
        (h.p F.HSTL_DL_STAT_RESULT 0).p F.HSTL_DL_STAT_READY 0)

end Sys2Proof.Machine
end

