-- ==== Sys2Proof/Machine/Verdict.lean ====
section
/-! DEFINITION. The range and consistency rules that fail an image verdict with reason 0x08 (R145, R171, R184, R194, R210, R234,
R269, R283, R285, R296, R367, R424, R459, R460, R469, and the stated ranges of parameter fields). Each check answers the
die-local addresses of the words that break it. -/

namespace Sys2Proof.Machine

/-- lo ≤ v ≤ hi. -/
def inRange (v lo hi : Nat) : Bool := decide (lo ≤ v) && decide (v ≤ hi)

/-- The address of a word that breaks a rule, if it does. -/
def breach (broken : Bool) (a : Nat) : List Nat := if broken then [a] else []

/-- Every instance below n, and what each breaks. -/
def each (n : Nat) (f : Nat → List Nat) : List Nat := ((List.range n).map f).flatten

/-! ### Function slots (R144, R145) -/

/-- F1 of a TYPE is within the table *Function configuration*; bits that it does not name are zero. -/
def f1Ok (ty f1 : Nat) : Bool :=
  if ty = 0 then true
  else if ty = 1 ∨ ty = 2 then decide (f1 % 64 ≤ 47) && decide (f1 < 128)
  else if ty = 3 then
    decide (f1 % 64 ≤ 47) && decide (bitsOf f1 13 8 ≤ 47) && bitsOf f1 7 6 == 0 && bitsOf f1 15 14 == 0
  else if ty = 4 ∨ ty = 5 then decide (f1 ≤ 95)
  else if ty = 6 ∨ ty = 7 ∨ ty = 8 then f1 == 0
  else if ty = 9 then decide (f1 < 8)
  else if ty = 10 then decide (f1 < 1024)
  else false

/-- The times of a TYPE are within the table, in µs. -/
def timesOk (ty t0 t1 : Nat) : Bool :=
  if ty = 0 then true
  else if ty = 1 ∨ ty = 2 then inRange t0 10 30000000 && t1 == 0
  else if ty = 3 then inRange t0 100000 500000 && inRange t1 10000 1000000
  else if ty = 4 then inRange t0 50000 3000000 && inRange t1 50000 3000000 && decide (t0 ≤ t1)
  else if ty = 5 then inRange t0 1000 1000000 && inRange t1 1000 1000000
  else if ty = 6 then inRange t0 10000 3000000 && inRange t1 1000000 600000000
  else if ty = 7 ∨ ty = 8 then inRange t0 1 600000000 && t1 == 0
  else if ty = 9 then inRange t0 1000 10000000 && t1 == 0
  else t0 == 0 && t1 == 0

/-- F2 of a TYPE. -/
def f2Ok (ty f2 : Nat) : Bool :=
  if ty = 0 ∨ ty = 9 then true
  else if ty = 10 then decide (f2 < 2 ^ 32)
  else f2 == 0

/-- The fields of slot n that lie outside their ranges. -/
def LogicDie.badSlot (x : LogicDie) (n : Nat) : List Nat :=
  let a := (x.slot n 0).toNat
  let time := (x.slot n 8).toNat
  let ty := a % 16
  breach (bitsOf a 15 8 != 0 || bitsOf a 63 32 != 0 || decide (10 < ty) || !f1Ok ty (bitsOf a 31 16)) (slotAddr n 0) ++
    breach (!timesOk ty (time % 2 ^ 32) (time / 2 ^ 32)) (slotAddr n 8) ++
    breach (!f2Ok ty (x.slot n 0x10).toNat) (slotAddr n 0x10)

/-- The pairs that slot n binds, uses or takes (TYPE 1, 2 and 3). -/
def LogicDie.slotPairs (x : LogicDie) (n : Nat) : List Nat :=
  let ty := x.slotType n
  if ty = 1 ∨ ty = 2 then [x.cfgA n 21 16]
  else if ty = 3 then [x.cfgA n 21 16, x.cfgA n 29 24]
  else []

/-- Slots that break the rules between slots of R145. -/
def LogicDie.badSlots (x : LogicDie) : List Nat :=
  let ty := fun (n : Nat) => x.slotType n
  let zone := fun (n : Nat) => x.cfgA n 7 4
  let used := (List.range 1024).filter (fun n => ty n != 0)
  let pairs := used.map (fun n => (n, x.slotPairs n))
  let zones := (List.range 16).filter (fun z => ty (1008 + z) == 10)
  let mask := fun (z : Nat) => (x.slot (1008 + z) 0x10).toNat
  let rsti := fun (z : Nat) => x.cfgA (1008 + z) 25 16
  (used.map x.badSlot).flatten ++
    (pairs.map (fun p => breach (pairs.any (fun q => decide (q.1 < p.1) && p.2.any q.2.contains)) (slotAddr p.1 0))).flatten ++
    (used.map (fun n => breach (ty n == 10 && decide (n < 1008)) (slotAddr n 0))).flatten ++
    (zones.map (fun z =>
      breach (zone (1008 + z) != z) (slotAddr (1008 + z) 0) ++
        breach (zones.any (fun y => decide (y < z) && decide (Nat.land (mask y) (mask z) ≠ 0))) (slotAddr (1008 + z) 0x10) ++
        breach (ty (rsti z) != 4 || zone (rsti z) != z || zones.any (fun y => decide (y < z) && rsti y == rsti z))
          (slotAddr (1008 + z) 0))).flatten ++
    (used.map (fun n => breach ((ty n == 4 || ty n == 10) && ty (1008 + zone n) != 10) (slotAddr (1008 + zone n) 0))).flatten

/-! ### Folds, lockstep, faults (R69, R289, R296, R313) -/

def LogicDie.badFold (x : LogicDie) : List Nat :=
  breach (!inRange (x.g F.FOLD_PERIOD_PERIOD) 4 10000) (regAddr .FOLD_PERIOD 0) ++
    breach (!inRange (x.g F.FOLD_BUDGET_JLIMIT) 1 4096) (regAddr .FOLD_BUDGET 0) ++
    breach (!inRange (x.g F.FC_LSCFG_WIN) 64 65536 || (x.hdr.triad && x.is F.FC_LSCFG_MODE)) (regAddr .FC_LSCFG 0) ++
    breach (!inRange (x.g F.FC_QUIET_QUIET) 1 60000) (regAddr .FC_QUIET 0) ++
    breach (!inRange (x.g F.FC_RECCFG_LIMIT) 1 15 || !inRange (x.g F.FC_RECCFG_MINCLASS) 1 3 ||
      x.g F.FC_RECCFG_WINDOW == 0) (regAddr .FC_RECCFG 0)

/-! ### Inputs and sources (R171, R184, R194, R198) -/

def LogicDie.badInputs (x : LogicDie) : List Nat :=
  each 12 (fun g =>
    let per := x.g F.SI_GRP_SPER g
    let win := x.g F.SI_GRP_WIN g
    breach (decide (per < 5) || !inRange win 6 32 || decide (per * 100 < 2 * (win * 25) + 100)) (regAddr .SI_GRP g)) ++
  each 48 (fun i =>
    let j := x.g F.SI_CFG_SRC i
    let unit := x.samplePeriod i + x.g F.SI_GRP_WIN (groupOf i) * 25
    breach (x.g F.SI_CFG_N i == 0 || (x.is F.SI_CFG_CAPEN i && x.g F.SI_CFG_CAPEDGE i == 0)) (regAddr .SI_CFG i) ++
      breach (x.g F.SI_TPCHK_FPL i != 0 && x.g F.SI_TPCHK_XWIN i == 0) (regAddr .SI_TPCHK i) ++
      (if ¬ x.is F.SI_CFG_BIND i then []
       else
        breach (!x.bit F.TP_CTRL_EN j) (regAddr .SI_CFG i) ++
          breach (decide (x.g F.TP_CFG_WMIN j * 100 < unit) || x.g F.TP_CFG_WMIN j == 0 ||
            decide (x.g F.TP_CFG_WMAX j < x.g F.TP_CFG_WMIN j)) (regAddr .TP_CFG j) ++
          breach (decide (x.g F.TP_PER_PMAX j * 10 ≤ x.g F.TP_CFG_WMAX j + x.g F.TP_CFG_SETTLE j)) (regAddr .TP_PER j))) ++
  each 8 (fun n => breach (x.is F.SI_AICFG_ENABLE n && x.g F.SI_AICFG_MAXAGE n == 0) (regAddr .SI_AICFG n))

/-! ### Outputs (R210, R224) -/

def LogicDie.badOutputs (x : LogicDie) : List Nat :=
  let slot := x.g F.SO_TCFG_SLOT
  breach (!inRange slot 100 1000000) (regAddr .SO_TCFG 0) ++
  each 32 (fun n =>
    let opw := x.g F.SO_CFG_OPW n
    let opon := x.g F.SO_CFG_OPON n
    let tests := x.is F.SO_CFG_OFFTEST n || x.is F.SO_CFG_ONTEST n
    breach (!inRange opw 10 300 || !inRange opon 5 50 || !inRange (x.g F.SO_CFG_OFFT n) 10 10000 ||
      !inRange (x.g F.SO_CFG_ONT n) 10 10000 || (tests && (decide (slot < opw + 30) || decide (slot < opon + 30))))
      (regAddr .SO_CFG n))

/-! ### Lamps (R234) -/

/-- The strings named in the three places of colour loop k. -/
def LogicDie.loopNames (x : LogicDie) (k : Nat) : List Nat :=
  [x.g F.LMP_OSCFG_S0 k, x.g F.LMP_OSCFG_S1 k, x.g F.LMP_OSCFG_S2 k].filter (· != 0x3F)

/-- An entry breaks a rule for string n. A string named by a colour loop counts whether or not the loop is enabled,
where the TRIM of R234 bullets 2 and 3 takes enabled loops alone (DESIGN CHOICE, log 152). -/
def LogicDie.badEntry (x : LogicDie) (n e : Nat) : Bool :=
  (entMode e != 0 && !x.is F.LMP_CFG_EN n) || entRange e == 3 ||
    (entMode e == 3 && (List.range 8).any (fun k => (x.loopNames k).contains n))

/-- An entry with PROOF in mode steady or flash, of any aspect, whose brightness R234 excludes. -/
def LogicDie.badProof (x : LogicDie) (n e : Nat) : Bool :=
  let trim := x.trimMax n
  let lo := entB e * (100 - trim)
  let hi := entB e * (100 + trim)
  let checked := entProof e && (entMode e == 1 || entMode e == 2)
  let analog := decide (409600 ≤ lo)
  let pulse := decide (hi < 396800)
  checked && ((!analog && !pulse) || (pulse && decide (lo < 20500)))

/-- The aspects that have an entry other than 0: those whose registers are listed. -/
def LogicDie.aspectsSet (x : LogicDie) : List Nat :=
  (x.regs.filterMap (fun e => if e.1 % 512 = Reg.LMP_ASP.num then some (e.1 / 512 / 24) else none)).eraseDups

/-- A flash profile that a defined aspect uses is out of its ranges (R232, R234). -/
def LogicDie.badFlash (x : LogicDie) (f : Nat) : Bool :=
  let p := x.g F.LMP_FLASH_PERIOD f
  let on := x.g F.LMP_FLASH_ON f
  !inRange p 10 1000 || decide (on < 5) || decide (p < on + 5) || decide (p ≤ x.g F.LMP_FLASH_PHASE f)

def LogicDie.badLamps (x : LogicDie) : List Nat :=
  let asps := (List.range 64).filter (fun a => x.bit F.LMP_ADEF_DEF a)
  let cells := (asps.map (fun a => (List.range 48).map (fun n => (a, n)))).flatten
  let all := (x.aspectsSet.map (fun a => (List.range 48).map (fun n => (a, n)))).flatten
  (cells.map (fun c => breach (x.badEntry c.2 (x.aspEntry c.1 c.2)) (regAddr .LMP_ASP (c.1 * 24 + c.2 / 2)))).flatten ++
  (all.map (fun c => breach (x.badProof c.2 (x.aspEntry c.1 c.2)) (regAddr .LMP_ASP (c.1 * 24 + c.2 / 2)))).flatten ++
  each 8 (fun f => breach (x.badFlash f &&
    cells.any (fun c => entMode (x.aspEntry c.1 c.2) == 2 && entSel (x.aspEntry c.1 c.2) == f)) (regAddr .LMP_FLASH f)) ++
  each 8 (fun k =>
    let names := x.loopNames k
    let twice := names.any (fun n => decide (1 < names.count n)) ||
      (List.range 8).any (fun j => j != k && names.any (x.loopNames j).contains)
    breach (twice || names.any (fun n => decide (48 ≤ n)) || decide (25 < x.g F.LMP_OSCFG_TRIM k) ||
      x.g F.LMP_OSCFG_GAIN k == 0) (regAddr .LMP_OSCFG k)) ++
  each 48 (fun n =>
    let vmin := x.g F.LMP_CFG_VMIN n
    let vmax := x.g F.LMP_CFG_VMAX n
    breach (!inRange (x.g F.LMP_CFG_TOL n) 3 64 || !inRange (x.g F.LMP_CFG_IOFS n) 10 5000 || decide (4000 < vmin) ||
      decide (4000 < vmax) || decide (vmax < vmin)) (regAddr .LMP_CFG n) ++
      breach (!inRange (x.g F.LMP_LIM_ILEAK n) 10 500 || !inRange (x.g F.LMP_LIM_VDARK n) 50 500 ||
        !inRange (x.g F.LMP_LIM_LIND n) 10 22) (regAddr .LMP_LIM n)) ++
  breach (!inRange (x.g F.LMP_TCFG_SETTLE) 5 25 || !inRange (x.g F.LMP_TCFG_PALIVE) 10 10000) (regAddr .LMP_TCFG 0) ++
  each 4 (fun k => breach (decide (100 < x.g F.LMP_OSAFE_BIAS k)) (regAddr .LMP_OSAFE k))

/-! ### Converters (R269, R283, R285, R460) -/

/-- A mux input that R269 reserves. -/
def muxReserved (ch : Nat) : Bool := inRange ch 24 31 || decide (44 ≤ ch)

def LogicDie.badConverters (x : LogicDie) : List Nat :=
  each 2 (fun c =>
    let last := x.g F.ADC_CFG_LAST c
    let pre := x.g F.ADC_CFG_PRERET c
    let fused := x.fusedSlice c
    let cal := fun (k : Nat) => (x.is F.ADC_CAL_VALID (16 * c + k), x.g F.ADC_CAL_CH (16 * c + k), x.g F.ADC_CAL_GAIN (16 * c + k))
    breach (x.g F.ADC_CFG_MODE c == 3 || decide (3 < x.g F.ADC_CFG_TRIG c) || decide (x.g F.ADC_CFG_SHWIN c < 4) ||
      (decide (7 < pre) && pre != 15) || (fused != 15 && pre != 15 && pre != fused)) (regAddr .ADC_CFG c) ++
    each 16 (fun e =>
      let i := 16 * c + e
      breach ((decide (e ≤ last) && muxReserved (x.g F.ADC_SEQ_CH i)) || decide (4 < x.g F.ADC_SEQ_GAIN i) ||
        decide (8 < x.g F.ADC_SEQ_AVG i)) (regAddr .ADC_SEQ i)) ++
    each 16 (fun k =>
      let q := cal k
      breach ((q.1 && muxReserved q.2.1) || decide (4 < q.2.2) ||
        (q.1 && (List.range k).any (fun j => (cal j).1 && (cal j).2 == q.2))) (regAddr .ADC_CAL (16 * c + k)))) ++
  each 8 (fun n =>
    let e := x.g F.SI_AICFG_ENTRY n
    let c := n / 4
    breach (x.is F.SI_AICFG_ENABLE n &&
      (decide (x.g F.ADC_CFG_LAST c < e) || x.g F.ADC_SEQ_CH (16 * c + e) != n % 4)) (regAddr .SI_AICFG n))

/-! ### Telegrams and the flock (R367, R370) -/

def LogicDie.badVct (x : LogicDie) : List Nat :=
  let per := x.g F.FOLD_PERIOD_PERIOD
  let cper := x.g F.VCT_CELL_CPER
  let dead := x.g F.VCT_CELL_DEADLINE
  let cut := x.g F.VCT_CFG_RXCUT
  let dev := x.g F.VCT_CFG_DEV
  let rank := fun (d : Nat) => x.g F.VCT_PEER_RANK d
  let member := fun (d : Nat) => x.is F.VCT_PEER_MEMBER d
  breach (!inRange cut 25 1000 || x.g F.VCT_CFG_K == 0 || x.g F.VCT_CFG_BMISS == 0 ||
    !inRange (x.g F.VCT_CFG_ACKTO) 20 1000) (regAddr .VCT_CFG 0) ++
  breach (!inRange cper 100 100000 || per == 0 || cper % per != 0 || decide (cper ≤ dead + cut) ||
    decide (dead ≤ per + x.g F.FOLD_OFFSET_OFFSET)) (regAddr .VCT_CELL 0) ++
  each 64 (fun d => breach
    ((member d && rank d != 0 && (List.range d).any (fun c => member c && rank c == rank d)) ||
      (d == dev && (!member d || rank d != x.g F.VCT_CFG_RANK))) (regAddr .VCT_PEER d)) ++
  each 252 (fun n =>
    breach (decide (1 < x.g F.VCT_TXC_KIND n) || (decide (63 < x.g F.VCT_TXC_DSTDEV n) && x.g F.VCT_TXC_DSTDEV n != 0xFF))
      (regAddr .VCT_TXC n) ++
      breach (decide (1 < x.g F.VCT_RXC_KIND n)) (regAddr .VCT_RXC n) ++
      breach (!inRange (x.g F.VCT_RXT_WDT n) 100 10000000) (regAddr .VCT_RXT n))

/-! ### Timers (R424) and repair maps (R459) -/

def LogicDie.badTimers (x : LogicDie) : List Nat :=
  each 16 (fun n =>
    let casc := x.is F.GT_CFG_CASC n
    breach ((n == 0 && casc) || (casc && x.is F.GT_CFG_ALIGN n) || (x.is F.GT_CFG_PERIOD n && x.g F.GT_TOP_VALUE n == 0) ||
      (decide (8 ≤ n) && (x.g F.GT_CFG_ACT0 n != 0 || x.g F.GT_CFG_ACT1 n != 0 || x.g F.GT_CFG_ACTOV n != 0)))
      (regAddr .GT_CFG n))

def LogicDie.badRepair (x : LogicDie) (d : Ch) : List Nat :=
  each 13 (fun s =>
    if s < 4 ∨ ¬ segWrites d s then []
    else
      let lanes := segLanes s
      let soft := (List.range 12).filter (fun k => x.is F.BIST_REP_VALID (repIx s k))
      let own := soft.filter (fun k => !(x.fusedLanes s).contains (x.g F.BIST_REP_LANE (repIx s k)))
      breach (decide (lanes.2 < (x.fusedLanes s).length + own.length)) (regAddr .BIST_REP (repIx s 0)) ++
        each 12 (fun k => breach (x.is F.BIST_REP_VALID (repIx s k) &&
          decide (lanes.1 + lanes.2 ≤ x.g F.BIST_REP_LANE (repIx s k))) (regAddr .BIST_REP (repIx s k))))

/-- Every word of a die that breaks a rule of its own parameters (reason 0x08). -/
def LogicDie.badParams (x : LogicDie) (d : Ch) : List Nat :=
  x.badSlots ++ x.badFold ++ x.badInputs ++ x.badOutputs ++ x.badLamps ++ x.badConverters ++ x.badVct ++ x.badTimers ++
    x.badRepair d

/-- The words that must be equal on both dies (R289, R459, R469): FC_LSCFG, the anti-alias filters, the soft maps of
segments 6, 8, 9 and 11. -/
def LogicDie.twins (x : LogicDie) : List Nat :=
  [(x.rd .FC_LSCFG).toNat, (x.rd .ADC_AIFLT).toNat] ++
    ([6, 8, 9, 11].map (fun s => (List.range 12).map (fun k =>
      x.g F.BIST_REP_LANE (repIx s k) * 2 + x.g F.BIST_REP_VALID (repIx s k)))).flatten

end Sys2Proof.Machine
end

