-- ==== Sys2Proof/Machine/Boot.lean ====
section
/-! DEFINITION. Downloading the field side (12): the host die's sequence (R338, R339), the logic dies' boot ROM (R334), parameter
blocks (R332), digests, pin records and tally (R335), verdicts (R336). -/

namespace Sys2Proof.Machine

/-! ### The host die's sequence (R338, R339) -/

/-- Bytes cut into pieces of 1,016, each with its offset and whether it is the last. -/
def pieces : Nat → Nat → List Nat → List (Nat × List Nat × Bool)
  | 0, _, _ => []
  | n + 1, ofs, bs =>
    match bs with
    | [] => []
    | _ => (ofs, bs.take 1016, decide (bs.length ≤ 1016)) :: pieces n (ofs + 1016) (bs.drop 1016)

/-- The messages of a download of the window's image and parameter set (R327, R334). -/
def HostDie.downloadMsgs (h : HostDie) : List StileMsg :=
  let len := h.g F.HSTL_DL_IMG_LEN
  let img := h.window (h.g F.HSTL_DL_IMG_OFS) len
  let plen := h.g F.HSTL_DL_PAR_LEN
  let par := h.window (h.g F.HSTL_DL_PAR_OFS) plen
  let chunks := pieces (len / 1016 + 1) 0 img
  [.imageBegin len] ++ chunks.map (fun p => .imageChunk p.1 p.2.1 p.2.2) ++ [.imageEnd len chunks.length] ++
    (pieces (plen / 1016 + 1) 0 par).map (fun p => .paramWrite p.1 p.2.1 p.2.2)

/-- Messages join the queue of a link. -/
def HostDie.sendAll (h : HostDie) (l : Ch) (ms : List StileMsg) : HostDie :=
  (h.setLink l { h.link l with queue := (h.link l).queue ++ ms }).pump l

/-- IMAGE_BEGIN and all that follows is queued on both links. -/
def HostDie.beginDownload (h : HostDie) : HostDie :=
  let h := h.dropDownload
  let ms := h.downloadMsgs
  let h := (h.sendAll .la ms).sendAll .lb ms
  { h with down := { h.down with sending := true, due := false, got := 0 } }

/-- RESTART goes to both dies (R339, R342); a request under way is superseded. -/
def HostDie.sendRestart (h : HostDie) (tag : Nat) : HostDie :=
  let h := h.p F.HSTL_REQ_CMD_BUSY 0
  let h := { h with req := ⟨0, 0, 0, 0, 0, 0⟩ }
  let drop := fun (e : LinkEnd) => { e with queue := e.queue.filter (fun m => match m with | .hostReq _ _ _ _ => false | _ => true) }
  let h := { h with linkA := drop h.linkA, linkB := drop h.linkB }
  (h.send .la (.hostReq 4 tag 0 0)).send .lb (.hostReq 4 tag 0 0)

/-- Folds are running, or a die's last HELLO carried reason 3 (R339), as far as messages have told the host die: folds
run where a FOLD_DONE has come since the die's last HELLO. -/
def HostDie.mustRestart (h : HostDie) : Bool := h.folds != 0 || h.lastReason3 != 0

/-- A requested download goes on (R339): it first restarts the dies where it must, and begins once both sessions are open. -/
def State.nextDownload (s : State) : State :=
  let h := s.host
  if ¬ h.down.busy ∨ h.down.sending ∨ h.down.await ≠ 0 then s
  else if h.mustRestart then
    s.modHost (fun h => { h.sendRestart 0 with down := { h.down with await := 3 } })
  else if h.is F.HSTL_STAT_SESSA ∧ h.is F.HSTL_STAT_SESSB then s.modHost (·.beginDownload)
  else s

/-- A download is requested. -/
def State.startDownload (s : State) : State :=
  (s.modHost (fun h =>
    let h := (h.p F.HSTL_STAT_DL_BUSY 1).p F.HSTL_DL_STAT_BUSY 1
    { h with down := ⟨true, false, 0, false, 0, 0, 0, 0, 0⟩ })).nextDownload

/-- FIELD (R339): a write while a download is busy is an access error. -/
def execField (party : Party) (t : Time) (s : State) : Host.Outcome State Fault Refusal :=
  let s := s.modHost (·.at t)
  .next (if s.host.inReset then s
    else if s.host.is F.HSTL_STAT_DL_BUSY then s.modHost (fun h => h.accessError party (regAddr .HSTL_DL_CMD 0))
    else s.startDownload)

/-- AUTO_DOWNLOAD (R339): with AUTO and CACHE_VALID, the host die downloads from the cache once both dies have opened
sessions; a download that waits for sessions goes on here too. -/
def execAutoDownload (t : Time) (s : State) : Host.Outcome State Fault Refusal :=
  let s := s.modHost (·.at t)
  let h := s.host
  .next (if h.inReset then s
    else if h.down.busy then s.nextDownload
    else if h.is F.HSTL_CFG_AUTO ∧ h.is F.HSTL_STAT_CACHE_VALID ∧ h.down.due then s.startDownload
    else s)

/-- RELEASE (R338): CACHE_VALID clears. -/
def execRelease (t : Time) (s : State) : Host.Outcome State Fault Refusal :=
  runHost t s (fun h => h.p F.HSTL_STAT_CACHE_VALID 0)

/-- HELLO (R320, R327, R334, R339, R342, R356, R417): an end of link l accepts the other end's HELLO of a new session. -/
def execHello (l : Ch) (atHost : Bool) (t : Time) (s : State) : Host.Outcome State Fault Refusal :=
  let s := s.endAt l atHost t
  match s.newHello l atHost with
  | none => .next s
  | some (e, h) =>
    .next (if atHost then (s.hostHello l e h).nextDownload
      else (s.takeHello l false).modDie l (fun x => x.heardHost h))

/-! ### Download messages at a logic die (R334) -/

/-- A reason that fails the verdict is found. -/
def LogicDie.addFail (x : LogicDie) (reason ofs : Nat) : LogicDie :=
  { x with boot := { x.boot with fails := x.boot.fails ++ [(reason, ofs)] } }

/-- Image bytes from offset `o` on go to their place in SRAM: from 0x100 to code, then to data (R334). -/
def placeBytes (m : Sparse Byte) (code data : Nat) (o : Nat) : List Nat → Sparse Byte
  | [] => m
  | b :: bs =>
    let i := o - 0x100
    let v := BitVec.ofNat 8 b
    let m :=
      if o < 0x100 then m
      else if i < code then (if i < 0x800000 then Sparse.put memDflt m i v else m)
      else if i - code < data ∧ i - code < 0x400000 then Sparse.put memDflt m (0x10000000 + (i - code)) v
      else m
    placeBytes m code data (o + 1) bs

/-- A logic die accepts the next message of its link where `take` gives it a meaning. -/
def dieMessage (d : Ch) (t : Time) (s : State) (take : StileMsg → Option (LogicDie → LogicDie)) :
    Host.Outcome State Fault Refusal :=
  let s := s.modDie d (·.at t)
  match s.incoming d false with
  | none => .next s
  | some m =>
    match take m with
    | none => .next s
    | some f => .next ((s.accepted d false).modDie d f)

/-- IMAGE_BEGIN (R334): a download starts on a die that waits for one; during another it makes that one inconsistent. -/
def execImageBegin (d : Ch) (t : Time) (s : State) : Host.Outcome State Fault Refusal :=
  dieMessage d t s (fun m => match m with
    | .imageBegin total => some (fun x =>
      match x.boot.phase with
      | .hello => { x with boot := { x.boot with
          phase := .image, total := total, image := [], chunks := 0, params := [], fails := [], lastMsg := t
          peerFiles := none, peerTally := none, peerVerdict := none } }
      | .image | .params => { x.addFail 2 0 with boot := { (x.addFail 2 0).boot with lastMsg := t } }
      | _ => x)
    | _ => none)

/-- IMAGE_CHUNK (R334): stored in order of offset; another offset makes the transfer inconsistent. -/
def execImageChunk (d : Ch) (t : Time) (s : State) : Host.Outcome State Fault Refusal :=
  dieMessage d t s (fun m => match m with
    | .imageChunk ofs data _ => some (fun x =>
      if x.boot.phase ≠ .image then x
      else if ofs ≠ x.boot.image.length then
        { x.addFail 2 0 with boot := { (x.addFail 2 0).boot with lastMsg := t, chunks := x.boot.chunks + 1 } }
      else
        let img := x.boot.image ++ data
        { x with
          mem := placeBytes x.mem (fieldOf img 0x58 8) (fieldOf img 0x60 8) ofs data
          boot := { x.boot with image := img, chunks := x.boot.chunks + 1, lastMsg := t } })
    | _ => none)

/-- IMAGE_END (R334): the totals and the count of chunks are compared. -/
def execImageEnd (d : Ch) (t : Time) (s : State) : Host.Outcome State Fault Refusal :=
  dieMessage d t s (fun m => match m with
    | .imageEnd total chunks => some (fun x =>
      if x.boot.phase ≠ .image then x
      else
        let b := x.boot
        let x := if total = b.image.length ∧ total = b.total ∧ chunks = b.chunks then x else x.addFail 2 0
        { x with boot := { x.boot with phase := .params, lastMsg := t } })
    | _ => none)

/-- PARAM_WRITE (R334): the parameter set is stored in order of offset, up to the message with LAST. -/
def execParamWrite (d : Ch) (t : Time) (s : State) : Host.Outcome State Fault Refusal :=
  dieMessage d t s (fun m => match m with
    | .paramWrite ofs data last => some (fun x =>
      if x.boot.phase ≠ .params then x
      else
        let x := if ofs = x.boot.params.length then { x with boot := { x.boot with params := x.boot.params ++ data } }
          else x.addFail 2 0
        { x with boot := { x.boot with lastMsg := t, phase := if last then .verify else .params } })
    | _ => none)

/-! ### Checks of image and parameter set (R84, R99, R331, R332, R405) -/

/-- The security data of the host die's last HELLO (R405). -/
def LogicDie.admission (x : LogicDie) : Admission :=
  { lifecycle := x.lifecycle, keys := x.boot.host.keys, revoked := x.boot.host.revoked, arb := x.boot.host.arb }

/-- What is wrong with the lengths, entries and splits of a field image (R84, R99, R331). -/
def badFieldBody (img : List Nat) : List Nat :=
  let triad := fieldOf img 0x18 8 == 2
  let entry := fieldOf img 0x20 8
  let centry := fieldOf img 0x28 8
  let splo := fieldOf img 0x30 8
  let sphi := fieldOf img 0x38 8
  let cs := fieldOf img 0x48 8
  let ds := fieldOf img 0x50 8
  let code := fieldOf img 0x58 8
  let data := fieldOf img 0x60 8
  wrong (decide (cs ≤ entry) || entry % 4 != 0) 0x20 ++
    wrong (!triad && (decide (centry < cs) || decide (0x800000 ≤ centry) || centry % 4 != 0)) 0x28 ++
    wrong (decide (splo < 0x10000000) || decide (ds < splo)) 0x30 ++
    wrong (decide (sphi < splo) || decide (ds < sphi)) 0x38 ++
    wrong (cs % 0x10000 != 0 || !inRange cs 0x10000 0x800000 || (triad && cs != 0x800000)) 0x48 ++
    wrong (ds % 0x10000 != 0 || !inRange ds 0x10010000 0x10400000 || (triad && ds != 0x10400000)) 0x50 ++
    wrong (decide (0x800000 < code)) 0x58 ++
    wrong (decide (0x400000 < data) || decide (lengthOf img < 0x100 + code + data)) 0x60

/-- A parameter block: its offset in the set, target, channel mask, data. -/
structure Block where
  ofs : Nat
  addr : Nat
  mask : Nat
  data : List Nat
  deriving DecidableEq, Repr

/-- The blocks of a parameter set up to LENGTH (R332); a head that the rule does not admit ends the list, with its offset. -/
def parseBlocks (par : List Nat) (stop : Nat) : Nat → Nat → List Block × Option Nat
  | 0, o => ([], if o = stop then none else some o)
  | n + 1, o =>
    if o = stop then ([], none)
    else
      let len := fieldOf par (o + 8) 4
      let mask := fieldOf par (o + 12) 1
      if stop < o + 16 + len ∨ len % 8 ≠ 0 ∨ 4 ≤ mask ∨ fieldOf par (o + 13) 3 ≠ 0 then ([], some o)
      else
        let r := parseBlocks par stop n (o + 16 + len)
        (⟨o, fieldOf par o 8, mask, (par.drop (o + 16)).take len⟩ :: r.1, r.2)

/-- The blocks of a whole parameter set. -/
def blocksOf (par : List Nat) : List Block × Option Nat := parseBlocks par (lengthOf par) (lengthOf par / 16 + 1) 0x100

/-- The fields that a parameter set leaves zero. -/
def badParamHead (par : List Nat) : List Nat :=
  wrong (!zeroAt par 0x20 0x68) 0x20 ++ (match (blocksOf par).2 with | some o => [o] | none => [])

/-- A logic die's checks of image and parameter set (R334 steps 5 and 6): what fails of each. -/
def LogicDie.checkFiles (x : LogicDie) : List (Nat × Nat) × List (Nat × Nat) :=
  let img := x.boot.image
  let par := x.boot.params
  let form := (badContainer 2 2 img ++ badFieldBody img).map (fun o => (1, o))
  let pform := (badContainer 3 0 par ++ badParamHead par).map (fun o => (6, o))
  let image := if form = [] then x.admission.refuseField img else form
  let params := if pform = [] then
      (x.admission.refuseField par).map (fun r => if r.1 = 0xC then r else (6, r.2)) else pform
  (image, params)

/-! ### Parameter blocks (R332, R334 step 7) -/

/-- A block may target the word at an address (R332, R365): registers of the two regions but FOLD_CTRL, VCT_TLIST and
lock bits, and the configuration words of slots. -/
def mayTarget (d : Ch) (a : Nat) (v : Word) : Bool :=
  if 0x30000000 ≤ a ∧ a < 0x30010000 then
    let o := a % 0x40
    o == 0 || o == 8 || o == 0x10 || o == 0x38
  else if (0x40000000 ≤ a ∧ a < 0x41000000) ∨ (0x50000000 ≤ a ∧ a < 0x50100000) then
    match regAt d a with
    | none => true
    | some (r, _) =>
      r != .FOLD_CTRL && r != .VCT_TLIST &&
        (match lockOf r with
        | some f => !(f.reg == r && Word.bits v f.hi f.lo == 1)
        | none => true)
  else false

/-- The words of a block are written in order; the first that may not be, or whose write is an access error, fails. -/
def LogicDie.writeWords (d : Ch) : Nat → Nat → List Nat → LogicDie → LogicDie × Bool
  | 0, _, _, x => (x, true)
  | n + 1, a, bs, x =>
    let v : Word := BitVec.ofNat 64 (ofBytesLE (bs.take 8))
    if ¬ mayTarget d a v then (x, false)
    else if 0x30000000 ≤ a ∧ a < 0x30010000 then
      if a % 8 = 0 then LogicDie.writeWords d n (a + 8) (bs.drop 8) (x.st64 a v) else (x, false)
    else if a % 8 ≠ 0 ∨ x.busDenies d .boot a v then (x.busPost d .boot a 8 v, false)
    else LogicDie.writeWords d n (a + 8) (bs.drop 8) (x.busPost d .boot a 8 v)

/-- The blocks whose mask names the die are applied in order; the count of those applied, and the offset of one that
fails. -/
def LogicDie.applyBlocks (d : Ch) : List Block → Nat → LogicDie → LogicDie × Nat × Option Nat
  | [], n, x => (x, n, none)
  | b :: bs, n, x =>
    if ¬ b.mask.testBit d.num then LogicDie.applyBlocks d bs n x
    else
      let r := if b.data = [] then (x, mayTarget d b.addr 0#64) else LogicDie.writeWords d (b.data.length / 8) b.addr b.data x
      if r.2 then LogicDie.applyBlocks d bs (n + 1) r.1 else (r.1, n, some b.ofs)

/-- The lock bit of every block is set, in ascending order of block base (R334). -/
def LogicDie.lockAll (x : LogicDie) (d : Ch) : LogicDie :=
  let x := x.foldLock
  let x := x.p F.FC_CTRL_LOCK 1
  let x := x.p F.PWR_CTRL_LOCK 1
  let x := x.siLock d
  let x := x.p F.TP_CTRL_LOCK 1
  let x := x.p F.SO_CTRL_LOCK 1
  let x := x.p F.LMP_CTRL_LOCK 1
  let x := x.adcLock
  let x := x.p F.VCT_CTRL_LOCK 1
  let x := x.gtLock
  let x := x.p F.BIST_CTRL_LOCK 1
  x.p F.PWR_PDCTRL_LOCK 1

/-- The header of a checked image takes effect (R76, R84, R99). -/
def LogicDie.takeHeader (x : LogicDie) : LogicDie :=
  let img := x.boot.image
  let f := fun (o : Nat) => fieldOf img o 8
  let triad := f 0x18 == 2
  let x := { x with hdr :=
    { codeSplit := f 0x48, dataSplit := f 0x50, entry := f 0x20, compEntry := f 0x28, stackTop := f 0x38,
      compStackTop := f 0x40, spLo := f 0x30, spHi := f 0x38, triad := triad } }
  x.p F.FOLD_STATUS_TRIAD (b2n triad)

/-- The offset in a parameter set of the word that targets an address on a die, 0 if none does. -/
def wordOfs (d : Ch) (a : Nat) (bs : List Block) : Nat :=
  match bs.reverse.find? (fun b => b.mask.testBit d.num && decide (b.addr ≤ a) && decide (a < b.addr + b.data.length)) with
  | some b => b.ofs + 16 + (a - b.addr)
  | none => 0

/-- Steps 5 to 8 of R334: image and parameter set are checked; where both pass, the blocks are applied and locked, the
ranges and the admission are judged; PARAM_ACK is sent, and digests and pin record are made. PARAM_ACK names what
fails of the parameter set; where the image or the transfer alone has failed, nothing is applied, and it names that
reason with offset 0 (DEDUCED, log 165). -/
def LogicDie.bootVerify (x : LogicDie) (d : Ch) : LogicDie :=
  let found := x.checkFiles
  let x := { x with boot := { x.boot with fails := x.boot.fails ++ found.1 ++ found.2 } }
  let blocks := (blocksOf x.boot.params).1
  let r :=
    if found.2 ≠ [] then (x, 0, firstReason found.2)
    else if x.boot.fails ≠ [] then (x, 0, (firstReason x.boot.fails).map (fun q => (q.1, 0)))
    else
      let a := LogicDie.applyBlocks d blocks 0 x.takeHeader
      match a.2.2 with
      | some o => (a.1.addFail 7 o, a.2.1, some (7, o))
      | none =>
        let y := a.1.lockAll d
        let y := (y.badParams d).foldl (fun (y : LogicDie) w => y.addFail 8 (wordOfs d w blocks)) y
        let y := if y.is F.FOLD_STATUS_CFG_REJECT then y.addFail 9 0 else y
        (y, a.2.1, none)
  let x := r.1
  let ack := match r.2.2 with
    | some q => StileMsg.paramAck q.1 r.2.1 q.2
    | none => StileMsg.paramAck 0 r.2.1 0
  let x := { x with boot := { x.boot with
    phase := .tally
    blocks := r.2.1
    imgDigest := Config.sha384 x.boot.image
    parDigest := Config.sha384 x.boot.params
    pins := x.pinRecord } }
  (x.send ack).xsend (.files ⟨x.boot.imgDigest, x.boot.parDigest, x.boot.pins, x.twins⟩)

/-! ### Tally, verdict, start (R334 steps 9 to 11, R335, R336) -/

/-- The tally over a die's files and both pin records. -/
def LogicDie.tallyOf (x : LogicDie) (pinsA pinsB : List Nat) : Nat :=
  crc64 (x.boot.image ++ x.boot.params ++ pinsA ++ pinsB)

/-- The other die has failed, or the crosslink to it is not established: nothing more comes from it. -/
def LogicDie.peerLost (x : LogicDie) : Bool := x.boot.xlCut || x.boot.peerVerdict == some false

/-- Step 9 on a die (R335): with the other die's digests and pin record, it compares them and makes the tally, which
goes to the other die. -/
def LogicDie.bootTally (x : LogicDie) (d : Ch) : LogicDie :=
  match x.boot.peerFiles with
  | none => if x.peerLost then { x with boot := { x.boot with phase := .compare } } else x
  | some f =>
    let tally := match d with
      | .la => x.tallyOf x.boot.pins f.pins
      | .lb => x.tallyOf f.pins x.boot.pins
    let x := if x.boot.imgDigest = f.image ∧ x.boot.parDigest = f.params then x else x.addFail 0xA 0
    let x := if x.twins = f.twins then x else x.addFail 8 0
    let x := { x with boot := { x.boot with phase := .compare, tally := tally } }
    (x.p F.CK_RES_VALUE tally 3).xsend (.tally tally)

/-- The tallies are compared, and the die tells the other its own verdict (R309, R335). -/
def LogicDie.bootCompare (x : LogicDie) : LogicDie :=
  if x.boot.peerTally = none ∧ ¬ x.peerLost then x
  else
    let x := if x.boot.xlCut then x.addFail 0xD 0
      else if x.boot.peerTally.any (fun v => v != x.boot.tally) then x.addFail 0xB 0
      else x
    let x := if x.is F.FC_CTRL_LOCKED then x.addFail 0x10 0 else x
    { x with boot := { x.boot with phase := .verdict } }.xsend (.verdict (x.boot.fails == []))

/-- A die makes its verdict known (R336): STL_VERD and IMAGE_VERDICT. -/
def LogicDie.sendVerdict (x : LogicDie) (reason detail : Nat) : LogicDie :=
  let x := (x.p F.STL_VERD_VALID 1).p F.STL_VERD_PASS (b2n (reason == 0))
  let x := (x.p F.STL_VERD_REASON reason).p F.STL_VERD_DETAIL detail
  x.send (.imageVerdict reason detail x.boot.imgDigest x.boot.tally)

/-- A die that passes stores the retention check values (R391), sets RUN and the timebase (R47, R334), starts the
companion core (R76) and prepares the fold task's registers. -/
def LogicDie.bootStart (x : LogicDie) : LogicDie :=
  let x := { x with
    pw := { x.pw with chkCode := x.codeCheck, chkPins := crc64 x.pinRecord }
    boot := { x.boot with phase := .done } }
  let x := (x.p F.PWR_SAVE_RCHK 1).p F.STL_TALLY_TALLY x.boot.tally
  let x := match x.boot.sync with
    | some (time, at_) => x.p F.GT_TBASE_TIME (time + 80 + (x.now - at_))
    | none => x
  let x := if x.hdr.triad then (x.setDom 1 domOn 0).p F.PWR_DOM_TARGET domOn 1 else x
  let x := x.startFolds.setRun
  let w := Sparse.put (fun _ => 0#64) [] 31 (BitVec.ofNat 64 x.hdr.stackTop)
  { x with
    core := { x.core with w := w, wCommit := w, pc := x.hdr.entry }
    comp := { CompCore.reset with
      on := !x.hdr.triad, pc := x.hdr.compEntry
      w := Sparse.put (fun _ => 0#64) [] 31 (BitVec.ofNat 64 x.hdr.compStackTop) } }

/-- Steps 10 and 11 on a die (R309, R334, R336): with the other die's verdict it reports its own, 0x0E where only the
other failed; both PASS, and the collector not LOCKED, set RUN. A LOCKED that has come since the die told its verdict
makes it tell the other again. -/
def LogicDie.bootVerdict (x : LogicDie) : LogicDie :=
  if x.boot.peerVerdict = none ∧ ¬ x.boot.xlCut then x
  else
    let fails := if x.boot.fails = [] ∧ x.is F.FC_CTRL_LOCKED then [(0x10, 0)]
      else if x.boot.fails = [] ∧ x.boot.peerVerdict = some false then [(0xE, 0)]
      else x.boot.fails
    let x := if x.boot.fails = [] ∧ x.is F.FC_CTRL_LOCKED then x.xsend (.verdict false) else x
    match firstReason fails with
    | none => (x.sendVerdict 0 0).bootStart
    | some r => { x.sendVerdict r.1 r.2 with boot := { x.boot with phase := .hello, fails := fails } }

/-- The boot-time lane test of a die's end of segment q found `lanes` failing (R448): they go to the spares in order. -/
def LogicDie.bootLanes (x : LogicDie) (q : Nat) (lanes : List Nat) : LogicDie :=
  (List.range (segLanes q).2).foldl (fun (x : LogicDie) k =>
    match lanes[k]? with
    | some l => ((x.p F.BIST_REP_LANE l (repIx q k)).p F.BIST_REP_VALID 1 (repIx q k)).p F.BIST_REP_SPARE k (repIx q k)
    | none => x) x

/-- Steps 1 and 2 of R334: lane tests of the stile and crosslink ends (R448), then HELLO. -/
def LogicDie.bootHello (x : LogicDie) (d : Ch) (stile xl : List Nat) (t : Nat) : LogicDie :=
  let x := (x.bootLanes (1 + d.num) stile).bootLanes 3 xl
  let x := { x with boot := { x.boot with xlCut := decide ((segLanes 3).2 < xl.length), helloAt := t } }
  if (segLanes (1 + d.num)).2 < stile.length then { x with boot := { x.boot with phase := .cut } }
  else { x with boot := { x.boot with phase := .hello } }.sayHello x.boot.reason

/-- FIELD_BOOT (R334-R336, R448): the boot ROM of a die takes its next step. `stile`, `xl`: lanes of its stile link
and of the crosslink that failed their boot test twice. -/
def execFieldBoot (d : Ch) (stile : List (Fin 34)) (xl : List (Fin 101)) (t : Time) (s : State) :
    Host.Outcome State Fault Refusal :=
  let s := s.modDie d (·.at t)
  match (s.die d).boot.phase with
  | .scrub => .next (s.modDie d (fun x => x.bootHello d (stile.map Fin.val) (xl.map Fin.val) t))
  | .verify => .next (s.modDie d (fun x => x.bootVerify d))
  | .tally => .next (s.modDie d (fun x => x.bootTally d))
  | .compare => .next (s.modDie d (·.bootCompare))
  | .verdict => .next (s.modDie d (·.bootVerdict))
  | _ => .next s

/-- DOWNLOAD_TIMEOUT (R334): more than 100 ms between two download messages; the die abandons the download with reason
0x02 and waits for IMAGE_BEGIN again. -/
def execDownloadTimeout (d : Ch) (t : Time) (s : State) : Host.Outcome State Fault Refusal :=
  .next (s.modDie d (fun x =>
    let x := x.at t
    if (x.boot.phase = .image ∨ x.boot.phase = .params) ∧ x.boot.lastMsg + 100000000 < t then
      { x.sendVerdict 2 0 with boot := { x.boot with phase := .hello, fails := [(2, 0)] } }.xsend (.verdict false)
    else x))

/-- CROSSLINK_TIMEOUT (R336): 50 ms after HELLO the crosslink to the other channel is not established. -/
def execCrosslinkTimeout (d : Ch) (t : Time) (s : State) : Host.Outcome State Fault Refusal :=
  .next (s.modDie d (fun x =>
    let x := x.at t
    let p := x.boot.phase
    if (p = .hello ∨ p = .image ∨ p = .params ∨ p = .verify ∨ p = .tally ∨ p = .compare ∨ p = .verdict) ∧ x.boot.helloAt + 50000000 ≤ t then
      { x with boot := { x.boot with xlCut := true } }
    else x))

/-! ### Answers at the host die (R336, R338) -/

/-- The verdict of a die as the host die keeps it. -/
def HostDie.setVerd (h : HostDie) (l : Ch) (reason detail : Nat) : HostDie :=
  let pass := b2n (reason == 0)
  match l with
  | .la => (((h.p F.HSTL_VERDA_VALID 1).p F.HSTL_VERDA_PASS pass).p F.HSTL_VERDA_REASON reason).p F.HSTL_VERDA_DETAIL detail
  | .lb => (((h.p F.HSTL_VERDB_VALID 1).p F.HSTL_VERDB_PASS pass).p F.HSTL_VERDB_REASON reason).p F.HSTL_VERDB_DETAIL detail

/-- Both verdicts of a download are in (R336, R338). -/
def HostDie.endDownload (h : HostDie) : HostDie :=
  let q := h.down
  let pass := q.reasonA == 0 && q.reasonB == 0 && q.tallyA == q.tallyB
  let result := if q.reasonA = 0 ∨ q.reasonA = 0xE then q.reasonB else q.reasonA
  let h := ((h.p F.HSTL_DL_STAT_RESULT result).p F.HSTL_DL_STAT_BUSY 0).p F.HSTL_DL_STAT_DONE 1
  let h := (h.p F.HSTL_STAT_DL_BUSY 0).p F.HSTL_STAT_CACHE_VALID (b2n pass)
  let h := if pass then h.p F.HSTL_TALLY_TALLY q.tallyA else h
  { h with down := { q with busy := false, sending := false, got := 0 }, msix := h.msix ++ [3] }

/-- IMAGE_VERDICT (R336, R338): the host die receives a die's verdict; with the second the download ends. -/
def execImageVerdict (l : Ch) (t : Time) (s : State) : Host.Outcome State Fault Refusal :=
  let s := s.modHost (·.at t)
  match s.hostTake l (fun m => match m with | .imageVerdict _ _ _ _ => true | _ => false) with
  | some (.imageVerdict reason detail _ tally, s) =>
    .next (s.modHost (fun h =>
      let h := h.setVerd l reason detail
      if ¬ h.down.sending then h
      else
        let q := match l with
          | .la => { h.down with got := setBit h.down.got 0, reasonA := reason, tallyA := tally }
          | .lb => { h.down with got := setBit h.down.got 1, reasonB := reason, tallyB := tally }
        let h := { h with down := q }
        if q.got = 3 then h.endDownload else h))
  | _ => .next s

/-- PARAM_ACK (R327): the host die receives it into its ring. -/
def execParamAck (l : Ch) (t : Time) (s : State) : Host.Outcome State Fault Refusal :=
  let s := s.modHost (·.at t)
  match s.hostTake l (fun m => match m with | .paramAck _ _ _ => true | _ => false) with
  | some (_, s) => .next s
  | none => .next s

end Sys2Proof.Machine
end

