-- ==== Sys2Proof/Machine/EvSys.lean ====
section
/-! DEFINITION. Evpeal aspect and telegram instructions (R129-R131), system instructions and registers (R80-R82, R132),
companion interrupts (R104), check-value, log, timer and power-domain instructions (R133-R136). -/

namespace Sys2Proof.Machine

/-! ### Aspects and telegrams -/

/-- ASPECT (R129): output word 0x018 := the aspect number; a journaled store. -/
def execIAspect (c : Ctx) (aspect : Fin 64) (s : State) : Host.Outcome State Fault Refusal :=
  runInstr c .foldOnly [] [] (fun _ => 1) legal true
    (fun x => .done (x.imageStore c.die 0x20001018 (BitVec.ofNat 64 aspect.val))) s

/-- APROOF (R129): safe bit 0 := the proof code of the aspect; the other bits safe-0. -/
def execIAproof (c : Ctx) (wd : Fin 32) (aspect : Fin 64) (s : State) : Host.Outcome State Fault Refusal :=
  runInstr c .foldOnly [] [wd] (fun _ => cyc c.die 1 2) legal false
    (fun x =>
      let code := safeCode (x.ld64 (0x20000070 + 8 * (aspect.val / 32))) (aspect.val % 32)
      .done (x.setW false wd (setCode safeZero 0 code))) s

/-- `n` LDD loads from `a` upward (R130), the first of them word `k` that the instruction reads: the bytes read, or
the trap of the first load that takes one. -/
def LogicDie.loadRun (c : Ctx) (base : Fin 32) (k : Nat) : Nat → Nat → LogicDie → Trap ⊕ (LogicDie × List Nat)
  | 0, _, x => .inr (x, [])
  | n + 1, a, x =>
    match x.load c (c.word k) base a 8 with
    | .inl t => .inl t
    | .inr (y, v) =>
      match LogicDie.loadRun c base (k + 1) n (a + 8) y with
      | .inl t => .inl t
      | .inr (z, bs) => .inr (z, bytesLE 8 v ++ bs)

/-- What ECC finds in the memory word that a store of the fold task journals (R42, R86, R129): the trap, or what follows. -/
def LogicDie.storeRead (x : LogicDie) (c : Ctx) (f : Finding) (a : Nat) : Trap ⊕ LogicDie :=
  match (x.region a).memory with
  | none => .inr x
  | some m =>
    if f.kind = .lasting then .inl ⟨.memecc, a, x.loadMem c f a m, a⟩
    else .inr (x.eccSeen c.die f.kind (x.loadMem c f a m) a (x.rereadCycles c.die (x.region a)) c.companion)

/-- `n` STD stores of a byte string from `a` upward (R131), zero-padded, the first of them word `k` that the
instruction reads. They issue one a cycle from the instruction's issue on (DESIGN CHOICE, log 158). The traps of a
word come before those of the next word, whatever their classes (DESIGN CHOICE, log 156). -/
def LogicDie.storeRun (c : Ctx) (base : Fin 32) (k : Nat) : Nat → Nat → List Nat → LogicDie → Trap ⊕ LogicDie
  | 0, _, _, x => .inr x
  | n + 1, a, bs, x =>
    match x.store c base a 8 (BitVec.ofNat 64 (ofBytesLE (bs.take 8))) with
    | .inl t => .inl t
    | .inr _ =>
      match x.storeRead c (c.word k) a with
      | .inl t => .inl t
      | .inr y =>
        match y.store c base a 8 (BitVec.ofNat 64 (ofBytesLE (bs.take 8))) with
        | .inl t => .inl t
        | .inr z => LogicDie.storeRun c base (k + 1) n (a + 8) (bs.drop 8) (z.spend 1)

/-- Hold a telegram for commit (R127): a later one for the same connection replaces the earlier. -/
def LogicDie.holdTel (x : LogicDie) (h : HeldTel) : LogicDie :=
  { x with core := { x.core with tels := x.core.tels.filter (fun t => t.conn != h.conn) ++ [h] } }

/-- The status of a TSEND (R130) by its operands and configuration, or that it is held. -/
def LogicDie.tsendStatus (x : LogicDie) (wb : Nat) : Nat :=
  if wb / 2 ^ 8 % 128 > 64 ∨ wb / 2 ^ 15 ≠ 0 then 3
  else if ¬ x.txConfigured (wb % 256) then 2
  else if x.core.tels.any (fun t => t.conn == wb % 256) then 1
  else 0

/-- TSEND (R130). -/
def execITsend (c : Ctx) (wd wa wb : Fin 32) (s : State) : Host.Outcome State Fault Refusal :=
  runInstr c .foldOnly [wa, wb] [wd]
    (fun x =>
      let b := (x.w false wb).toNat
      cyc c.die 4 5 + (if x.tsendStatus b ≥ 2 then 0 else (b / 2 ^ 8 % 128 + 7) / 8)) legal false
    (fun x =>
      let b := (x.w false wb).toNat
      let len := b / 2 ^ 8 % 128
      let st := x.tsendStatus b
      if st ≥ 2 then .done (x.setW false wd (BitVec.ofNat 64 st))
      else
        match x.loadRun c wa 0 ((len + 7) / 8) (x.w false wa).toNat with
        | .inl t => .trap t
        | .inr (y, bs) => .done ((y.holdTel ⟨b % 256, bs.take len⟩).setW false wd (BitVec.ofNat 64 st))) s

/-- TRECV (R131): the held agreed payload of a connection goes to wa as STD stores; wd takes the status. -/
def execITrecv (c : Ctx) (wd wa wb : Fin 32) (s : State) : Host.Outcome State Fault Refusal :=
  runInstr c .foldOnly [wa, wb] [wd]
    (fun _ => cyc c.die 4 5) legal true
    (fun x =>
      let n := (x.w false wb).toNat % 256
      let bs := x.recvPayload n
      match x.storeRun c wa 0 ((bs.length + 7) / 8) (x.w false wa).toNat bs with
      | .inl t => .trap t
      | .inr y => .done (y.setW false wd (BitVec.ofNat 64 (x.recvStatus n)))) s

/-! ### System registers (R80-R82) -/

/-- The value of a system register as the executing role reads it; nothing where the role has no access (R80). -/
def LogicDie.sysReg (x : LogicDie) (d : Ch) (companion : Bool) (i : Nat) : Option Word :=
  match i, companion with
  | 0x000, _ => some (BitVec.ofNat 64 (b2n companion * 2 + d.num * 4 + b2n x.hdr.triad * 8))
  | 0x001, _ => some (if companion then 2#64 else 1#64)
  | 0x002, false => some (BitVec.ofNat 64 x.recFold)
  | 0x002, true => some (x.rd .FOLD_NUMBER)
  | 0x003, false => some (BitVec.ofNat 64 x.core.attempt)
  | 0x004, false => some (BitVec.ofNat 64 (x.core.cycles % 2 ^ 24))
  | 0x005, false => some (BitVec.ofNat 64 ((x.budget - x.core.cycles) % 2 ^ 24))
  | 0x008, _ => some (BitVec.ofNat 64 x.now)
  | 0x009, false => some (BitVec.ofNat 64 x.fold.start)
  | 0x009, true => some (BitVec.ofNat 64 x.fold.lastStart)
  | 0x010, false => some (BitVec.ofNat 64 x.hdr.spLo)
  | 0x010, true => some x.comp.spLo
  | 0x011, false => some (BitVec.ofNat 64 x.hdr.spHi)
  | 0x011, true => some x.comp.spHi
  | 0x012, false => some (BitVec.ofNat 64 x.core.callDepth)
  | 0x013, false => some (BitVec.ofNat 64 x.core.loops.length)
  | 0x018, false => some x.core.trapCause
  | 0x019, false => some x.core.trapPc
  | 0x01A, false => some x.core.trapAddr
  | 0x020, false => some x.core.events
  | 0x021, false => some 0#64
  | 0x030, true => some x.comp.irqEnable
  | 0x031, true => some (BitVec.ofNat 64 x.irqLines)
  | 0x032, true => some x.comp.irqVbase
  | 0x033, true => some x.comp.trapVbase
  | 0x034, true => some x.comp.estatus
  | 0x035, true => some x.comp.epc
  | 0x036, true => some x.comp.ecause
  | 0x037, true => some x.comp.eaddr
  | 0x040, _ => some (BitVec.ofNat 64 x.hdr.codeSplit)
  | 0x041, _ => some (BitVec.ofNat 64 x.hdr.dataSplit)
  | _, _ => none

/-- A system register as the executing core reads it (R80): a host core reads those of the companion role, and what
tells of a logic die is left open there. -/
def LogicDie.sysFor (x : LogicDie) (c : Ctx) (i : Nat) : Option Word :=
  match c.host with
  | none => x.sysReg c.die c.companion i
  | some n =>
    if i = 0x000 ∨ i = 0x001 ∨ i = 0x009 ∨ i = 0x040 ∨ i = 0x041 then some (Config.hostSystem n.val i x.now)
    else x.sysReg c.die c.companion i

/-- MOVS (R132). -/
def execIMovs (c : Ctx) (wd : Fin 32) (index : Fin 4096) (s : State) : Host.Outcome State Fault Refusal :=
  runInstr c .both [] [wd]
    (fun _ => if index.val = 0x008 ∨ index.val = 0x020 then cyc c.die 8 10 else cyc c.die 2 3) legal false
    (fun x =>
      match x.sysFor c index.val with
      | some v => .done (x.setW c.companion wd v)
      | none => .trap (Trap.plain .priv)) s

/-- The reserved bits of a writable system register; nothing where the role may not write it (R80, R81, R132). The low
8 bits of the 256-byte aligned bases count as reserved (DESIGN CHOICE, log 21). -/
def sysWritable (companion : Bool) (i : Nat) : Option Nat :=
  match i, companion with
  | 0x021, false => some (maskBits 63 39)
  | 0x010, true | 0x011, true | 0x030, true | 0x035, true => some 0
  | 0x032, true | 0x033, true => some (maskBits 7 0)
  | 0x034, true => some (maskBits 63 2)
  | _, _ => none

/-- The companion core writes one of its system registers. -/
def CompCore.setSys (k : CompCore) (i : Nat) (v : Word) : CompCore :=
  if i = 0x010 then { k with spLo := v }
  else if i = 0x011 then { k with spHi := v }
  else if i = 0x030 then { k with irqEnable := v }
  else if i = 0x032 then { k with irqVbase := v }
  else if i = 0x033 then { k with trapVbase := v }
  else if i = 0x034 then { k with estatus := v }
  else if i = 0x035 then { k with epc := v }
  else k

/-- MOVT (R81, R82, R132): a write that sets a reserved bit is discarded as an access error, whose address is the
register's index (DESIGN CHOICE, log 132); the fold task's EVACK is held until commit. -/
def execIMovt (c : Ctx) (wa : Fin 32) (index : Fin 4096) (s : State) : Host.Outcome State Fault Refusal :=
  runInstr c .both [wa] [] (fun _ => cyc c.die 2 3) legal false
    (fun x =>
      let v := x.w c.companion wa
      match sysWritable c.companion index.val with
      | none => .trap (Trap.plain .priv)
      | some reserved =>
        if Nat.land v.toNat reserved ≠ 0 then
          .denied x index.val
        else if c.companion then .done { x with comp := x.comp.setSys index.val v }
        else .done (x.holdStore c.die (.evack v))) s

/-- RETE (R85, R132): return from a companion interrupt or trap; IE := PIE. A misaligned EPC is a misaligned jump target. -/
def execIRete (c : Ctx) (s : State) : Host.Outcome State Fault Refusal :=
  runInstr c .compOnly [] [] (fun _ => 0) legal false
    (fun x =>
      if x.comp.epc.toNat % 4 ≠ 0 then .trap (Trap.plain .align)
      else .jump { x with comp := { x.comp with
        estatus := Word.setBits x.comp.estatus 0 0 (Word.bits x.comp.estatus 1 1) } } x.comp.epc.toNat) s

/-- WAITEV (R104): the companion core halts until an enabled line is pending. -/
def execIWaitev (c : Ctx) (s : State) : Host.Outcome State Fault Refusal :=
  runInstr c .compOnly [] [] (fun _ => 0) legal false
    (fun x => .done { x with comp := { x.comp with waiting := !x.lineReady } }) s

/-- The lowest set bit of a number below `n`. -/
def lowestBit (n v : Nat) : Option Nat := (List.range n).find? (fun i => v.testBit i)

/-- The lowest pending enabled line is taken while IE is 1 (R104). -/
def LogicDie.takeIrq (x : LogicDie) : LogicDie :=
  if Word.bits x.comp.estatus 0 0 = 0 then x
  else
    match lowestBit 64 (Nat.land x.irqLines x.comp.irqEnable.toNat) with
    | none => x
    | some l => x.compEnter x.comp.pc l ((x.comp.irqVbase.toNat + 8 * l) % 2 ^ 64)

/-- INTERRUPT (R104): the lowest pending enabled line is taken at an instruction boundary while IE is 1. -/
def execInterrupt (core : IrqCore) (t : Time) (s : State) : Host.Outcome State Fault Refusal :=
  match core with
  | .companion d =>
    .next (s.modDie d (fun x =>
      let x := x.at t
      if ¬ x.compRuns ∨ x.coreHalted 2 then x else x.takeIrq))
  | .host n =>
    .next (s.modHost (fun h =>
      let h := h.at t
      if ¬ h.coreRuns n.val ∨ ¬ (h.core n.val).on then h
      else h.setCore n.val (h.coreDie (h.core n.val)).takeIrq.comp))

/-! ### Check values, log, timers, domains (R133-R136) -/

/-- A check-value step of the fold task is held; beyond 64 it is discarded, the unit's result of that check becomes
invalid, and source 41 is raised (R127). -/
def LogicDie.holdCk (x : LogicDie) (d : Ch) (unit : Nat) (k : CkStep) : LogicDie :=
  if x.core.cks.length < 64 then { x with core := { x.core with cks := x.core.cks ++ [k] } }
  else ({ x with core := { x.core with ckLost := unit :: x.core.ckLost } }).raise d 41 unit

/-- CKIN (R133): b1 + 1 bytes of wa go to the unit, least significant first. -/
def execICkin (c : Ctx) (unit : Fin 4) (b1 : Fin 8) (wa : Fin 32) (s : State) : Host.Outcome State Fault Refusal :=
  runInstr c .both [wa] [] (fun _ => 1) (dieOnly c) false
    (fun x =>
      let bytes := bytesLE (b1.val + 1) (x.w c.companion wa).toNat
      if c.companion then .done (x.ckFeed c.die 2 unit.val bytes)
      else .done (x.holdCk c.die unit.val (.feed unit.val bytes))) s

/-- CKEND (R133): the companion core finishes the check at once and takes the result; in the fold task the end is held
and wd := 0. -/
def execICkend (c : Ctx) (unit : Fin 4) (wd : Fin 32) (s : State) : Host.Outcome State Fault Refusal :=
  runInstr c .both [] [wd] (fun _ => 1) (dieOnly c) false
    (fun x =>
      if c.companion then
        let y := x.ckFinish c.die 2 unit.val
        .done (y.setW true wd (if x.ckOwned 2 unit.val then y.ckRes unit.val else 0#64))
      else .done ((x.holdCk c.die unit.val (.finish unit.val)).setW false wd 0#64)) s

/-- CKRD (R133): the result of the last completed check. -/
def execICkrd (c : Ctx) (unit : Fin 4) (wd : Fin 32) (s : State) : Host.Outcome State Fault Refusal :=
  runInstr c .both [] [wd] (fun _ => cyc c.die 8 10) (dieOnly c) false
    (fun x => .done (x.setW c.companion wd (x.ckRes unit.val))) s

/-- LOG (R134): code from 0x8000 up; held in the fold task (16 records, then counted in DROP), at once on the companion
core with the last committed fold number. -/
def execILog (c : Ctx) (wa wb : Fin 32) (code : Fin 65536) (s : State) : Host.Outcome State Fault Refusal :=
  runInstr c .both [wa, wb] [] (fun _ => cyc c.die 2 3) (fun _ => decide (code.val < 0x8000) || c.host.isSome) false
    (fun x =>
      let data := (x.w c.companion wa).toNat + ((x.w c.companion wb).toNat % 65536) * 2 ^ 64
      if c.companion then .done (x.log c.die x.now (x.g F.FOLD_NUMBER_NUMBER) code.val 9 data)
      else if x.core.logs.length < 16 then
        .done { x with core := { x.core with logs := x.core.logs ++ [⟨code.val, data⟩] } }
      else .done (x.count F.LOG_STAT_DROP)) s

/-- A timer instruction of the companion core needs the timer's CWR; without it the instruction traps as a store to
the register it names would (R135): GT_CNT for GTRD and GTSNAP, the compare register for GTCMP. -/
def LogicDie.timerDenied (x : LogicDie) (companion : Bool) (n : Nat) : Bool :=
  companion && x.g F.GT_CFG_CWR n == 0

/-- GTRD (R135): the count of GTn. -/
def execIGtrd (c : Ctx) (n : Fin 16) (wd : Fin 32) (s : State) : Host.Outcome State Fault Refusal :=
  runInstr c .both [] [wd] (fun _ => cyc c.die 8 10) (dieOnly c) true
    (fun x =>
      if x.timerDenied c.companion n.val then .trap (Trap.atAddr .priv (regAddr .GT_CNT n.val))
      else .done (x.setW c.companion wd (BitVec.ofNat 64 (x.g F.GT_CNT_VALUE n.val)))) s

/-- GTSNAP (R135): latches the cascade that holds GTn and returns the counts of GTn+1 and GTn; n odd is unassigned. -/
def execIGtsnap (c : Ctx) (n : Fin 16) (wd : Fin 32) (s : State) : Host.Outcome State Fault Refusal :=
  runInstr c .both [] [wd] (fun _ => cyc c.die 10 12) (fun _ => decide (n.val % 2 = 1) || c.host.isSome) true
    (fun x =>
      if x.timerDenied c.companion n.val then .trap (Trap.atAddr .priv (regAddr .GT_CNT n.val))
      else
        let y := x.gtSnap n.val
        .done (y.setW c.companion wd
          (BitVec.ofNat 64 (x.g F.GT_CNT_VALUE n.val + x.g F.GT_CNT_VALUE (n.val + 1) * 2 ^ 32)))) s

/-- GTCMP0 and GTCMP1 (R135): a held register store in the fold task, the live comparator on the companion core. -/
def runGtcmp (c : Ctx) (r : Reg) (n : Fin 16) (wa : Fin 32) (s : State) : Host.Outcome State Fault Refusal :=
  runInstr c .both [wa] [] (fun _ => 1) (dieOnly c) true
    (fun x =>
      let v := (x.w c.companion wa).toNat % 2 ^ 32
      if x.timerDenied c.companion n.val then .trap (Trap.atAddr .priv (regAddr r n.val))
      else if c.companion then .done (x.gtWriteCmp r n.val v)
      else .done (x.holdStore c.die (.store (regAddr r n.val) 8 (BitVec.ofNat 64 v)))) s

/-- GTCMP0 (R135). -/
def execIGtcmp0 (c : Ctx) (n : Fin 16) (wa : Fin 32) (s : State) : Host.Outcome State Fault Refusal :=
  runGtcmp c .GT_CMP0 n wa s

/-- GTCMP1 (R135). -/
def execIGtcmp1 (c : Ctx) (n : Fin 16) (wa : Fin 32) (s : State) : Host.Outcome State Fault Refusal :=
  runGtcmp c .GT_CMP1 n wa s

/-- DOMAIN (R136): a domain request is held; status 1 for an unassigned code or state, 2 past 8 requests. -/
def execIDomain (c : Ctx) (wd wa wb : Fin 32) (s : State) : Host.Outcome State Fault Refusal :=
  runInstr c .foldOnly [wa, wb] [wd] (fun _ => cyc c.die 2 3) legal false
    (fun x =>
      let a := (x.w false wa).toNat
      let b := (x.w false wb).toNat
      if a ≥ 10 ∨ b ≥ 3 then .done (x.setW false wd 1#64)
      else if x.core.doms.length ≥ 8 then .done (x.setW false wd 2#64)
      else .done (({ x with core := { x.core with doms := x.core.doms ++ [DomReq.mk a b] } } : LogicDie).setW false wd 0#64)) s

end Sys2Proof.Machine
end

