-- ==== Sys2Proof/Machine/Snap.lean ====
section
/-! DEFINITION. The snapshot of the host die: pairing and publication (R36, R324), buffers and lease (R64-R68, R70), the mirror
in host memory (R343, R344). -/

namespace Sys2Proof.Machine

/-! ### Buffers and lease (R64-R68) -/

/-- A byte of a snapshot buffer. -/
def snapByte (m : Sparse Byte) (a : Nat) : Nat := (Sparse.get (fun _ => 0#8) m a).toNat

/-- The current buffer. -/
def HostDie.snapBuf (h : HostDie) : Sparse Byte := if h.snap.curB then h.snap.bufB else h.snap.bufA

/-- The buffer of the last publication (R65, R341): during a lease it is the idle one, once a fold has been published
into it. -/
def HostDie.lastBuf (h : HostDie) : Sparse Byte := if h.snap.curB != h.snap.newer then h.snap.bufB else h.snap.bufA

/-- A field of the last publication. -/
def HostDie.snapField (h : HostDie) (a n : Nat) : Nat := ofBytesLE ((List.range n).map (fun i => snapByte h.lastBuf (a + i)))

/-- Bytes go into the idle buffer. -/
def SnapSt.fillIdle (q : SnapSt) (bs : List Nat) : SnapSt :=
  if q.curB then { q with bufA := pokeBytes [] 0 bs } else { q with bufB := pokeBytes [] 0 bs }

/-- A read of FOLD_SNAP_LEASE (R65): it grants a lease where none is held. -/
def HostDie.leaseRead (h : HostDie) : HostDie :=
  match h.snap.lease with
  | some _ => h
  | none =>
    let id := h.snap.lastId % 0xFFFF + 1
    let h := (h.p F.FOLD_SNAP_LEASE_LEASE_ID id).p F.FOLD_SNAP_CHECK_LEASE_ID id
    { h with snap := { h.snap with lease := some (id, h.now), lastId := id } }

/-- A lease ends (R65): the buffers swap if the idle one holds a newer fold. -/
def HostDie.leaseEnd (h : HostDie) : HostDie :=
  match h.snap.lease with
  | none => h
  | some _ =>
    let h := (h.p F.FOLD_SNAP_LEASE_LEASE_ID 0).p F.FOLD_SNAP_CHECK_LEASE_ID 0
    { h with snap := { h.snap with lease := none, curB := h.snap.curB != h.snap.newer, newer := false } }

/-- FOLD_SNAP_LEASE (R65): a read of the register. -/
def execFoldSnapLease (t : Time) (s : State) : Host.Outcome State Fault Refusal :=
  runHost t s (fun h =>
    let h := h.leaseRead
    { h with answer := bytesLE 8 (h.rd .FOLD_SNAP_LEASE).toNat })

/-- A write of 1 to FOLD_SNAP_RELEASE (R65, R66): the lease ends; where it has expired in the same cycle, EXPIRED is
not set. -/
def HostDie.leaseRelease (h : HostDie) : HostDie :=
  let h := if h.snap.lease = none ∧ h.snap.expiredAt = some h.now then
      { h.p F.FOLD_SNAP_STATUS_EXPIRED 0 with snap := { h.snap with expiredAt := none } }
    else h
  h.leaseEnd

/-- FOLD_SNAP_RELEASE (R65, R66): a write of 1 ends the lease. -/
def execFoldSnapRelease (t : Time) (s : State) : Host.Outcome State Fault Refusal := runHost t s (·.leaseRelease)

/-- The lease expires: EXPIRED is set, and the instant is kept where it was not set before. -/
def HostDie.leaseExpires (h : HostDie) : HostDie :=
  let fresh := if h.is F.FOLD_SNAP_STATUS_EXPIRED then none else some h.now
  { (h.p F.FOLD_SNAP_STATUS_EXPIRED 1).leaseEnd with snap := { h.leaseEnd.snap with expiredAt := fresh } }

/-- LEASE_EXPIRY (R65): LEASE_US after the grant; LEASE_US as it stands at the expiry (DESIGN CHOICE, log 131: the
spec does not say what a write of FOLD_SNAP_CFG during a lease changes). -/
def execLeaseExpiry (t : Time) (s : State) : Host.Outcome State Fault Refusal :=
  runHost t s (fun h =>
    match h.snap.lease with
    | some (_, at_) =>
      if at_ + h.g F.FOLD_SNAP_CFG_LEASE_US * 1000 ≤ t then h.leaseExpires else h
    | none => h)

/-- SNAPSHOT_READ (R64, R68): a PCIe read request to BAR2, served from the current buffer. -/
def execSnapshotRead (ofs : Fin 1048576) (n : Fin 4097) (t : Time) (s : State) : Host.Outcome State Fault Refusal :=
  runHost t s (fun h => { h with answer := (List.range n.val).map (fun i => snapByte h.snapBuf (ofs.val + i)) })

/-- BAR2_WRITE (R329): discarded, host source 33. -/
def execBar2Write (ofs : Fin 1048576) (t : Time) (s : State) : Host.Outcome State Fault Refusal :=
  runHost t s (fun h => h.accessError .hostBar ofs.val)

/-! ### The mirror (R343, R344) -/

/-- A publication falls due at the mirror: the first since EN was set, and every EVERY-th after it. `master`: the
endpoint can write host memory. -/
def HostDie.mirror (h : HostDie) (bs : List Nat) (number : Nat) (master : Bool) : HostDie :=
  if ¬ h.is F.HSTL_MIR_CFG_EN then h
  else
    let k := h.snap.pubs
    let h := { h with snap := { h.snap with pubs := k + 1 } }
    if k % max 1 (h.g F.HSTL_MIR_CFG_EVERY) ≠ 0 then h
    else if h.snap.slot ≠ none then h.count F.HSTL_MIR_STAT_SKIP
    else if ¬ master then h.count F.HSTL_MIR_STAT_DROP
    else
      let i := h.snap.nextSlot
      let a := h.g F.HSTL_MIR_BASE_BASE * 4096 + i * 0x480
      { h with
        posted := h.posted ++ [(a + 0x440, bytesLE 8 0), (a, bs.take 0x440), (a + 0x440, bytesLE 8 number)]
        snap := { h.snap with slot := some (i, number), nextSlot := (i + 1) % max 1 (h.g F.HSTL_MIR_CFG_SLOTS) } }

/-- MIRROR_SLOT_COMPLETE (R344): the writes of a slot are done. -/
def execMirrorSlotComplete (t : Time) (s : State) : Host.Outcome State Fault Refusal :=
  runHost t s (fun h =>
    match h.snap.slot with
    | none => h
    | some (i, number) =>
      let h := { h with snap := { h.snap with slot := none } }
      let h := (h.p F.HSTL_MIR_HEAD_NUMBER number).p F.HSTL_MIR_STAT_LAST i
      if h.is F.HSTL_MIR_CFG_IRQ then { h with msix := h.msix ++ [1] } else h)

/-! ### Publication (R36, R324) -/

/-- A word of a FOLD_DONE payload. -/
def FoldDone.word (f : FoldDone) (i : Nat) : Nat := (f.words.getD i 0#64).toNat

/-- The bytes of a publication (R68, R324). -/
def publication (a b : FoldDone) (missed : Bool) : List Nat :=
  let bytes := fun (f : FoldDone) (lo n : Nat) => ((List.range n).map (fun i => bytesLE 8 (f.word (lo + i)))).flatten
  let flags := Nat.land (a.word 4 / 2 ^ 32) (b.word 4 / 2 ^ 32) % 4 + 4 * b2n missed
  bytes a 0 4 ++ bytesLE 4 (a.word 4) ++ bytesLE 4 flags ++ List.replicate 24 0 ++ bytes a 8 64 ++ bytes b 8 64 ++
    bytesLE 8 (a.word 0)

/-- A fold is published (R64-R66, R344): into the idle buffer, which becomes current unless a lease is held; one
granted in the same cycle freezes the buffer that this publication makes current. -/
def HostDie.publish (h : HostDie) (a b : FoldDone) (master : Bool) : HostDie :=
  let bs := publication a b h.snap.missed
  let q : SnapSt := { h.snap.fillIdle bs with missed := false }
  let free := match q.lease with | none => true | some (_, at_) => at_ == h.now && !q.newer
  let q : SnapSt := if free then { q with curB := !q.curB, newer := false } else { q with newer := true }
  let h := { h with snap := q }
  (h.p F.FOLD_SNAP_LAST_NUMBER (a.word 0)).mirror bs (a.word 0) master

/-- A fold is withheld (R36). -/
def HostDie.withhold (h : HostDie) (number : Nat) : HostDie := (h.p F.FOLD_SNAP_STATUS_MISMATCH 1).raise 32 number

/-- The FOLD_DONE of a channel that waits for its partner. -/
def SnapSt.wait (q : SnapSt) : Ch → Option FoldDone
  | .la => q.waitA
  | .lb => q.waitB

/-- Replace it. -/
def SnapSt.setWait (q : SnapSt) (l : Ch) (f : Option FoldDone) : SnapSt :=
  match l with
  | .la => { q with waitA := f }
  | .lb => { q with waitB := f }

/-- A FOLD_DONE reaches the host die (R36, R61, R324). -/
def HostDie.takeFoldDone (h : HostDie) (l : Ch) (f : FoldDone) (master : Bool) : HostDie :=
  if f.missed then { h with snap := { h.snap with missed := true } }
  else
    let h := match h.snap.wait l with
      | some old => h.withhold (old.word 0)
      | none => h
    match h.snap.wait (other l) with
    | some g =>
      if g.word 0 = f.word 0 then
        let h := { h with snap := (h.snap.setWait .la none).setWait .lb none }
        if g.word 3 = f.word 3 then
          (match l with
          | .la => h.publish f g master
          | .lb => h.publish g f master)
        else h.withhold (f.word 0)
      else { h with snap := h.snap.setWait l (some f) }
    | none => { h with snap := h.snap.setWait l (some f) }

/-- FOLD_DONE (R36, R324, R344): a channel's message reaches the host die. `master`: the PCIe endpoint can write host
memory. -/
def execFoldDone (l : Ch) (master : Bool) (t : Time) (s : State) : Host.Outcome State Fault Refusal :=
  let s := s.modHost (·.at t)
  match s.incoming l true with
  | some (.foldDone f) =>
    .next ((s.accepted l true).modHost (fun h => { h with folds := setBit h.folds l.num }.takeFoldDone l f master))
  | _ => .next s

end Sys2Proof.Machine
end

