-- ==== Sys2Proof/Machine/Req.lean ====
section
/-! DEFINITION. Host requests (R340-R342, R345): STL_REQ_CMD on the host die, HOST_REQ at a logic die, replies and timeouts. -/

namespace Sys2Proof.Machine

/-! ### The host die's side (R341, R342, R345) -/

/-- The first fold-start instant, by the last publication's cell time and period, at least 50 µs after `t` (R341). -/
def HostDie.startInstant (h : HostDie) (t : Nat) : Nat :=
  let f := h.snapField 8 8
  let p := h.snapField 0x20 4 * 1000
  if t + 50000 ≤ f then f else f + ((t + 50000 - f + p - 1) / p) * p

/-- A START that is refused, since nothing has been published (R341). -/
def HostDie.refuseStart (h : HostDie) : HostDie :=
  let h := (h.p F.HSTL_REQ_STAT_STATA 4).p F.HSTL_REQ_STAT_STATB 4
  (h.setDone .la).setDone .lb

/-- A request goes to the dies of `dies` (bit 0 LA, bit 1 LB). -/
def HostDie.sendReq (h : HostDie) (op dies tag addr data : Nat) : HostDie :=
  let h := { h with req := ⟨op, h.now, dies, if op = 4 then 0 else dies, 0, 0⟩ }
  let h := h.p F.HSTL_REQ_CMD_BUSY (b2n (decide (dies ≠ 0)))
  let h := if dies.testBit 0 then h.send .la (.hostReq op tag addr data) else h
  if dies.testBit 1 then h.send .lb (.hostReq op tag addr data) else h

/-- A write of STL_REQ_CMD (R341, R342, R345): an access error while a request is busy, or with GO and an unlisted OP. -/
def HostDie.writeReq (h : HostDie) (op dies tag : Nat) (go : Bool) (p : Party) : HostDie :=
  if h.is F.HSTL_REQ_CMD_BUSY ∨ (go ∧ (op = 0 ∨ 5 ≤ op)) then h.accessError p (regAddr .HSTL_REQ_CMD 0)
  else
    let h := ((h.p F.HSTL_REQ_CMD_OP op).p F.HSTL_REQ_CMD_DIES dies).p F.HSTL_REQ_CMD_TAG tag
    if ¬ go then h
    else if op = 1 then h.sendReq 1 dies tag (h.g F.HSTL_REQ_ADDR_VALUE) 0
    else if op = 2 then h.sendReq 2 dies tag (h.g F.HSTL_REQ_ADDR_VALUE) (h.g F.HSTL_REQ_DATA_VALUE)
    else if op = 3 then
      if h.snapField 0x20 4 = 0 then h.refuseStart
      else
        let i := h.startInstant h.now
        (h.p F.HSTL_REQ_DATA_VALUE i).sendReq 3 3 tag i 0
    else h.sendReq 4 3 tag 0 0

/-- STL_REQ_READ (R340, R345): a write of STL_REQ_CMD with GO. -/
def execStlReqRead (dies : Fin 4) (tag : Fin 65536) (party : Party) (t : Time) (s : State) :
    Host.Outcome State Fault Refusal :=
  runHost t s (fun h => h.writeReq 1 dies.val tag.val true party)

/-- STL_REQ_WRITE (R340, R345). -/
def execStlReqWrite (dies : Fin 4) (tag : Fin 65536) (party : Party) (t : Time) (s : State) :
    Host.Outcome State Fault Refusal :=
  runHost t s (fun h => h.writeReq 2 dies.val tag.val true party)

/-- STL_REQ_START (R341). -/
def execStlReqStart (tag : Fin 65536) (party : Party) (t : Time) (s : State) : Host.Outcome State Fault Refusal :=
  runHost t s (fun h => h.writeReq 3 3 tag.val true party)

/-- STL_REQ_RESTART (R342). -/
def execStlReqRestart (tag : Fin 65536) (party : Party) (t : Time) (s : State) : Host.Outcome State Fault Refusal :=
  runHost t s (fun h => h.writeReq 4 3 tag.val true party)

/-- The status field of a die in STL_REQ_STAT. -/
def reqStat : Ch → Fld
  | .la => F.HSTL_REQ_STAT_STATA
  | .lb => F.HSTL_REQ_STAT_STATB

/-- BUSY clears once no die is awaited. -/
def HostDie.reqSettled (h : HostDie) : HostDie :=
  if h.req.unacked = 0 ∧ h.req.unanswered = 0 then h.p F.HSTL_REQ_CMD_BUSY 0 else h

/-- HOST_REQ_REPLY (R345): a die's reply; one that is no longer awaited has no effect. -/
def execHostReqReply (l : Ch) (t : Time) (s : State) : Host.Outcome State Fault Refusal :=
  let s := s.modHost (·.at t)
  match s.incoming l true with
  | some (.hostRep op status _ _ data) =>
    .next ((s.accepted l true).modHost (fun h =>
      if ¬ h.req.unanswered.testBit l.num then h
      else
        let h := { h with req := { h.req with
          unanswered := clrBit h.req.unanswered l.num, unacked := clrBit h.req.unacked l.num } }
        let h := h.p (reqStat l) status
        let h := if op = 1 then h.p (match l with | .la => F.HSTL_RSPD_A_VALUE | .lb => F.HSTL_RSPD_B_VALUE) data else h
        (h.setDone l).reqSettled))
  | _ => .next s

/-- REQUEST_TIMEOUT (R345): a die has not acknowledged within 100 µs of GO, so that the request is not sent later, or has not
replied within 100 µs of its acknowledgement. -/
def execRequestTimeout (l : Ch) (t : Time) (s : State) : Host.Outcome State Fault Refusal :=
  runHost t s (fun h =>
    let n := l.num
    let q := h.req
    let ackAt := match l with | .la => q.ackAtA | .lb => q.ackAtB
    let late := (q.unacked.testBit n && decide (q.goAt + 100000 ≤ t)) ||
      (!q.unacked.testBit n && q.unanswered.testBit n && decide (ackAt + 100000 ≤ t))
    if ¬ late then h
    else
      let e := h.link l
      let h := h.setLink l { e with queue := e.queue.filter (fun m => match m with | .hostReq _ _ _ _ => false | _ => true) }
      let h := { h with req := { q with unacked := clrBit q.unacked n, unanswered := clrBit q.unanswered n } }
      (h.p F.HSTL_REQ_STAT_TIMEOUT 1).reqSettled)

/-! ### HOST_REQ at a logic die (R340-R342) -/

/-- A logic die answers a HOST_REQ. -/
def hostRequest (d : Ch) (op : Nat) (t : Time) (s : State) (f : Nat → Nat → LogicDie → LogicDie × Nat × Nat) :
    Host.Outcome State Fault Refusal :=
  dieMessage d t s (fun m => match m with
    | .hostReq o tag addr data =>
      if o = op then
        some (fun x =>
          let r := f addr data x
          r.1.send (.hostRep op r.2.1 tag addr r.2.2))
      else none
    | _ => none)

/-- An 8-byte read with the rights of the companion core (R83, R340): status, and the data. -/
def LogicDie.requestRead (x : LogicDie) (d : Ch) (a : Nat) : LogicDie × Nat × Nat :=
  let r := x.region a
  if a % 8 ≠ 0 then (x, 1, 0)
  else if ¬ mayLoad true r then (x, 2, 0)
  else (x.loadEffect d true r a, 0, x.loadBytes d true r a 8)

/-- An 8-byte write of a register that the companion core may write (R340): status. -/
def LogicDie.requestWrite (x : LogicDie) (d : Ch) (p : Party) (a : Nat) (v : Word) : LogicDie × Nat :=
  if a % 8 ≠ 0 then (x, 1)
  else if x.region a ≠ .dieRegs ∨ ¬ x.compMayWrite a then (x, 2)
  else if x.busDenies d p a v then (x.busPost d p a 8 v, 1)
  else (x.busPost d p a 8 v, 0)

/-- HOST_REQ_READ (R340). -/
def execHostReqRead (d : Ch) (t : Time) (s : State) : Host.Outcome State Fault Refusal :=
  hostRequest d 1 t s (fun addr _ x => x.requestRead d addr)

/-- HOST_REQ_WRITE (R340). -/
def execHostReqWrite (d : Ch) (t : Time) (s : State) : Host.Outcome State Fault Refusal :=
  hostRequest d 2 t s (fun addr data x =>
    let r := x.requestWrite d .hostReq addr (BitVec.ofNat 64 data)
    (r.1, r.2, 0))

/-- HOST_REQ_START (R341): DONE where STARTED is set already; NOTRUN, LATE; otherwise STARTED comes at the first fold
start at or after S. -/
def execHostReqStart (d : Ch) (t : Time) (s : State) : Host.Outcome State Fault Refusal :=
  hostRequest d 3 t s (fun i _ x =>
    if x.is F.FOLD_STATUS_STARTED then (x, 0, 0)
    else if ¬ x.is F.FOLD_STATUS_RUNNING then (x, 4, 0)
    else if i < x.now + 20000 then (x, 3, 0)
    else ({ x with fold := { x.fold with startAt := some ((x.fold.startAt.map (min i)).getD i) } }, 0, 0))

/-- A RESTART that is the next message of a die's link is accepted there, and its number is the one that the die's
last control word names (R316, R342). -/
def State.acceptRestart (s : State) (d : Ch) : State × Option Nat :=
  match s.incoming d false with
  | some (.hostReq 4 _ _ _) => (s.accepted d false, some (s.die d).stl.expect)
  | _ => (s, none)

/-- HOST_REQ_RESTART (R342): the die acknowledges RESTART by a control word and sends no reply; LA, LB, PD0 and PD1
restart as after FRST, and LOCKED clears. A RESTART on its way to the other die is accepted and acknowledged there. -/
def execHostReqRestart (d : Ch) (t : Time) (s : State) : Host.Outcome State Fault Refusal :=
  let s := s.modDie d (·.at t)
  match s.acceptRestart d with
  | (_, none) => .next s
  | (s, some n) =>
    let o := (s.modDie (other d) (·.at t)).acceptRestart (other d)
    let names := fun (n : Option Nat) (x : LogicDie) => { x with stl := { x.stl with cw := n } }
    .next (((o.1.fieldRestart 2 true).modDie d (names (some n))).modDie (other d) (names o.2))

end Sys2Proof.Machine
end

