-- ==== Sys2Proof/Machine/Dbg.lean ====
section
/-! DEFINITION. Stile debug on a logic die (R412-R418, R421): sessions, reads and writes, halts, debug hold and its release, steps,
core registers, breakpoints. -/

namespace Sys2Proof.Machine

/-! ### Status, rights and cores (R413) -/

/-- The answers of the table *Stile debug status*. -/
inductive DbgStatus where
  | done | denied | nopower | access | nothalted | badop | nosession
  deriving DecidableEq, Repr

/-- The code of a status. -/
def dbgCode : DbgStatus → Nat
  | .done => 0
  | .denied => 1
  | .nopower => 2
  | .access => 3
  | .nothalted => 4
  | .badop => 5
  | .nosession => 6

/-- The scope of the session names this die (R407): FLDA on LA, FLDB on LB. -/
def LogicDie.inDebugScope (x : LogicDie) (d : Ch) : Bool := x.bit F.DBG_STAT_SCOPE (1 + d.num)

/-- The mask of the fold-task cores: C0 and C1, in triad mode C2 too. -/
def LogicDie.foldMask (x : LogicDie) : Nat := if x.hdr.triad then 7 else 3

/-- A core mask names a fold-task core. -/
def LogicDie.namesFold (x : LogicDie) (mask : Nat) : Bool := Nat.land mask x.foldMask != 0

/-- The named cores are ON: the core domain, in triad mode LA_TRIAD for C2 (R417). -/
def LogicDie.coresOn (x : LogicDie) (mask : Nat) : Bool :=
  x.dom 0 == domOn && (!x.hdr.triad || !mask.testBit 2 || x.dom 1 == domOn)

/-- The fold-task cores may be halted by debug: in DEVELOP and in CERTIFIED (R414, R415). -/
def LogicDie.mayHaltFold (x : LogicDie) : Bool := x.lifecycle == 1 || x.lifecycle == 2

/-- The operations of the table *Stile debug operations*. -/
def debugOps : List Nat := [0x01, 0x02, 0x10, 0x11, 0x20, 0x21, 0x22, 0x30, 0x31, 0x40, 0x41]

/-- A die answers a DEBUG_REQ: status in data byte 0, the result from byte 8 on (R413). -/
def LogicDie.debugAnswer (x : LogicDie) (session op : Nat) (st : DbgStatus) (result : List Nat) : LogicDie :=
  x.send (.debugRsp session op (if result = [] then [dbgCode st] else dbgCode st :: List.replicate 7 0 ++ result))

/-- A number in the data of a request. -/
def dbgField (data : List Nat) (o n : Nat) : Nat := ofBytesLE ((data.drop o).take n)

/-- A DEBUG_REQ with operation `op` at a logic die (R412, R413): NOSESSION unless it names the announced session,
DENIED unless the die is in its scope; otherwise what `f` does and answers. -/
def debugRequest (d : Ch) (op : Nat) (t : Time) (s : State) (f : List Nat → State → State × DbgStatus × List Nat) :
    Host.Outcome State Fault Refusal :=
  let s := s.modDie d (·.at t)
  match s.incoming d false with
  | some (.debugReq session o data) =>
    if o ≠ op then .next s
    else
      let s := s.accepted d false
      let x := s.die d
      let r :=
        if x.g F.DBG_STAT_SESSION = 0 ∨ session ≠ x.g F.DBG_STAT_SESSION then (s, DbgStatus.nosession, [])
        else if ¬ x.inDebugScope d then (s, DbgStatus.denied, [])
        else f data s
      .next (r.1.modDie d (fun x => x.debugAnswer session op r.2.1 r.2.2))
  | _ => .next s

/-! ### Debug hold (R414) -/

/-- A die enters debug hold (R414): its fold-task cores halt, a running attempt is rolled back and never commits,
every command is cleared, every switch opens and the crook output goes low, without the channel going safe. -/
def LogicDie.enterHold (x : LogicDie) : LogicDie :=
  let jovf := x.core.jovf && x.core.running
  let x := ((x.p F.FOLD_STATUS_RUNNING 0).rollback).foldStops
  let x := { x with xl := { x.xl with tx := x.xl.tx.filter (fun q => q.item.slot == 2) } }
  let x := (List.range 32).foldl (fun x n => x.openSwitch n) x
  let x := (x.wr .SO_CMD 0 0#64).setCrookOut false
  let x := x.p F.DBG_STAT_HALTED (Nat.lor (x.g F.DBG_STAT_HALTED) x.foldMask)
  let x := if jovf then x.p F.FC_CTRL_NORESUME 1 else x
  x.p F.DBG_STAT_HOLD 1

/-- The hold of a die is released (R414): the die resumes as R306 lays down where its folds may run. -/
def LogicDie.leaveHold (x : LogicDie) : LogicDie :=
  if ¬ x.is F.DBG_STAT_HOLD then x
  else
    let halted := x.g F.DBG_STAT_HALTED
    let x := (x.p F.DBG_STAT_HOLD 0).p F.DBG_STAT_HALTED (halted - Nat.land halted x.foldMask)
    if x.is F.FOLD_CTRL_RUN ∧ ¬ x.is F.FC_CTRL_SAFE ∧ ¬ x.is F.FC_CTRL_LOCKED ∧ ¬ x.is F.FC_CTRL_NORESUME then
      (x.p F.FC_CTRL_READY 1).propose
    else x

/-- The release of a hold acts on both dies (R414). -/
def State.releaseHold (s : State) : State := (s.modDie .la (·.leaveHold)).modDie .lb (·.leaveHold)

/-- The fold-task cores of a die are halted by a HALT or a breakpoint that names core `c` (R414, R415): debug hold
with a note in DEVELOP; in CERTIFIED source 40, which puts the channel safe. -/
def LogicDie.haltFold (x : LogicDie) (d : Ch) (c : Nat) : LogicDie :=
  if x.lifecycle = 1 then
    if x.is F.DBG_STAT_HOLD then x else x.enterHold.note .hold
  else (x.p F.DBG_STAT_HALTED (Nat.lor (x.g F.DBG_STAT_HALTED) x.foldMask)).raise d 40 c

/-- The lowest core of a mask. -/
def lowCore (mask : Nat) : Nat := if mask.testBit 0 then 0 else if mask.testBit 1 then 1 else 2

/-- The cores of a mask halt: the companion core alone, the fold-task cores together. -/
def LogicDie.haltCores (x : LogicDie) (d : Ch) (mask : Nat) : LogicDie :=
  let x := if ¬ x.hdr.triad ∧ mask.testBit 2 then x.p F.DBG_STAT_HALTED (setBit (x.g F.DBG_STAT_HALTED) 2) else x
  if x.namesFold mask then x.haltFold d (lowCore mask) else x

/-- HOLD_NOTE (R414): the other die's hold note puts this die into debug hold. -/
def execHoldNote (d : Ch) (t : Time) (s : State) : Host.Outcome State Fault Refusal :=
  match (s.modDie d (·.at t)).takeNote d (fun n => n == .hold) with
  | some (_, s) => .next (s.modDie d (fun x => if x.is F.DBG_STAT_HOLD then x else x.enterHold))
  | none => .next (s.modDie d (·.at t))

/-! ### Sessions (R412) -/

/-- DEBUG_OPEN (R412): the die records the session, its scope and the lifecycle, and answers DONE (R413). -/
def execDebugOpen (d : Ch) (t : Time) (s : State) : Host.Outcome State Fault Refusal :=
  dieMessage d t s (fun m => match m with
    | .debugReq session 1 data =>
      some (fun x =>
        let x := (x.p F.DBG_STAT_SESSION session).p F.DBG_STAT_SCOPE (dbgField data 4 1)
        { x with boot := { x.boot with host := { x.boot.host with
            info := setBits x.boot.host.info 1 0 (dbgField data 5 1) } } }.debugAnswer session 1 .done [])
    | _ => none)

/-- DEBUG_CLOSE (R410, R412-R414): the announced session, its breakpoints and the force bits go, halted cores run
again, a hold of either die is released, and the answer is DONE; a CLOSE that names another session answers NOSESSION
and ends nothing. -/
def execDebugClose (d : Ch) (t : Time) (s : State) : Host.Outcome State Fault Refusal :=
  let s := s.modDie d (·.at t)
  match s.incoming d false with
  | some (.debugReq session 2 _) =>
    let s := s.accepted d false
    let x := s.die d
    if x.g F.DBG_STAT_SESSION = 0 ∨ session ≠ x.g F.DBG_STAT_SESSION then
      .next (s.modDie d (fun x => x.debugAnswer session 2 .nosession []))
    else .next (s.releaseHold.modDie d (fun x => (x.debugEnds d).debugAnswer session 2 .done []))
  | _ => .next s

/-! ### Memory and registers (R413, R465) -/

/-- A debug read may take a byte of the region (R413): companion loads; in hold, fold-task code and safety data. -/
def LogicDie.debugMayRead (x : LogicDie) (r : Region) : Bool :=
  mayLoad true r || (x.is F.DBG_STAT_HOLD && (r == .code || r == .data))

/-- A debug write may reach a memory region (R413): in DEVELOP in hold, fold-task code, safety data and companion regions. -/
def LogicDie.debugMayWrite (x : LogicDie) (r : Region) : Bool :=
  x.lifecycle == 1 && x.is F.DBG_STAT_HOLD &&
    (r == .code || r == .data || r == .compCode || r == .compData || r == .sharedComp)

/-- `n` 8-byte register reads from `a` upward, one after another. -/
def LogicDie.debugRegs (d : Ch) : Nat → Nat → LogicDie → LogicDie × List Nat
  | 0, _, x => (x, [])
  | n + 1, a, x =>
    let v := x.busPeek d a
    let r := LogicDie.debugRegs d n (a + 8) (x.busTouch d a)
    (r.1, bytesLE 8 v.toNat ++ r.2)

/-- The domain of a logic die whose block holds the register word at an address (R371): FOLD_ lies with the core, the
log ring with the memory, the signature buffers with the I/O; none for a block that is always on. -/
def debugDomain (d : Ch) (a : Nat) : Option Nat :=
  if 0x40024000 ≤ a ∧ a < 0x4002C000 then some 3
  else if 0x4008C000 ≤ a ∧ a < 0x4009C000 then some 2
  else
    match regAt d a with
    | some (r, _) => if r.layout.base / 0x1000 = 0x40002 then some 0 else [0, 3, 4].find? (fun k => logicDomReg k r)
    | none => none

/-- `n` register words from `a` upward all lie in domains that are ON (R417). -/
def LogicDie.regsOn (x : LogicDie) (d : Ch) (a n : Nat) : Bool :=
  (List.range n).all (fun k =>
    match debugDomain d (a + 8 * k) with
    | some j => x.dom j == domOn
    | none => true)

/-- DEBUG_READ (R413, R417, R465): registers at multiples of 8, memory byte by byte; a register or memory of a domain
that is not ON answers NOPOWER. -/
def LogicDie.debugRead (x : LogicDie) (d : Ch) (a n : Nat) : LogicDie × DbgStatus × List Nat :=
  let rs := (List.range n).map (fun i => x.region (a + i))
  if n < 8 ∨ 1008 < n then (x, .access, [])
  else if ¬ rs.all (fun r => x.debugMayRead r) then (x, .denied, [])
  else if rs.any (·.isRegs) then
    if a % 8 ≠ 0 ∨ n % 8 ≠ 0 then (x, .access, [])
    else if ¬ x.regsOn d a (n / 8) then (x, .nopower, [])
    else
      let r := LogicDie.debugRegs d (n / 8) a x
      (r.1, .done, r.2)
  else if x.dom 2 ≠ domOn then (x, .nopower, [])
  else (x, .done, (List.range n).map (fun i => x.loadBytes d true (x.region (a + i)) (a + i) 1))

/-- The operation of the DEBUG_REQ that waits at a die: an unassigned one, else READ. -/
def State.debugOp (s : State) (d : Ch) (t : Time) : Nat :=
  match (s.modDie d (·.at t)).incoming d false with
  | some (.debugReq _ o _) => if debugOps.contains o then 0x10 else o
  | _ => 0x10

/-- DEBUG_READ (R413). A waiting request with an unassigned operation, which no command of the table names, is taken
here and answers BADOP (DESIGN CHOICE, log 170). -/
def execDebugRead (d : Ch) (t : Time) (s : State) : Host.Outcome State Fault Refusal :=
  if s.debugOp d t = 0x10 then
    debugRequest d 0x10 t s (fun data s =>
      let r := (s.die d).debugRead d (dbgField data 0 8) (dbgField data 8 8)
      (s.setDie d r.1, r.2.1, r.2.2))
  else debugRequest d (s.debugOp d t) t s (fun _ s => (s, .badop, []))

/-- Register writes of 8 bytes each from `a` upward, one after another; whether one of them is an access error. -/
def LogicDie.debugPosts (d : Ch) : Nat → Nat → List Nat → LogicDie → LogicDie × Bool
  | 0, _, _, x => (x, false)
  | n + 1, a, bs, x =>
    let v := BitVec.ofNat 64 (ofBytesLE (bs.take 8))
    let bad := x.busDenies d .debug a v
    let r := LogicDie.debugPosts d n (a + 8) (bs.drop 8) (x.busPost d .debug a 8 v)
    (r.1, bad || r.2)

/-- Bytes go to memory, without journal. -/
def LogicDie.pokeAll (a : Nat) : List Nat → LogicDie → LogicDie
  | [], x => x
  | b :: bs, x => LogicDie.pokeAll (a + 1) bs (x.poke a 1 b)

/-- DEBUG_WRITE (R413, R465): registers with the rights of a HOST_REQ; memory in DEVELOP in debug hold, where
fold-task code and safety data set TAINT. -/
def LogicDie.debugWrite (x : LogicDie) (d : Ch) (a : Nat) (bs : List Nat) : LogicDie × DbgStatus :=
  let n := bs.length
  let rs := (List.range n).map (fun i => x.region (a + i))
  if n = 0 then (x, .access)
  else if rs.any (·.isRegs) then
    if a % 8 ≠ 0 ∨ n % 8 ≠ 0 then (x, .access)
    else if ¬ rs.all (· == .dieRegs) ∨ ¬ (List.range (n / 8)).all (fun k => x.compMayWrite (a + 8 * k)) then (x, .denied)
    else if ¬ x.regsOn d a (n / 8) then (x, .nopower)
    else
      let r := LogicDie.debugPosts d (n / 8) a bs x
      (r.1, if r.2 then .access else .done)
  else if ¬ rs.all (fun r => x.debugMayWrite r) then (x, .denied)
  else if x.dom 2 ≠ domOn then (x, .nopower)
  else
    let y := LogicDie.pokeAll a bs x
    (if rs.any (fun r => r == .code || r == .data) then y.p F.DBG_STAT_TAINT 1 else y, .done)

/-- DEBUG_WRITE (R413). -/
def execDebugWrite (d : Ch) (t : Time) (s : State) : Host.Outcome State Fault Refusal :=
  debugRequest d 0x11 t s (fun data s =>
    let r := (s.die d).debugWrite d (dbgField data 0 8) (data.drop 8)
    (s.setDie d r.1, r.2, []))

/-! ### Halt, resume, step (R413-R415) -/

/-- DEBUG_HALT (R413-R415): the companion core freely; the fold-task cores with a hold in DEVELOP, a safe channel in
CERTIFIED. -/
def execDebugHalt (d : Ch) (t : Time) (s : State) : Host.Outcome State Fault Refusal :=
  debugRequest d 0x20 t s (fun data s =>
    let x := s.die d
    let mask := dbgField data 0 1 % 8
    if mask = 0 then (s, .badop, [])
    else if ¬ x.coresOn mask then (s, .nopower, [])
    else if x.namesFold mask ∧ ¬ x.mayHaltFold then (s, .denied, [])
    else (s.modDie d (fun x => x.haltCores d mask), .done, []))

/-- RESUME (R413-R415): halted cores run again; the fold-task cores together, which releases a hold. -/
def execResume (d : Ch) (t : Time) (s : State) : Host.Outcome State Fault Refusal :=
  debugRequest d 0x21 t s (fun data s =>
    let x := s.die d
    let mask := dbgField data 0 1 % 8
    if mask = 0 then (s, .badop, [])
    else if ¬ x.coresOn mask then (s, .nopower, [])
    else if Nat.land mask (x.g F.DBG_STAT_HALTED) ≠ mask then (s, .nothalted, [])
    else
      let s := if x.namesFold mask ∧ x.is F.DBG_STAT_HOLD then s.releaseHold else s
      (s.modDie d (fun x =>
        let go := if x.namesFold mask then Nat.lor mask x.foldMask else mask
        let halted := x.g F.DBG_STAT_HALTED
        x.p F.DBG_STAT_HALTED (halted - Nat.land halted go)), .done, []))

/-- DEBUG_STEP (R413): the halted companion core executes one instruction. -/
def execDebugStep (d : Ch) (t : Time) (s : State) : Host.Outcome State Fault Refusal :=
  debugRequest d 0x22 t s (fun _ s =>
    let x := s.die d
    if x.hdr.triad then (s, .denied, [])
    else if ¬ x.coresOn 4 then (s, .nopower, [])
    else if ¬ x.coreHalted 2 then (s, .nothalted, [])
    else (s.modDie d (fun x => { x with comp := { x.comp with stepping := true } }), .done, []))

/-! ### Core registers (R413) -/

/-- The core named is the companion core. -/
def LogicDie.isCompanion (x : LogicDie) (c : Nat) : Bool := c == 2 && !x.hdr.triad

/-- Register `i` of a core, system (`sys`) or general, as its role reads it. -/
def LogicDie.coreReg (x : LogicDie) (d : Ch) (c : Nat) (sys : Bool) (i : Nat) : Option Word :=
  let comp := x.isCompanion c
  if sys then x.sysReg d comp i
  else if h : i < 32 then some (x.w comp ⟨i, h⟩)
  else none

/-- REGRD (R413): core in data byte 0, kind in byte 1 (1 system, 0 general), index in bytes 2 and 3. -/
def execRegrd (d : Ch) (t : Time) (s : State) : Host.Outcome State Fault Refusal :=
  debugRequest d 0x30 t s (fun data s =>
    let x := s.die d
    let c := dbgField data 0 1
    if 3 ≤ c then (s, .badop, [])
    else if ¬ x.coresOn (2 ^ c) then (s, .nopower, [])
    else if ¬ x.coreHalted c then (s, .nothalted, [])
    else
      match x.coreReg d c (dbgField data 1 1 == 1) (dbgField data 2 2) with
      | some v => (s, .done, bytesLE 8 v.toNat)
      | none => (s, .denied, []))

/-- Write register `i` of a core (R80-R82, R413): what its role may write; nothing where it may not. The fold-task
cores take a value together. -/
def LogicDie.setCoreReg (x : LogicDie) (c : Nat) (sys : Bool) (i : Nat) (v : Word) : LogicDie × DbgStatus :=
  let comp := x.isCompanion c
  if sys then
    match sysWritable comp i with
    | none => (x, .denied)
    | some reserved =>
      if Nat.land v.toNat reserved ≠ 0 then (x, .access)
      else if comp then ({ x with comp := x.comp.setSys i v }, .done)
      else ({ x with core := { x.core with events := x.core.events &&& ~~~v } }, .done)
  else if h : i < 32 then
    let y := x.setW comp ⟨i, h⟩ v
    (if comp then y else { y with core := { y.core with wCommit := y.core.w } }, .done)
  else (x, .denied)

/-- REGWR (R413): a halted companion core; the fold-task cores in DEVELOP in debug hold. The value stands in bytes 8
to 15. -/
def execRegwr (d : Ch) (t : Time) (s : State) : Host.Outcome State Fault Refusal :=
  debugRequest d 0x31 t s (fun data s =>
    let x := s.die d
    let c := dbgField data 0 1
    if 3 ≤ c then (s, .badop, [])
    else if ¬ x.coresOn (2 ^ c) then (s, .nopower, [])
    else if ¬ x.coreHalted c then (s, .nothalted, [])
    else if ¬ x.isCompanion c ∧ ¬ (x.lifecycle = 1 ∧ x.is F.DBG_STAT_HOLD) then (s, .denied, [])
    else
      let r := x.setCoreReg c (dbgField data 1 1 == 1) (dbgField data 2 2) (BitVec.ofNat 64 (dbgField data 8 8))
      (s.setDie d r.1, r.2, []))

/-! ### Breakpoints (R413, R414, R421) -/

/-- BKPT (R413, R421): core mask in byte 0, slot in byte 1, address in bytes 8 to 15; permitted as HALT is. -/
def execBkpt (d : Ch) (t : Time) (s : State) : Host.Outcome State Fault Refusal :=
  debugRequest d 0x40 t s (fun data s =>
    let x := s.die d
    let mask := dbgField data 0 1 % 8
    let slot := dbgField data 1 1
    let a := dbgField data 8 8
    if mask = 0 ∨ 4 ≤ slot ∨ 2 ^ 32 ≤ a ∨ a % 4 ≠ 0 then (s, .badop, [])
    else if ¬ x.coresOn mask then (s, .nopower, [])
    else if x.namesFold mask ∧ ¬ x.mayHaltFold then (s, .denied, [])
    else (s.modDie d (fun x => (x.p F.DBG_BKPT_ADDR a slot).p F.DBG_BKPT_CORES mask slot), .done, []))

/-- BKCLR (R413): slot in byte 0. -/
def execBkclr (d : Ch) (t : Time) (s : State) : Host.Outcome State Fault Refusal :=
  debugRequest d 0x41 t s (fun data s =>
    let slot := dbgField data 0 1
    if 4 ≤ slot then (s, .badop, []) else (s.modDie d (fun x => x.wr .DBG_BKPT slot 0#64), .done, []))

/-- A core stands at the address of breakpoint `k`, watched, running and not halted. -/
def LogicDie.atBreak (x : LogicDie) (k c : Nat) : Bool :=
  x.bit F.DBG_BKPT_CORES c k && !x.coreHalted c &&
    (if x.isCompanion c then x.comp.on && x.comp.pc == x.g F.DBG_BKPT_ADDR k
     else x.core.running && x.core.pc == x.g F.DBG_BKPT_ADDR k)

/-- BREAKPOINT_HIT (R414, R415): core `c` reaches the address of breakpoint `k`, and its cores halt as at a HALT. -/
def execBreakpointHit (d : Ch) (k : Fin 4) (c : Fin 3) (t : Time) (s : State) : Host.Outcome State Fault Refusal :=
  .next (s.modDie d (fun x =>
    let x := x.at t
    if x.atBreak k.val c.val then x.haltCores d (2 ^ c.val) else x))

end Sys2Proof.Machine
end

