-- ==== Sys2Proof/Machine/HostBus.lean ====
section
/-! DEFINITION. Accesses to the host die: its registers at BAR0 offsets (R9-R13, R329, R471-R473), the download window (R329, R338)
and the quad-SPI target (R330). -/

namespace Sys2Proof.Machine

/-! ### Reads (R446, R471, R473) -/

/-- What a register of the host die shows where the state holds it in another form. -/
def HostDie.view (h : HostDie) (r : Reg) (i : Nat) : Word :=
  match r with
  | .HFC_ACT => BitVec.ofNat 64 (h.active / 2 ^ (64 * i))
  | .BB_PORT => BitVec.ofNat 64 (setBits (h.rd r i).toNat 15 14 3)
  | .HDBG_STAT => BitVec.ofNat 64 (setBits (h.rd r i).toNat 31 16 h.ttlLeft)
  | .BB_GCL => BitVec.ofNat 64 (setBits (h.rd r i).toNat 7 7 1)
  | .PWR_HRTC => BitVec.ofNat 64 h.rtc
  | _ => h.rd r i

/-- An 8-byte word of the merged log (R446). -/
def HostDie.mlogWord (h : HostDie) (off : Nat) : Word :=
  BitVec.ofNat 64 (ofBytesLE
    (((recBytes (Sparse.get (fun _ => LogRec.zero) h.mlog (off / 32))).drop (off % 32)).take 8))

/-- What a read of the 8-byte word at a BAR0 offset returns: a register, the merged log, 0 elsewhere. -/
def HostDie.busPeek (h : HostDie) (a : Nat) : Word :=
  if 0x100000 ≤ a ∧ a < 0x200000 then h.mlogWord (a - 0x100000)
  else
    match hostRegAt a with
    | some (r, i) => BitVec.ofNat 64 (r.shown (h.view r i).toNat)
    | none => 0#64

/-- The side effect of a read of a host register: FOLD_SNAP_LEASE grants a lease (R65). -/
def HostDie.busTouch (h : HostDie) (a : Nat) : HostDie :=
  match hostRegAt a with
  | some (.FOLD_SNAP_LEASE, _) => h.leaseRead
  | _ => h

/-- Read `n` 8-byte words from `a` upward, one after another (R473). -/
def HostDie.busWords (h : HostDie) (a : Nat) : Nat → HostDie × List Nat
  | 0 => (h, [])
  | n + 1 =>
    let h := h.busTouch a
    let v := h.busPeek a
    let r := h.busWords (a + 8) n
    (r.1, bytesLE 8 v.toNat ++ r.2)

/-- BAR0_READ (R473): 4 bytes naturally aligned, or a multiple of 8 bytes at a multiple of 8; any other size reads zeros and
raises host source 33. -/
def execBar0Read (ofs : Fin 16777216) (n : Fin 4097) (t : Time) (s : State) : Host.Outcome State Fault Refusal :=
  runHost t s (fun h =>
    let a := ofs.val
    if n.val = 4 ∧ a % 4 = 0 then
      let r := h.busWords (a - a % 8) 1
      { r.1 with answer := (r.2.drop (a % 8)).take 4 }
    else if n.val ≠ 0 ∧ n.val % 8 = 0 ∧ a % 8 = 0 then
      let r := h.busWords a (n.val / 8)
      { r.1 with answer := r.2 }
    else { h.accessError .hostBar a with answer := List.replicate n.val 0 })

/-! ### Writes (R9-R12, R329, R382) -/

/-- The block of a host register is locked. -/
def HostDie.locked (h : HostDie) (r : Reg) : Bool :=
  match lockOf r with
  | some f => h.is f
  | none => false

/-- A write that follows the field types alone. -/
def HostDie.plainWrite (h : HostDie) (r : Reg) (i : Nat) (v : Word) : HostDie :=
  h.wr r i (BitVec.ofNat 64 (applyFields r (h.locked r) (h.rd r i).toNat v.toNat))

/-- A host-memory buffer of `n` bytes from `base` ends above 48 bits (R343). -/
def above48 (base n : Nat) : Bool := decide (2 ^ 48 < base + n)

/-- A rule of a block makes the write an access error: the lease length (R70), the mirror (R343, R345), host requests
and field downloads (R339, R345), host power registers (R382), stated ranges of the backbone (R369), the log stream
(R446), fuse and session commands (R419, R420), force bits (R310). -/
def HostDie.blockDenies (h : HostDie) (p : Party) (r : Reg) (v : Word) : Bool :=
  let b := fun (f : Fld) => Word.bits v f.hi f.lo
  match r with
  | .FOLD_SNAP_CFG => b F.FOLD_SNAP_CFG_LEASE_US == 0 || decide (1000 < b F.FOLD_SNAP_CFG_LEASE_US)
  | .HSTL_DL_CMD => b F.HSTL_DL_CMD_FIELD == 1 && h.is F.HSTL_STAT_DL_BUSY
  | .HSTL_REQ_CMD =>
    h.is F.HSTL_REQ_CMD_BUSY ||
      (b F.HSTL_REQ_CMD_GO == 1 && (b F.HSTL_REQ_CMD_OP == 0 || decide (5 ≤ b F.HSTL_REQ_CMD_OP)))
  | .HSTL_REQ_ADDR | .HSTL_REQ_DATA => h.is F.HSTL_REQ_CMD_BUSY
  | .HSTL_MIR_BASE =>
    h.is F.HSTL_MIR_CFG_EN || above48 (b F.HSTL_MIR_BASE_BASE * 4096) (h.g F.HSTL_MIR_CFG_SLOTS * 0x480)
  | .HSTL_MIR_CFG =>
    (b F.HSTL_MIR_CFG_EN == 1 && decide (b F.HSTL_MIR_CFG_SLOTS < 2)) ||
      (h.is F.HSTL_MIR_CFG_EN &&
        (b F.HSTL_MIR_CFG_SLOTS != h.g F.HSTL_MIR_CFG_SLOTS || b F.HSTL_MIR_CFG_EVERY != h.g F.HSTL_MIR_CFG_EVERY)) ||
      above48 (h.g F.HSTL_MIR_BASE_BASE * 4096) (b F.HSTL_MIR_CFG_SLOTS * 0x480)
  | .PWR_HCTRL | .PWR_HSTAT | .PWR_HPL | .PWR_HWAKE | .PWR_HWAKET | .PWR_HDOM => p == .hostBar
  | .BB_AS => decide (3600 < b F.BB_AS_HOLD)
  | .BB_QBV => decide (b F.BB_QBV_CYCLE < 10000) || decide (10000000 < b F.BB_QBV_CYCLE)
  | .BB_TXC => decide (1 < b F.BB_TXC_KIND)
  | .BB_RXC => decide (1 < b F.BB_RXC_KIND)
  | .LOG_HBASE => h.is F.LOG_HCTRL_EN || above48 (b F.LOG_HBASE_BASE * 4096) (32 * 2 ^ h.g F.LOG_HSIZE_HSIZE)
  | .LOG_HSIZE => h.is F.LOG_HCTRL_EN || above48 (h.g F.LOG_HBASE_BASE * 4096) (32 * 2 ^ b F.LOG_HSIZE_HSIZE)
  | .SEC_OTPCMD => b F.SEC_OTPCMD_OP != 0 && h.is F.SEC_OTPSTAT_BUSY
  | .HDBG_CTRL => b F.HDBG_CTRL_OPENREQ == 1 && h.openDenied
  | .HFC_FORCE | .HFC_FORCEW => !h.forceAllowed p
  | _ => false

/-- An 8-byte write at a BAR0 offset is an access error (R10, R329): no register, a reserved bit set, no field that accepts a
write, or a rule of the block. -/
def HostDie.busDenies (h : HostDie) (p : Party) (a : Nat) (v : Word) : Bool :=
  match hostRegAt a with
  | none => true
  | some (r, _) =>
    decide (Nat.land v.toNat r.reserved ≠ 0) || !r.writable (h.locked r) || h.blockDenies p r v

/-- The state that a command leaves. -/
def State.after (s : State) : Host.Outcome State Fault Refusal → State
  | .next t => t
  | _ => s

/-- What a permitted write does where its block states more than the field types, on the host die alone. -/
def HostDie.blockWrite (h : HostDie) (p : Party) (r : Reg) (i : Nat) (v : Word) : HostDie :=
  let b := fun (f : Fld) => Word.bits v f.hi f.lo
  match r with
  | .FOLD_SNAP_RELEASE => if b F.FOLD_SNAP_RELEASE_RELEASE = 1 then h.leaseRelease else h
  | .HSTL_REQ_CMD =>
    h.writeReq (b F.HSTL_REQ_CMD_OP) (b F.HSTL_REQ_CMD_DIES) (b F.HSTL_REQ_CMD_TAG) (b F.HSTL_REQ_CMD_GO == 1) p
  | .HSTL_MIR_CFG =>
    let fresh := b F.HSTL_MIR_CFG_EN == 1 && !h.is F.HSTL_MIR_CFG_EN
    let h := h.plainWrite r i v
    if fresh then { h with snap := { h.snap with pubs := 0, nextSlot := 0 } } else h
  | .BB_PORT => if i = 2 then (h.plainWrite r i v).p F.BB_PORT_SPEED 0 2 else h.plainWrite r i v
  | .SEC_KSTAGE => h.wr r i v
  | .SEC_OTPCMD =>
    if b F.SEC_OTPCMD_OP = 0 then h
    else h.otpCommand (b F.SEC_OTPCMD_OP) (b F.SEC_OTPCMD_SLOT) (b F.SEC_OTPCMD_LCT) (b F.SEC_OTPCMD_ARBT) p
  | _ => h.plainWrite r i v

/-- A permitted write of a host register; commands that reach beyond the host die act on the device. -/
def State.hostApply (s : State) (p : Party) (r : Reg) (i : Nat) (v : Word) (t : Nat) : State :=
  let b := fun (f : Fld) => Word.bits v f.hi f.lo
  let plain := s.modHost (fun h => h.blockWrite p r i v)
  let run := fun (s : State) (on : Bool) (f : State → Host.Outcome State Fault Refusal) => if on then s.after (f s) else s
  match r with
  | .HSTL_DL_CMD =>
    let s := run s (b F.HSTL_DL_CMD_BOOT == 1) (execBoot t)
    let s := run s (b F.HSTL_DL_CMD_FIELD == 1) (execField p t)
    run s (b F.HSTL_DL_CMD_RELEASE == 1) (execRelease t)
  | .PWR_HPL => run plain true (execPwrHplReq ⟨v.toNat % 4, Nat.mod_lt _ (by decide)⟩ p t)
  | .PWR_HWAKE => run s true (execPwrHwakeField v p t)
  | .PWR_HDOM =>
    run plain true (execPwrHdomTarget ⟨i % 6, Nat.mod_lt _ (by decide)⟩ ⟨v.toNat / 4 % 4, Nat.mod_lt _ (by decide)⟩ p t)
  | .BB_QBV => run plain (b F.BB_QBV_APPLY == 1) (execApply ⟨i % 2, Nat.mod_lt _ (by decide)⟩ t)
  | .HDBG_CTRL =>
    let s := run s (b F.HDBG_CTRL_CHREQ == 1) (execChreq p t)
    let s := run s (b F.HDBG_CTRL_VERIFY == 1) (execVerify p t)
    let s := run s (b F.HDBG_CTRL_CLOSE == 1) (execClose p t)
    run s (b F.HDBG_CTRL_OPENREQ == 1) (execOpenreq p t)
  | .HFC_FORCE | .HFC_FORCEW =>
    run s true (execFcForce none (r == .HFC_FORCEW) ⟨i % 8, Nat.mod_lt _ (by decide)⟩ v p t)
  | .HFC_RECCNT => run s true (execFcReccntWrite none v false t)
  | _ => plain

/-- The W1C bits that a write `v` clears although hardware has set them at this instant (R13). -/
def HostDie.setByHw (h : HostDie) (r : Reg) (i : Nat) (v : Word) : Word :=
  let was := { h with regs := h.before }.rd r i
  BitVec.ofNat 64 (coincident r (h.rd r i).toNat v.toNat (h.rd r i &&& ~~~ was).toNat)

/-- A write to the host die's registers (R10, R329, R473): one that is not 8 bytes at a multiple of 8, or that is an access
error, is discarded whole with host source 33. A W1C bit that hardware set at this instant stays (R13). -/
def State.hostWrite (s : State) (p : Party) (a width : Nat) (v : Word) (t : Nat) : State :=
  let s := s.modHost (·.at t)
  if s.host.inReset then s
  else if width ≠ 8 ∨ a % 8 ≠ 0 ∨ s.host.busDenies p a v then s.modHost (fun h => h.accessError p a)
  else
    match hostRegAt a with
    | some (r, i) =>
      let kept := s.host.setByHw r i v
      let s := s.hostApply p r i v t
      if kept = 0#64 then s else s.modHost (fun h => h.wr r i (h.rd r i ||| kept))
    | none => s

/-! ### The download window (R329, R338) -/

/-- A write to the download window: bytes past its end go nowhere. -/
def HostDie.windowWrite (h : HostDie) (p : Party) (ofs : Nat) (bs : List Nat) : HostDie :=
  if h.is F.HSTL_STAT_CACHE_VALID then h.accessError p ofs
  else { h with mem := pokeBytes h.mem (0x1000000 + ofs) (bs.take (0x1000000 - ofs)) }

/-- What `n` bytes of the download window at `ofs` read as, through BAR4 or the quad-SPI target (R329, R330); 0 past
its end. -/
def HostDie.windowRead (h : HostDie) (ofs n : Nat) : List Nat :=
  (List.range n).map (fun i => if ofs + i < 0x1000000 then h.byte (0x1000000 + ofs + i) else 0)

/-- DOWNLOAD_WINDOW_WRITE (R329, R338): a write to BAR4. -/
def execDownloadWindowWrite (ofs : Fin 16777216) (data : List Byte) (t : Time) (s : State) :
    Host.Outcome State Fault Refusal :=
  runHost t s (fun h => h.windowWrite .hostBar ofs.val (data.map (·.toNat)))

/-! ### Quad-SPI (R330) -/

/-- A quad-SPI command other than READ STATUS: ignored while a submission or download is in progress. -/
def runSpi (t : Nat) (s : State) (f : State → State) : Host.Outcome State Fault Refusal :=
  let s := s.modHost (·.at t)
  .next (if s.host.inReset ∨ s.host.is F.HSTL_DL_STAT_BUSY then s else f s)

/-- A write burst whose CRC does not match is discarded, with CRCERR and host source 18. -/
def HostDie.crcFail (h : HostDie) : HostDie := { h with crcErr := true }.raise 18 0

/-- READ_ID (R330). -/
def execReadId (t : Time) (s : State) : Host.Outcome State Fault Refusal :=
  runSpi t s (fun s => s.modHost (fun h => { h with answer := [0x47, 0x58, 0x96, 0x40] }))

/-- READ_STATUS (R330): it clears CRCERR. -/
def execReadStatus (t : Time) (s : State) : Host.Outcome State Fault Refusal :=
  runHost t s (fun h =>
    let v := h.g F.HSTL_DL_STAT_BUSY + 2 * b2n h.crcErr + 4 * h.g F.HSTL_STAT_CACHE_VALID + 8 * h.g F.HSTL_DL_STAT_READY
    { h with answer := [v], crcErr := false })

/-- WINDOW_WRITE (R330): 8 to 4,096 bytes as BAR4 would write them; another length is no listed command. -/
def execWindowWrite (ofs : Fin 16777216) (data : List Byte) (crc : BitVec 32) (t : Time) (s : State) :
    Host.Outcome State Fault Refusal :=
  runSpi t s (fun s => s.modHost (fun h =>
    let bs := data.map (·.toNat)
    if bs.length < 8 ∨ 4096 < bs.length then h
    else if crc32c bs ≠ crc.toNat then h.crcFail
    else h.windowWrite .hostBar ofs.val bs))

/-- WINDOW_READ (R330): `n` bytes of the window; 0 past its end. -/
def execWindowRead (ofs : Fin 16777216) (n : Nat) (t : Time) (s : State) : Host.Outcome State Fault Refusal :=
  runSpi t s (fun s => s.modHost (fun h => { h with answer := h.windowRead ofs.val n }))

/-- REGISTER_WRITE (R330): one register as BAR0 would write it. -/
def execRegisterWrite (ofs : Fin 16777216) (v : Word) (crc : BitVec 32) (t : Time) (s : State) :
    Host.Outcome State Fault Refusal :=
  runSpi t s (fun s =>
    if crc32c (bytesLE 8 v.toNat) ≠ crc.toNat then s.modHost (·.crcFail)
    else s.hostWrite .hostBar ofs.val 8 v t)

/-- REGISTER_READ (R330): one register as BAR0 would read it. -/
def execRegisterRead (ofs : Fin 16777216) (t : Time) (s : State) : Host.Outcome State Fault Refusal :=
  runSpi t s (fun s => s.modHost (fun h =>
    if ofs.val % 8 ≠ 0 then { h.accessError .hostBar ofs.val with answer := List.replicate 8 0 }
    else
      let r := h.busWords ofs.val 1
      { r.1 with answer := r.2 }))

end Sys2Proof.Machine
end

