-- ==== Sys2Proof/Machine/DieBus.lean ====
section
/-! DEFINITION. Accesses to registers that have no command of their own: WRITE_ACCESS (R10), the lock bits (R12, R41), reads of RC
fields (R9, R292), and the end of a DMA run (R437). -/

namespace Sys2Proof.Machine

/-- A write at its instant, with the W1C bits `hw` that hardware sets in the same cycle (R13, R466). -/
def LogicDie.busPostAt (x : LogicDie) (d : Ch) (p : Party) (a width : Nat) (v hw : Word) : LogicDie :=
  match regAt d a with
  | none => x.busPost d p a width v
  | some (r, i) =>
    let y := x.busPost d p a width (if p = .companion then x.ordered r a p v else v)
    let kept := coincident r (x.rd r i).toNat v.toNat hw.toNat
    if kept = 0 ∨ width ≠ 8 ∨ a % 8 ≠ 0 ∨ x.busDenies d p a v then y else y.wr r i (y.rd r i ||| BitVec.ofNat 64 kept)

/-- A write to the host die with the W1C bits `hw` that hardware sets in the same cycle (R13). -/
def State.hostWriteAt (s : State) (p : Party) (a width : Nat) (v hw : Word) (t : Nat) : State :=
  let s1 := s.hostWrite p a width v t
  match hostRegAt a with
  | some (r, i) =>
    let kept := coincident r ((s.host.at t).rd r i).toNat v.toNat hw.toNat
    if kept = 0 ∨ s.host.inReset ∨ width ≠ 8 ∨ a % 8 ≠ 0 ∨ (s.host.at t).busDenies p a v then s1
    else s1.modHost (fun h => h.wr r i (h.rd r i ||| BitVec.ofNat 64 kept))
  | none => s1

/-- WRITE_ACCESS (R10, R13, R465, R473): a write of `width` bytes to a register of a logic die or, with `none`, of the
host die at its BAR0 offset; `w` holds the bytes written and the W1C bits of the register that hardware sets in the
same cycle. -/
def execWriteAccess (dom : Option Ch) (party : Party) (addr width : Nat) (w : WriteData) (t : Time) (s : State) :
    Host.Outcome State Fault Refusal :=
  match dom with
  | some d => .next (s.modDie d (fun x => (x.at t).busPostAt d party addr width w.v w.hw))
  | none => .next (s.hostWriteAt party addr width w.v w.hw t)

/-- The lock bit of a logic-die block. -/
def DieBlock.bit : DieBlock → Fld
  | .fold => F.FOLD_CTRL_LOCK
  | .fc => F.FC_CTRL_LOCK
  | .pwr => F.PWR_CTRL_LOCK
  | .si => F.SI_CTRL_LOCK
  | .tp => F.TP_CTRL_LOCK
  | .so => F.SO_CTRL_LOCK
  | .lmp => F.LMP_CTRL_LOCK
  | .adc => F.ADC_CTRL_LOCK
  | .vct => F.VCT_CTRL_LOCK
  | .gt => F.GT_CTRL_LOCK
  | .bist => F.BIST_CTRL_LOCK
  | .pd => F.PWR_PDCTRL_LOCK

/-- The lock bit of a host-die block. -/
def HostBlock.bit : HostBlock → Fld
  | .fc => F.HFC_CTRL_LOCK
  | .stl => F.HSTL_CTRL_LOCK
  | .bb => F.BB_CTRL_LOCK
  | .pwr => F.PWR_HCTRL_LOCK

/-- A block of a logic die is locked, with what its chapter does at the lock. -/
def LogicDie.lockBlock (x : LogicDie) (d : Ch) (b : DieBlock) : LogicDie :=
  if x.is (DieBlock.bit b) then x
  else
    match b with
    | .fold => x.foldLock
    | .si => x.siLock d
    | .adc => x.adcLock
    | .gt => x.gtLock
    | _ => x.p (DieBlock.bit b) 1

/-- LOCK (R12): a block's lock bit is written 1. -/
def execLock (b : LockSel) (t : Time) (s : State) : Host.Outcome State Fault Refusal :=
  match b with
  | .die d b => .next (s.modDie d (fun x => (x.at t).lockBlock d b))
  | .host b => runHost t s (fun h => h.p (HostBlock.bit b) 1)

/-- FOLD_LOCK (R41): the admission check at the FOLD_ lock. -/
def execFoldLock (d : Ch) (t : Time) (s : State) : Host.Outcome State Fault Refusal :=
  .next (s.modDie d (fun x => (x.at t).lockBlock d .fold))

/-- The side effects of a read that a hardware event setting the RC field coincides with (R13): the event is not
cleared, so MAX stays, and a capture queue keeps its newest entry. -/
def LogicDie.busTouchWith (x : LogicDie) (d : Ch) (a : Nat) : LogicDie :=
  match regAt d a with
  | some (.FOLD_EXEC, _) => x
  | some (.GT_CAP, i) => if (x.caps i).length ≤ 1 then x else x.busTouch d a
  | _ => x.busTouch d a

/-- RC_FIELD_READ (R9, R13, R292): a read of a register that clears its RC fields: at once, or in commit for a
fold-task load. -/
def execRcFieldRead (d : Ch) (party : Party) (r : RcRead) (t : Time) (s : State) :
    Host.Outcome State Fault Refusal :=
  .next (s.modDie d (fun x =>
    let x := x.at t
    let a := r.addr - r.addr % 8
    if party = .foldTask then x.busLoadFold d a else if r.coincides then x.busTouchWith d a else x.busTouch d a))

/-- `n` words from `a` upward, as a DMA run reads them with its owner's view of memory (R437): a register is read
whole, with its read side effects (R9). A word that the owner may not load ends the run. -/
def LogicDie.dmaWords (d : Ch) (owner : Nat) : Nat → Nat → LogicDie → LogicDie × List Nat
  | 0, _, x => (x, [])
  | n + 1, a, x =>
    if ¬ x.dmaMay owner a then (x, [])
    else
      let bs := (List.range 8).map (fun i => x.loadBytes d (owner == 2) (x.region (a + i)) (a + i) 1)
      let y := if (x.region a).isRegs then x.busTouch d a else x
      let r := LogicDie.dmaWords d owner n (a + 8) y
      (r.1, bs ++ r.2)

/-- What a DMA run reads, and what it leaves (R437). -/
def LogicDie.dmaRead (x : LogicDie) (d : Ch) (u : Nat) : LogicDie × List Nat :=
  let a := x.g F.CK_DMA_ADDR u
  let n := x.g F.CK_DMA_LEN u
  let r := LogicDie.dmaWords d (x.ckSt u).owner ((a % 8 + n + 7) / 8) (a - a % 8) x
  (r.1, (r.2.drop (a % 8)).take n)

/-- DMA_RUN_END (R86, R437): a busy run ends; `ecc` is what its reads met, at `at_`; an
uncorrectable word is source 17 + 2m as well (R311). -/
def execDmaRunEnd (d : Ch) (u : Fin 4) (ecc : Ecc) (at_ : Nat) (t : Time) (s : State) : Host.Outcome State Fault Refusal :=
  .next (s.modDie d (fun x =>
    let x := x.at t
    if ¬ x.is F.CK_STAT_BUSY u.val then x
    else
      let x := match (x.region at_).memory with
        | some m =>
          if ecc = Ecc.lasting then x.raise d (17 + 2 * m) at_ else x.eccSeen d ecc m at_ 0 true
        | none => x
      let r := x.dmaRead d u.val
      r.1.ckDmaEnd d u.val ecc r.2))

end Sys2Proof.Machine
end

