-- ==== Sys2Proof/Machine/EvInt.lean ====
section
/-! DEFINITION. Evpeal integer instructions: register forms (R120, R121) and immediate forms (R122). None of them traps
on its data. -/

namespace Sys2Proof.Machine

/-- 1 or 0 as a word. -/
def oneIf (b : Bool) : Word := if b then 1#64 else 0#64

/-- The number of leading zero bits, 64 for 0 (CLZ). -/
def leadingZeros (v : Word) : Nat :=
  (List.range 64).foldl (fun n i => if v.toNat.testBit i then 63 - i else n) 64

/-- The number of 1 bits (POPC). -/
def popCount (v : Word) : Nat := (List.range 64).foldl (fun n i => n + b2n (v.toNat.testBit i)) 0

/-- DIV (R120, R121): rounded toward zero; all ones for a zero divisor; the overflow case keeps the dividend. -/
def divSigned (a b : Word) : Word := if b = 0#64 then BitVec.allOnes 64 else BitVec.ofInt 64 (a.toInt.tdiv b.toInt)

/-- DIVU: all ones for a zero divisor. -/
def divUnsigned (a b : Word) : Word := if b = 0#64 then BitVec.allOnes 64 else BitVec.ofNat 64 (a.toNat / b.toNat)

/-- REM: wa - wb × DIV result; wa for a zero divisor. -/
def remSigned (a b : Word) : Word := if b = 0#64 then a else a - b * divSigned a b

/-- REMU: wa - wb × DIVU result; wa for a zero divisor. -/
def remUnsigned (a b : Word) : Word := if b = 0#64 then a else a - b * divUnsigned a b

/-- SHI (R122): kind 0 left, 1 right logical, 2 right arithmetic, 3 rotate right. -/
def shiftKind (k : Fin 4) (a : Word) (sh : Nat) : Word :=
  match k with
  | 0 => a <<< sh
  | 1 => a >>> sh
  | 2 => a.sshiftRight sh
  | 3 => a.rotateRight sh

/-- ADD (R120). -/
def execIAdd (c : Ctx) (wd wa wb : Fin 32) (s : State) : Host.Outcome State Fault Refusal :=
  runAlu c 1 1 [wa, wb] wd
    (fun x => let a := x.w c.companion wa; let b := x.w c.companion wb; a + b) s

/-- SUB (R120). -/
def execISub (c : Ctx) (wd wa wb : Fin 32) (s : State) : Host.Outcome State Fault Refusal :=
  runAlu c 1 1 [wa, wb] wd
    (fun x => let a := x.w c.companion wa; let b := x.w c.companion wb; a - b) s

/-- AND (R120). -/
def execIAnd (c : Ctx) (wd wa wb : Fin 32) (s : State) : Host.Outcome State Fault Refusal :=
  runAlu c 1 1 [wa, wb] wd
    (fun x => let a := x.w c.companion wa; let b := x.w c.companion wb; a &&& b) s

/-- OR (R120). -/
def execIOr (c : Ctx) (wd wa wb : Fin 32) (s : State) : Host.Outcome State Fault Refusal :=
  runAlu c 1 1 [wa, wb] wd
    (fun x => let a := x.w c.companion wa; let b := x.w c.companion wb; a ||| b) s

/-- XOR (R120). -/
def execIXor (c : Ctx) (wd wa wb : Fin 32) (s : State) : Host.Outcome State Fault Refusal :=
  runAlu c 1 1 [wa, wb] wd
    (fun x => let a := x.w c.companion wa; let b := x.w c.companion wb; a ^^^ b) s

/-- NOR (R120). -/
def execINor (c : Ctx) (wd wa wb : Fin 32) (s : State) : Host.Outcome State Fault Refusal :=
  runAlu c 1 1 [wa, wb] wd
    (fun x => let a := x.w c.companion wa; let b := x.w c.companion wb; ~~~(a ||| b)) s

/-- ANDN (R120). -/
def execIAndn (c : Ctx) (wd wa wb : Fin 32) (s : State) : Host.Outcome State Fault Refusal :=
  runAlu c 1 1 [wa, wb] wd
    (fun x => let a := x.w c.companion wa; let b := x.w c.companion wb; a &&& ~~~b) s

/-- SLL (R120). -/
def execISll (c : Ctx) (wd wa wb : Fin 32) (s : State) : Host.Outcome State Fault Refusal :=
  runAlu c 1 1 [wa, wb] wd
    (fun x => let a := x.w c.companion wa; let b := x.w c.companion wb; a <<< (b.toNat % 64)) s

/-- SRL (R120). -/
def execISrl (c : Ctx) (wd wa wb : Fin 32) (s : State) : Host.Outcome State Fault Refusal :=
  runAlu c 1 1 [wa, wb] wd
    (fun x => let a := x.w c.companion wa; let b := x.w c.companion wb; a >>> (b.toNat % 64)) s

/-- SRA (R120). -/
def execISra (c : Ctx) (wd wa wb : Fin 32) (s : State) : Host.Outcome State Fault Refusal :=
  runAlu c 1 1 [wa, wb] wd
    (fun x => let a := x.w c.companion wa; let b := x.w c.companion wb; a.sshiftRight (b.toNat % 64)) s

/-- ROR (R120). -/
def execIRor (c : Ctx) (wd wa wb : Fin 32) (s : State) : Host.Outcome State Fault Refusal :=
  runAlu c 1 1 [wa, wb] wd
    (fun x => let a := x.w c.companion wa; let b := x.w c.companion wb; a.rotateRight (b.toNat % 64)) s

/-- SEQ (R120). -/
def execISeq (c : Ctx) (wd wa wb : Fin 32) (s : State) : Host.Outcome State Fault Refusal :=
  runAlu c 1 1 [wa, wb] wd
    (fun x => let a := x.w c.companion wa; let b := x.w c.companion wb; oneIf (a == b)) s

/-- SNE (R120). -/
def execISne (c : Ctx) (wd wa wb : Fin 32) (s : State) : Host.Outcome State Fault Refusal :=
  runAlu c 1 1 [wa, wb] wd
    (fun x => let a := x.w c.companion wa; let b := x.w c.companion wb; oneIf (a != b)) s

/-- SLT (R120). -/
def execISlt (c : Ctx) (wd wa wb : Fin 32) (s : State) : Host.Outcome State Fault Refusal :=
  runAlu c 1 1 [wa, wb] wd
    (fun x => let a := x.w c.companion wa; let b := x.w c.companion wb; oneIf (a.slt b)) s

/-- SGE (R120). -/
def execISge (c : Ctx) (wd wa wb : Fin 32) (s : State) : Host.Outcome State Fault Refusal :=
  runAlu c 1 1 [wa, wb] wd
    (fun x => let a := x.w c.companion wa; let b := x.w c.companion wb; oneIf (!a.slt b)) s

/-- SLTU (R120). -/
def execISltu (c : Ctx) (wd wa wb : Fin 32) (s : State) : Host.Outcome State Fault Refusal :=
  runAlu c 1 1 [wa, wb] wd
    (fun x => let a := x.w c.companion wa; let b := x.w c.companion wb; oneIf (a.ult b)) s

/-- SGEU (R120). -/
def execISgeu (c : Ctx) (wd wa wb : Fin 32) (s : State) : Host.Outcome State Fault Refusal :=
  runAlu c 1 1 [wa, wb] wd
    (fun x => let a := x.w c.companion wa; let b := x.w c.companion wb; oneIf (!a.ult b)) s

/-- MIN (R120). -/
def execIMin (c : Ctx) (wd wa wb : Fin 32) (s : State) : Host.Outcome State Fault Refusal :=
  runAlu c 1 1 [wa, wb] wd
    (fun x => let a := x.w c.companion wa; let b := x.w c.companion wb; if a.slt b then a else b) s

/-- MAX (R120). -/
def execIMax (c : Ctx) (wd wa wb : Fin 32) (s : State) : Host.Outcome State Fault Refusal :=
  runAlu c 1 1 [wa, wb] wd
    (fun x => let a := x.w c.companion wa; let b := x.w c.companion wb; if a.slt b then b else a) s

/-- MINU (R120). -/
def execIMinu (c : Ctx) (wd wa wb : Fin 32) (s : State) : Host.Outcome State Fault Refusal :=
  runAlu c 1 1 [wa, wb] wd
    (fun x => let a := x.w c.companion wa; let b := x.w c.companion wb; if a.ult b then a else b) s

/-- MAXU (R120). -/
def execIMaxu (c : Ctx) (wd wa wb : Fin 32) (s : State) : Host.Outcome State Fault Refusal :=
  runAlu c 1 1 [wa, wb] wd
    (fun x => let a := x.w c.companion wa; let b := x.w c.companion wb; if a.ult b then b else a) s

/-- MUL (R120). -/
def execIMul (c : Ctx) (wd wa wb : Fin 32) (s : State) : Host.Outcome State Fault Refusal :=
  runMul c wd wa wb (fun a b => a * b) s

/-- MULH (R120). -/
def execIMulh (c : Ctx) (wd wa wb : Fin 32) (s : State) : Host.Outcome State Fault Refusal :=
  runMul c wd wa wb (fun a b => BitVec.ofInt 64 (a.toInt * b.toInt / 2 ^ 64)) s

/-- MULHU (R120). -/
def execIMulhu (c : Ctx) (wd wa wb : Fin 32) (s : State) : Host.Outcome State Fault Refusal :=
  runMul c wd wa wb (fun a b => BitVec.ofNat 64 (a.toNat * b.toNat / 2 ^ 64)) s

/-- DIV (R120, R121). -/
def execIDiv (c : Ctx) (wd wa wb : Fin 32) (s : State) : Host.Outcome State Fault Refusal :=
  runAlu c 34 38 [wa, wb] wd
    (fun x => let a := x.w c.companion wa; let b := x.w c.companion wb; divSigned a b) s

/-- DIVU (R120, R121). -/
def execIDivu (c : Ctx) (wd wa wb : Fin 32) (s : State) : Host.Outcome State Fault Refusal :=
  runAlu c 34 38 [wa, wb] wd
    (fun x => let a := x.w c.companion wa; let b := x.w c.companion wb; divUnsigned a b) s

/-- REM (R120, R121). -/
def execIRem (c : Ctx) (wd wa wb : Fin 32) (s : State) : Host.Outcome State Fault Refusal :=
  runAlu c 34 38 [wa, wb] wd
    (fun x => let a := x.w c.companion wa; let b := x.w c.companion wb; remSigned a b) s

/-- REMU (R120, R121). -/
def execIRemu (c : Ctx) (wd wa wb : Fin 32) (s : State) : Host.Outcome State Fault Refusal :=
  runAlu c 34 38 [wa, wb] wd
    (fun x => let a := x.w c.companion wa; let b := x.w c.companion wb; remUnsigned a b) s

/-- CLZ (R120). -/
def execIClz (c : Ctx) (wd wa : Fin 32) (s : State) : Host.Outcome State Fault Refusal :=
  runAlu c 1 2 [wa] wd (fun x => let a := x.w c.companion wa; BitVec.ofNat 64 (leadingZeros a)) s

/-- POPC (R120). -/
def execIPopc (c : Ctx) (wd wa : Fin 32) (s : State) : Host.Outcome State Fault Refusal :=
  runAlu c 1 2 [wa] wd (fun x => let a := x.w c.companion wa; BitVec.ofNat 64 (popCount a)) s

/-- SEXTB (R120). -/
def execISextb (c : Ctx) (wd wa : Fin 32) (s : State) : Host.Outcome State Fault Refusal :=
  runAlu c 1 1 [wa] wd (fun x => let a := x.w c.companion wa; sext 8 a.toNat) s

/-- SEXTH (R120). -/
def execISexth (c : Ctx) (wd wa : Fin 32) (s : State) : Host.Outcome State Fault Refusal :=
  runAlu c 1 1 [wa] wd (fun x => let a := x.w c.companion wa; sext 16 a.toNat) s

/-- SEXTW (R120). -/
def execISextw (c : Ctx) (wd wa : Fin 32) (s : State) : Host.Outcome State Fault Refusal :=
  runAlu c 1 1 [wa] wd (fun x => let a := x.w c.companion wa; sext 32 a.toNat) s

/-- BSWAP (R120). -/
def execIBswap (c : Ctx) (wd wa : Fin 32) (s : State) : Host.Outcome State Fault Refusal :=
  runAlu c 1 2 [wa] wd (fun x => let a := x.w c.companion wa; BitVec.ofNat 64 (ofBytesBE (bytesLE 8 a.toNat))) s

/-- ADDI (R122). -/
def execIAddi (c : Ctx) (wd wa : Fin 32) (imm : Fin 65536) (s : State) :
    Host.Outcome State Fault Refusal :=
  runAlu c 1 1 [wa] wd (fun x => let a := x.w c.companion wa; a + sext 16 imm.val) s

/-- ANDI (R122). -/
def execIAndi (c : Ctx) (wd wa : Fin 32) (imm : Fin 65536) (s : State) :
    Host.Outcome State Fault Refusal :=
  runAlu c 1 1 [wa] wd (fun x => let a := x.w c.companion wa; a &&& BitVec.ofNat 64 imm.val) s

/-- ORI (R122). -/
def execIOri (c : Ctx) (wd wa : Fin 32) (imm : Fin 65536) (s : State) :
    Host.Outcome State Fault Refusal :=
  runAlu c 1 1 [wa] wd (fun x => let a := x.w c.companion wa; a ||| BitVec.ofNat 64 imm.val) s

/-- XORI (R122). -/
def execIXori (c : Ctx) (wd wa : Fin 32) (imm : Fin 65536) (s : State) :
    Host.Outcome State Fault Refusal :=
  runAlu c 1 1 [wa] wd (fun x => let a := x.w c.companion wa; a ^^^ BitVec.ofNat 64 imm.val) s

/-- SLTI (R122). -/
def execISlti (c : Ctx) (wd wa : Fin 32) (imm : Fin 65536) (s : State) :
    Host.Outcome State Fault Refusal :=
  runAlu c 1 1 [wa] wd (fun x => let a := x.w c.companion wa; oneIf (a.slt (sext 16 imm.val))) s

/-- SLTIU (R122). -/
def execISltiu (c : Ctx) (wd wa : Fin 32) (imm : Fin 65536) (s : State) :
    Host.Outcome State Fault Refusal :=
  runAlu c 1 1 [wa] wd (fun x => let a := x.w c.companion wa; oneIf (a.ult (BitVec.ofNat 64 imm.val))) s

/-- MOVZ (R122): imm16 in halfword hw, the other bits zero. -/
def execIMovz (c : Ctx) (wd : Fin 32) (hw : Fin 4) (imm : Fin 65536) (s : State) : Host.Outcome State Fault Refusal :=
  runAlu c 1 1 [] wd (fun _ => BitVec.ofNat 64 (imm.val * 2 ^ (16 * hw.val))) s

/-- MOVK (R122): halfword hw of wd := imm16, its other bits unchanged. -/
def execIMovk (c : Ctx) (wd : Fin 32) (hw : Fin 4) (imm : Fin 65536) (s : State) : Host.Outcome State Fault Refusal :=
  runAlu c 1 1 [wd] wd (fun x => Word.setBits (x.w c.companion wd) (16 * hw.val + 15) (16 * hw.val) imm.val) s

/-- SHI (R122): wa shifted or rotated by sh. -/
def execIShi (c : Ctx) (wd wa : Fin 32) (kind : Fin 4) (sh : Fin 64) (s : State) : Host.Outcome State Fault Refusal :=
  runAlu c 1 1 [wa] wd (fun x => shiftKind kind (x.w c.companion wa) sh.val) s

/-- EXTU (R122): the field of width w1 + 1 at bit lsb; a field that leaves the word is an unassigned encoding. -/
def execIExtu (c : Ctx) (wd wa : Fin 32) (lsb w1 : Fin 64) (s : State) : Host.Outcome State Fault Refusal :=
  runInstr c .both [wa] [wd] (fun _ => 1) (fun _ => decide (lsb.val + w1.val + 1 > 64)) false
    (fun x => .done (x.setW c.companion wd
      (BitVec.ofNat 64 (((x.w c.companion wa).toNat / 2 ^ lsb.val) % 2 ^ (w1.val + 1))))) s

end Sys2Proof.Machine
end

