-- ==== Sys2Proof/Machine/EvLoad.lean ====
section
/-! DEFINITION. The Evpeal loads and stores (R123) on every core: the cores of the logic dies by Machine/EvMem.lean, the host cores by
the host-core map (R472). -/

namespace Sys2Proof.Machine

/-! ### The host-core map (R472) -/

/-- The regions of the host-core map. -/
inductive HostRegion where
  | sram | regs | snapshot | unmapped
  deriving DecidableEq, Repr

/-- The region that holds an address. -/
def hostRegion (a : Nat) : HostRegion :=
  if a < 0x2000000 then .sram
  else if 0x40000000 ≤ a ∧ a < 0x41000000 then .regs
  else if 0x50000000 ≤ a ∧ a < 0x50100000 then .snapshot
  else .unmapped

/-- The traps of an access of a host core, in order (R85, R99, R472, R503). -/
def LogicDie.hostTraps (x : LogicDie) (ok : Bool) (base : Fin 32) (a width : Nat) : Option Trap :=
  if ¬ ok then some (Trap.atAddr .priv a)
  else if misaligned false a width then some (Trap.atAddr .align a)
  else if x.offStack true base a width then some (Trap.atAddr .stack a)
  else none

/-- A load of a host core (R64, R86, R465, R471, R472): a load of a register reads the whole register, with its read
side effects. -/
def State.hostLoad (s : State) (n : Nat) (f : Finding) (a width : Nat) : State × Nat × Bool :=
  let h := s.host
  match hostRegion a with
  | .sram =>
    let e := h.eccSeen n f a
    ({ s with host := e.1 }, ofBytesLE (h.bytes a width), e.2)
  | .regs =>
    let o := a - a % 8 - 0x40000000
    let h := h.busTouch o
    ({ s with host := h }, bitsOf (h.busPeek o).toNat (8 * (a % 8) + 8 * width - 1) (8 * (a % 8)), false)
  | .snapshot => (s, ofBytesLE ((List.range width).map (fun i => snapByte h.snapBuf (a - 0x50000000 + i))), false)
  | .unmapped => (s, 0, false)

/-- A store of a host core (R338, R471, R472). -/
def State.hostStore (s : State) (a width : Nat) (v : Word) (t : Nat) : State :=
  match hostRegion a with
  | .sram =>
    let bs := bytesLE width v.toNat
    if a < windowBase then s.modHost (fun h => { h with mem := pokeBytes h.mem a bs })
    else s.modHost (fun h => h.windowWrite .hostFirmware (a - windowBase) bs)
  | .regs => s.hostWrite .hostFirmware (a - 0x40000000) width v t
  | _ => s

/-- A load on any core (R123). -/
def runAnyLoad (c : Ctx) (wd wa : Fin 32) (off : Fin 65536) (width : Nat) (s : State) : Host.Outcome State Fault Refusal :=
  match c.host with
  | none => runLoad c wd wa off width s
  | some n =>
    .next (s.runCore n.val c .both legal (fun s x =>
      let a := x.mAddr true wa off
      match x.hostTraps (hostRegion a != .unmapped) wa a width with
      | some t => .fail s t
      | none =>
        let r := s.hostLoad n.val (c.word 0) a width
        if r.2.2 then .fail r.1 (Trap.atAddr .memecc a) else .done r.1 (x.setW true wd (BitVec.ofNat 64 r.2.1))))

/-- A store on any core (R123). -/
def runAnyStore (c : Ctx) (ws wa : Fin 32) (off : Fin 65536) (width : Nat) (s : State) : Host.Outcome State Fault Refusal :=
  match c.host with
  | none => runStore c ws wa off width s
  | some n =>
    .next (s.runCore n.val c .both legal (fun s x =>
      let a := x.mAddr true wa off
      match x.hostTraps (hostRegion a == .sram || hostRegion a == .regs) wa a width with
      | some t => .fail s t
      | none => .done (s.hostStore a width (x.w true ws) c.now) x))

/-! ### The instructions (R123) -/

/-- LDB (R123). -/
def execILdb (c : Ctx) (wd wa : Fin 32) (off : Fin 65536) (s : State) : Host.Outcome State Fault Refusal :=
  runAnyLoad c wd wa off 1 s

/-- LDH (R123). -/
def execILdh (c : Ctx) (wd wa : Fin 32) (off : Fin 65536) (s : State) : Host.Outcome State Fault Refusal :=
  runAnyLoad c wd wa off 2 s

/-- LDW (R123). -/
def execILdw (c : Ctx) (wd wa : Fin 32) (off : Fin 65536) (s : State) : Host.Outcome State Fault Refusal :=
  runAnyLoad c wd wa off 4 s

/-- LDD (R123). -/
def execILdd (c : Ctx) (wd wa : Fin 32) (off : Fin 65536) (s : State) : Host.Outcome State Fault Refusal :=
  runAnyLoad c wd wa off 8 s

/-- STB (R123). -/
def execIStb (c : Ctx) (ws wa : Fin 32) (off : Fin 65536) (s : State) : Host.Outcome State Fault Refusal :=
  runAnyStore c ws wa off 1 s

/-- STH (R123). -/
def execISth (c : Ctx) (ws wa : Fin 32) (off : Fin 65536) (s : State) : Host.Outcome State Fault Refusal :=
  runAnyStore c ws wa off 2 s

/-- STW (R123). -/
def execIStw (c : Ctx) (ws wa : Fin 32) (off : Fin 65536) (s : State) : Host.Outcome State Fault Refusal :=
  runAnyStore c ws wa off 4 s

/-- STD (R123); a store into a safe word of the output image checks its codes (R78). -/
def execIStd (c : Ctx) (ws wa : Fin 32) (off : Fin 65536) (s : State) : Host.Outcome State Fault Refusal :=
  runAnyStore c ws wa off 8 s

end Sys2Proof.Machine
end

