-- ==== Sys2Proof/Machine/EvSafe.lean ====
section
/-! DEFINITION. Safe-logic instructions (R138-R141) and safety-function instructions over function slots (R142-R161). All
are fold-task only. -/

namespace Sys2Proof.Machine

/-! ### Safe logic (R139-R141) -/

/-- A safe-logic instruction: the codes that `ok` names are checked, then wd is written (R78, R138). -/
def runSafe (c : Ctx) (la lb : Nat) (srcs : List (Fin 32)) (wd : Fin 32) (ok : LogicDie → Bool) (f : LogicDie → Word) (s : State) :
    Host.Outcome State Fault Refusal :=
  runInstr c .foldOnly srcs [wd] (fun _ => cyc c.die la lb) legal false
    (fun x => if ok x then .done (x.setW false wd (f x)) else .trap (Trap.plain .scode)) s

/-- SAND (R139). -/
def execISand (c : Ctx) (wd wa wb : Fin 32) (s : State) : Host.Outcome State Fault Refusal :=
  runSafe c 1 1 [wa, wb] wd (fun x => safeValid (x.w false wa) && safeValid (x.w false wb))
    (fun x => safeWord (fun i => safeOne (x.w false wa) i && safeOne (x.w false wb) i)) s

/-- SOR (R139). -/
def execISor (c : Ctx) (wd wa wb : Fin 32) (s : State) : Host.Outcome State Fault Refusal :=
  runSafe c 1 1 [wa, wb] wd (fun x => safeValid (x.w false wa) && safeValid (x.w false wb))
    (fun x => safeWord (fun i => safeOne (x.w false wa) i || safeOne (x.w false wb) i)) s

/-- SANDN (R139): wa is safe-1 and wb is safe-0. -/
def execISandn (c : Ctx) (wd wa wb : Fin 32) (s : State) : Host.Outcome State Fault Refusal :=
  runSafe c 1 1 [wa, wb] wd (fun x => safeValid (x.w false wa) && safeValid (x.w false wb))
    (fun x => safeWord (fun i => safeOne (x.w false wa) i && !safeOne (x.w false wb) i)) s

/-- SNOT (R139). -/
def execISnot (c : Ctx) (wd wa : Fin 32) (s : State) : Host.Outcome State Fault Refusal :=
  runSafe c 1 1 [wa] wd (fun x => safeValid (x.w false wa))
    (fun x => safeWord (fun i => !safeOne (x.w false wa) i)) s

/-- SALL (R139): safe bit 0 says whether all 32 bits of wa are safe-1. -/
def execISall (c : Ctx) (wd wa : Fin 32) (s : State) : Host.Outcome State Fault Refusal :=
  runSafe c 1 2 [wa] wd (fun x => safeValid (x.w false wa))
    (fun x => safeWord (fun i => decide (i = 0) && (List.range 32).all (fun j => safeOne (x.w false wa) j))) s

/-- SANY (R139): safe bit 0 says whether any bit of wa is safe-1. -/
def execISany (c : Ctx) (wd wa : Fin 32) (s : State) : Host.Outcome State Fault Refusal :=
  runSafe c 1 2 [wa] wd (fun x => safeValid (x.w false wa))
    (fun x => safeWord (fun i => decide (i = 0) && (List.range 32).any (fun j => safeOne (x.w false wa) j))) s

/-- SCHK (R139): wd := wa after the check of all 32 codes. -/
def execISchk (c : Ctx) (wd wa : Fin 32) (s : State) : Host.Outcome State Fault Refusal :=
  runSafe c 1 1 [wa] wd (fun x => safeValid (x.w false wa)) (fun x => x.w false wa) s

/-- SCLR (R139): an all-safe-0 word. -/
def execISclr (c : Ctx) (wd : Fin 32) (s : State) : Host.Outcome State Fault Refusal :=
  runSafe c 1 1 [] wd (fun _ => true) (fun _ => safeZero) s

/-- SBMOV (R140): safe bit d := safe bit a of wa. -/
def execISbmov (c : Ctx) (wd wa bd ba : Fin 32) (s : State) : Host.Outcome State Fault Refusal :=
  runSafe c 1 1 [wa] wd (fun x => validCode (safeCode (x.w false wa) ba.val))
    (fun x => safeWord (fun i => decide (i = bd.val) && safeOne (x.w false wa) ba.val)) s

/-- SBNOT (R140): safe bit d := the inverse of safe bit a of wa. -/
def execISbnot (c : Ctx) (wd wa bd ba : Fin 32) (s : State) : Host.Outcome State Fault Refusal :=
  runSafe c 1 1 [wa] wd (fun x => validCode (safeCode (x.w false wa) ba.val))
    (fun x => safeWord (fun i => decide (i = bd.val) && !safeOne (x.w false wa) ba.val)) s

/-- SBCAST (R140): every safe bit := safe bit a of wa. -/
def execISbcast (c : Ctx) (wd wa ba : Fin 32) (s : State) : Host.Outcome State Fault Refusal :=
  runSafe c 1 1 [wa] wd (fun x => validCode (safeCode (x.w false wa) ba.val))
    (fun x => safeWord (fun _ => safeOne (x.w false wa) ba.val)) s

/-- SPKLO (R141): the low halves of wa and wb. -/
def execISpklo (c : Ctx) (wd wa wb : Fin 32) (s : State) : Host.Outcome State Fault Refusal :=
  runSafe c 1 1 [wa, wb] wd (fun x => safeValid (x.w false wa) && safeValid (x.w false wb))
    (fun x => safeWord (fun i => if i < 16 then safeOne (x.w false wa) i else safeOne (x.w false wb) (i - 16))) s

/-- SPKHI (R141): the high halves of wa and wb. -/
def execISpkhi (c : Ctx) (wd wa wb : Fin 32) (s : State) : Host.Outcome State Fault Refusal :=
  runSafe c 1 1 [wa, wb] wd (fun x => safeValid (x.w false wa) && safeValid (x.w false wb))
    (fun x => safeWord (fun i => if i < 16 then safeOne (x.w false wa) (i + 16) else safeOne (x.w false wb) i)) s

/-- SROT (R141): safe bit i := safe bit (i + wb[4:0]) mod 32 of wa; wb is an integer. -/
def execISrot (c : Ctx) (wd wa wb : Fin 32) (s : State) : Host.Outcome State Fault Refusal :=
  runSafe c 1 2 [wa, wb] wd (fun x => safeValid (x.w false wa))
    (fun x => safeWord (fun i => safeOne (x.w false wa) ((i + (x.w false wb).toNat % 32) % 32))) s

/-- SFROMI (R141): integer bits [31:0] of wa become safe bits; nothing is checked. -/
def execISfromi (c : Ctx) (wd wa : Fin 32) (s : State) : Host.Outcome State Fault Refusal :=
  runSafe c 1 1 [wa] wd (fun _ => true) (fun x => safeWord (fun i => (x.w false wa).toNat.testBit i)) s

/-! ### Function slots (R142-R151) -/

/-- The working copy of a slot while its instruction runs: state code, cause, PREV, the two timers. -/
structure SlotSt where
  code : Nat
  cause : Nat
  prev : Nat
  arm0 : Word
  arm1 : Word
  deriving DecidableEq, Repr

/-- Read a slot's state and timers. -/
def LogicDie.slotSt (x : LogicDie) (n : Nat) : SlotSt :=
  let st := x.slot n 0x18
  ⟨Word.bits st 3 0, Word.bits st 7 4, Word.bits st 8 8, x.slot n 0x20, x.slot n 0x28⟩

/-- The STATE word (R143). -/
def SlotSt.word (t : SlotSt) : Word := BitVec.ofNat 64 (t.code % 16 + (t.cause % 16) * 16 + (t.prev % 2) * 256)

/-- A timer armed at the fold's nominal start (R146). -/
def LogicDie.armed (x : LogicDie) : Word := BitVec.ofNat 64 (x.fold.start % 2 ^ 63 + 2 ^ 63)

/-- A timer word shows ARMED. -/
def isArmed (a : Word) : Bool := a.toNat.testBit 63

/-- EXPi of a slot (R146). -/
def LogicDie.exp (x : LogicDie) (n i : Nat) : Bool := (x.slot n 0x30).toNat.testBit i

/-- The input image's STARTED flag (R87). -/
def LogicDie.imgStarted (x : LogicDie) : Bool := (x.ld64 0x20000010).toNat.testBit 0

/-- The pair state of pair k in the input image (R87). -/
def LogicDie.pairState (x : LogicDie) (k : Nat) : Nat := safeCode (x.ld64 (0x20000038 + 8 * (k / 32))) (k % 32)

/-- A slot enters a state marked fault: its source is raised in commit (R151). -/
def LogicDie.slotFault (x : LogicDie) (n code : Nat) : LogicDie :=
  { x with core := { x.core with slotFaults := x.core.slotFaults ++ [(n, code)] } }

/-- The result word of a safety-function instruction: safe bits 0 to 2, the others safe-0 (R138, R152). -/
def slotResult (b0 b1 b2 : Bool) : Word :=
  safeWord (fun i => (i == 0 && b0) || (i == 1 && b1) || (i == 2 && b2))

/-- Write a slot back with its three journaled words, record a fault entry, and write wd (R147, R150, R151). The cause
in STATE [7:4] stays as the body leaves it (DESIGN CHOICE, log 133). -/
def LogicDie.slotDone (x : LogicDie) (n : Nat) (wd : Fin 32) (old new : SlotSt) (faultCode : Option Nat)
    (b0 b1 b2 : Bool) : Op :=
  let x := x.journal64 (slotAddr n 0x18) new.word
  let x := x.journal64 (slotAddr n 0x20) new.arm0
  let x := x.journal64 (slotAddr n 0x28) new.arm1
  let x := if faultCode = some new.code ∧ old.code ≠ new.code then x.slotFault n new.code else x
  .done (x.setW false wd (slotResult b0 b1 b2))

/-- A safety-function instruction: ILLEGAL where `bad` says so (R142), then its body. -/
def runSlot (c : Ctx) (la lb : Nat) (wd wa : Fin 32) (bad : LogicDie → Bool) (body : LogicDie → Op) (s : State) :
    Host.Outcome State Fault Refusal :=
  runInstr c .foldOnly [wa] [wd] (fun _ => cyc c.die la lb) bad true body s

/-! ### EQV and ANTV (R153, R154) -/

/-- The transitions of EQV and ANTV from the halves' activity and the pair state (R154). -/
def eqvNext (code : Nat) (startTest even odd : Bool) (ps : Nat) : Nat :=
  let inactive := !even && !odd
  match code with
  | 0 => if !startTest || inactive then 1 else 0
  | 1 => if ps = 3 then 4 else if even && odd then 2 else 1
  | 2 => if ps = 3 then 4 else if inactive then 1 else if even && odd then 2 else 3
  | 3 => if ps = 3 then 4 else if inactive then 1 else 3
  | 4 => if inactive then 1 else 4
  | k => k

/-- EQV (antivalent = false) and ANTV in variants 0 and 1 (R153, R154). -/
def runEqv (c : Ctx) (ty : Nat) (antivalent : Bool) (variant : Fin 64) (wd wa : Fin 32) (slot : Fin 1024) (s : State) :
    Host.Outcome State Fault Refusal :=
  runSlot c 7 9 wd wa
    (fun x => x.slotType slot.val != ty || decide (variant.val > 1) || (variant.val == 0 && wa.val != 0))
    (fun x =>
      let n := slot.val
      let old := x.slotSt n
      let k := x.cfgA n 21 16
      let e := if variant.val = 0 then x.inCode (2 * k) else safeCode (x.w false wa) 0
      let o := if variant.val = 0 then x.inCode (2 * k + 1) else safeCode (x.w false wa) 1
      if ¬ validCode e ∨ ¬ validCode o then .trap (Trap.plain .scode)
      else
        let even := e == 2
        let odd := if antivalent then o == 1 else o == 2
        let agree := even == odd
        let ps := if variant.val = 0 then x.pairState k
          else if agree then 0 else if ¬ isArmed old.arm0 then 1 else if x.exp n 0 then 3 else 2
        let arm0 := if variant.val = 0 then old.arm0
          else if agree then 0#64 else if ¬ isArmed old.arm0 then x.armed else old.arm0
        let code := eqvNext old.code (x.cfgA n 22 22 == 1) even odd ps
        x.slotDone n wd old { old with code := code, arm0 := arm0 } (if variant.val = 1 then some 4 else none)
          (code == 2) (code == 4) (ps == 1 || ps == 2)) s

/-- EQV (R153, R154). -/
def execIEqv (c : Ctx) (wd wa : Fin 32) (slot : Fin 1024) (variant : Fin 64) (s : State) :
    Host.Outcome State Fault Refusal := runEqv c 1 false variant wd wa slot s

/-- ANTV (R153, R154). -/
def execIAntv (c : Ctx) (wd wa : Fin 32) (slot : Fin 1024) (variant : Fin 64) (s : State) :
    Host.Outcome State Fault Refusal := runEqv c 2 true variant wd wa slot s

/-! ### TWOH (R155) -/

/-- A button: pressed, released or between. -/
inductive Button where
  | pressed | released | between
  deriving DecidableEq, Repr

/-- A button from its contacts' codes. -/
def button (even odd : Nat) : Button :=
  if even = 2 ∧ odd = 1 then .pressed else if even = 1 ∧ odd = 2 then .released else .between

/-- The transitions of TWOH (R155): the next state, and whether timer 0 is armed. -/
def twohNext (code : Nat) (b1 b2 : Button) (exp0 exp1 : Bool) : Nat × Bool :=
  let bothP := decide (b1 = .pressed ∧ b2 = .pressed)
  let bothR := decide (b1 = .released ∧ b2 = .released)
  let oneP := decide ((b1 = .pressed) ≠ (b2 = .pressed))
  match code with
  | 0 => (if bothR then 1 else 0, false)
  | 1 => if exp1 then (5, false) else if bothP then (3, false) else if oneP then (2, true) else (1, false)
  | 2 => (if exp1 then 5 else if exp0 then 4 else if bothP then 3 else if bothR then 1 else 2, false)
  | 3 => (if bothP then 3 else 4, false)
  | 4 => (if exp1 then 5 else if bothR then 1 else 4, false)
  | 5 => (if bothR then 1 else 5, false)
  | k => (k, false)

/-- TWOH (R155). -/
def execITwoh (c : Ctx) (wd wa : Fin 32) (slot : Fin 1024) (variant : Fin 64) (s : State) :
    Host.Outcome State Fault Refusal :=
  runSlot c 9 12 wd wa (fun x => x.slotType slot.val != 3 || variant.val != 0 || wa.val != 0)
    (fun x =>
      let n := slot.val
      let old := x.slotSt n
      let p1 := x.cfgA n 21 16
      let p2 := x.cfgA n 29 24
      let codes := [x.inCode (2 * p1), x.inCode (2 * p1 + 1), x.inCode (2 * p2), x.inCode (2 * p2 + 1)]
      if ¬ codes.all validCode then .trap (Trap.plain .scode)
      else
        let b1 := button (x.inCode (2 * p1)) (x.inCode (2 * p1 + 1))
        let b2 := button (x.inCode (2 * p2)) (x.inCode (2 * p2 + 1))
        let btw := decide (b1 = .between ∨ b2 = .between)
        let arm1 := if btw then (if isArmed old.arm1 then old.arm1 else x.armed) else 0#64
        let r := twohNext old.code b1 b2 (x.exp n 0) (x.exp n 1)
        let new := { old with code := r.1, arm0 := if r.2 then x.armed else old.arm0, arm1 := arm1 }
        x.slotDone n wd old new (some 5) (r.1 == 3) (r.1 == 5) btw) s

/-! ### RSTI (R156) -/

/-- The outputs of zone z: the OUTMASK of its ZONE slot if that slot is of TYPE 10 (R144). -/
def LogicDie.outMask (x : LogicDie) (z : Nat) : Nat :=
  if x.slotType (1008 + z) = 10 then Word.bits (x.slot (1008 + z) 0x10) 31 0 else 0

/-- The slot is blocked: its zone has an output whose short to the field supply is indicated (R156, R214). -/
def LogicDie.blocked (x : LogicDie) (n : Nat) : Bool :=
  Nat.land (x.outMask (x.cfgA n 7 4)) x.fold.short != 0

/-- The transitions of RSTI (R156): the next state, the cause of an entry into LOCKED, whether the timers are armed. -/
def rstiNext (code cause prev : Nat) (started permissive blocked reset exp0 exp1 : Bool) : Nat × Nat × Bool :=
  match code with
  | 0 => if started && permissive && !blocked && reset && prev == 1 then (1, cause, true) else (0, cause, false)
  | 1 =>
    if !permissive then (0, 3, false) else if exp1 then (0, 2, false) else if blocked then (0, 4, false)
    else if !reset && exp0 then (2, cause, false) else if !reset then (0, 1, false) else (1, cause, false)
  | 2 => if !permissive then (0, 3, false) else (2, cause, false)
  | k => (k, cause, false)

/-- RSTI in variants 0 and 1 (R156). -/
def execIRsti (c : Ctx) (wd wa : Fin 32) (slot : Fin 1024) (variant : Fin 64) (s : State) :
    Host.Outcome State Fault Refusal :=
  runSlot c 7 9 wd wa (fun x => x.slotType slot.val != 4 || decide (variant.val > 1))
    (fun x =>
      let n := slot.val
      let old := x.slotSt n
      let p := safeCode (x.w false wa) 0
      let r := if variant.val = 0 then x.inCode (x.cfgA n 22 16) else safeCode (x.w false wa) 1
      if ¬ validCode p ∨ ¬ validCode r then .trap (Trap.plain .scode)
      else
        let blk := x.blocked n
        let q := rstiNext old.code old.cause old.prev x.imgStarted (p == 2) blk (r == 2) (x.exp n 0) (x.exp n 1)
        let new : SlotSt := { code := q.1, cause := q.2.1, prev := b2n (r == 1),
                              arm0 := if q.2.2 then x.armed else old.arm0,
                              arm1 := if q.2.2 then x.armed else old.arm1 }
        x.slotDone n wd old new none (q.1 == 2) false blk) s

/-! ### EDM (R157) -/

/-- The transitions of EDM: the next state, whether timer 0 and timer 1 are armed. -/
def edmNext (code : Nat) (cmd ack fb exp0 exp1 : Bool) : Nat × Bool × Bool :=
  match code with
  | 0 => if !fb then (4, false, false) else if cmd then (1, true, false) else (0, false, false)
  | 1 => if !cmd then (3, false, true) else if !fb then (2, false, false) else if exp0 then (4, false, false)
         else (1, false, false)
  | 2 => if !cmd then (3, false, true) else if fb then (4, false, false) else (2, false, false)
  | 3 => if fb then (0, false, false) else if exp1 then (4, false, false) else (3, false, false)
  | 4 => if ack && !cmd && fb then (0, false, false) else (4, false, false)
  | k => (k, false, false)

/-- EDM in variants 0 and 1 (R157). -/
def execIEdm (c : Ctx) (wd wa : Fin 32) (slot : Fin 1024) (variant : Fin 64) (s : State) :
    Host.Outcome State Fault Refusal :=
  runSlot c 7 9 wd wa (fun x => x.slotType slot.val != 5 || decide (variant.val > 1))
    (fun x =>
      let n := slot.val
      let old := x.slotSt n
      let cm := safeCode (x.w false wa) 0
      let ac := safeCode (x.w false wa) 1
      let fb := if variant.val = 0 then x.inCode (x.cfgA n 22 16) else safeCode (x.w false wa) 2
      if ¬ validCode cm ∨ ¬ validCode ac ∨ ¬ validCode fb then .trap (Trap.plain .scode)
      else
        let q := edmNext old.code (cm == 2) (ac == 2) (fb == 2) (x.exp n 0) (x.exp n 1)
        let new := { old with code := q.1, arm0 := if q.2.1 then x.armed else old.arm0,
                              arm1 := if q.2.2 then x.armed else old.arm1 }
        x.slotDone n wd old new (some 4) (q.1 == 1 || q.1 == 2) (q.1 == 4) (fb == 2)) s

/-! ### MUTE (R158) -/

/-- The transitions of MUTE: the next state, whether timer 0 and timer 1 are armed. -/
def muteNext (code : Nat) (dev a b enable exp0 exp1 : Bool) : Nat × Bool × Bool :=
  match code with
  | 0 => if enable && a && b then (2, false, true) else if a != b then (1, true, false) else (0, false, false)
  | 1 => if exp0 then (3, false, false) else if enable && a && b then (2, false, true)
         else if !a && !b then (0, false, false) else (1, false, false)
  | 2 => if exp1 then (3, false, false) else if !enable || !a || !b then (0, false, false) else (2, false, false)
  | 3 => if !a && !b && dev then (0, false, false) else (3, false, false)
  | k => (k, false, false)

/-- MUTE (R158). -/
def execIMute (c : Ctx) (wd wa : Fin 32) (slot : Fin 1024) (variant : Fin 64) (s : State) :
    Host.Outcome State Fault Refusal :=
  runSlot c 8 11 wd wa (fun x => x.slotType slot.val != 6 || variant.val != 0)
    (fun x =>
      let n := slot.val
      let old := x.slotSt n
      let v := x.w false wa
      if ¬ (List.range 4).all (fun i => validCode (safeCode v i)) then .trap (Trap.plain .scode)
      else
        let q := muteNext old.code (safeOne v 0) (safeOne v 1) (safeOne v 2) (safeOne v 3) (x.exp n 0) (x.exp n 1)
        let new := { old with code := q.1, arm0 := if q.2.1 then x.armed else old.arm0,
                              arm1 := if q.2.2 then x.armed else old.arm1 }
        x.slotDone n wd old new (some 3) (q.1 == 2 || safeOne v 0) (q.1 == 3) (q.1 == 2)) s

/-! ### TON and TOF (R159) -/

/-- The transitions of TON and TOF: the next state and timer 0 armed (some true), disarmed (some false) or kept. -/
def delayNext (tof : Bool) (code : Nat) (input exp0 : Bool) : Nat × Option Bool :=
  match tof, code with
  | false, 0 => if input then (1, some true) else (0, none)
  | false, 1 => if !input then (0, none) else if exp0 then (2, none) else (1, none)
  | false, 2 => if !input then (0, some false) else (2, none)
  | true, 0 => if input then (2, none) else (0, none)
  | true, 1 => if input then (2, some false) else if exp0 then (0, none) else (1, none)
  | true, 2 => if !input then (1, some true) else (2, none)
  | _, k => (k, none)

/-- TON and TOF write STATE and ARM0 only (R152). -/
def runDelay (c : Ctx) (ty : Nat) (tof : Bool) (wd wa : Fin 32) (slot : Fin 1024) (s : State) :
    Host.Outcome State Fault Refusal :=
  runSlot c 5 7 wd wa (fun x => x.slotType slot.val != ty)
    (fun x =>
      let n := slot.val
      let old := x.slotSt n
      let i := safeCode (x.w false wa) 0
      if ¬ validCode i then .trap (Trap.plain .scode)
      else
        let q := delayNext tof old.code (i == 2) (x.exp n 0)
        let arm0 := match q.2 with
          | some true => x.armed
          | some false => 0#64
          | none => old.arm0
        let y := x.journal64 (slotAddr n 0x18) ({ old with code := q.1 } : SlotSt).word
        let y := y.journal64 (slotAddr n 0x20) arm0
        .done (y.setW false wd (slotResult (q.1 == 2 || (tof && q.1 == 1)) false (q.1 == 1)))) s

/-- TON (R159). -/
def execITon (c : Ctx) (wd wa : Fin 32) (slot : Fin 1024) (s : State) : Host.Outcome State Fault Refusal :=
  runDelay c 7 false wd wa slot s

/-- TOF (R159). -/
def execITof (c : Ctx) (wd wa : Fin 32) (slot : Fin 1024) (s : State) : Host.Outcome State Fault Refusal :=
  runDelay c 8 true wd wa slot s

/-! ### LIMIT (R160) -/

/-- The transitions of LIMIT: the next state and timer 0 armed (some true), disarmed (some false) or kept. -/
def limitNext (code a b low high tol hyst : Nat) (ack exp0 : Bool) : Nat × Option Bool :=
  let d := absDiff a b
  let inn := fun v => decide (low ≤ v ∧ v ≤ high)
  let inh := fun v => decide (low + hyst ≤ v ∧ v + hyst ≤ high)
  match code with
  | 0 => if d > tol then (2, some true) else if inh a && inh b then (1, none) else (0, none)
  | 1 => if d > tol then (2, some true) else if !inn a || !inn b then (0, none) else (1, none)
  | 2 => if exp0 then (3, none) else if d ≤ tol then (0, some false) else (2, none)
  | 3 => if ack && decide (d ≤ tol) then (0, none) else (3, none)
  | k => (k, none)

/-- LIMIT (R160). -/
def execILimit (c : Ctx) (wd wa : Fin 32) (slot : Fin 1024) (variant : Fin 64) (s : State) :
    Host.Outcome State Fault Refusal :=
  runSlot c 8 11 wd wa (fun x => x.slotType slot.val != 9 || variant.val != 0)
    (fun x =>
      let n := slot.val
      let old := x.slotSt n
      let ack := safeCode (x.w false wa) 0
      if ¬ validCode ack then .trap (Trap.plain .scode)
      else
        let ai := x.cfgA n 18 16
        let a := readLE x.mem (0x20000050 + 2 * ai) 2
        let b := readLE x.mem (0x20000060 + 2 * ai) 2
        let cfg := x.slot n 0x10
        let q := limitNext old.code a b (Word.bits cfg 15 0) (Word.bits cfg 31 16) (Word.bits cfg 47 32)
          (Word.bits cfg 63 48) (ack == 2) (x.exp n 0)
        let arm0 := match q.2 with
          | some true => x.armed
          | some false => 0#64
          | none => old.arm0
        x.slotDone n wd old { old with code := q.1, arm0 := arm0 } (some 3) (q.1 == 1) (q.1 == 3) (q.1 == 2)) s

/-! ### ZONE (R161) -/

/-- ZONE of variant 0 (R161): its own STATE, the RSTI slot's STATE and the zone-state bit are its three journaled
words. -/
def execIZone (c : Ctx) (wd wa : Fin 32) (z : Fin 16) (s : State) : Host.Outcome State Fault Refusal :=
  runSlot c 7 9 wd wa (fun x => x.slotType (1008 + z.val) != 10)
    (fun x =>
      let n := 1008 + z.val
      let old := x.slotSt n
      let demand := safeCode (x.w false wa) 0
      if ¬ validCode demand then .trap (Trap.plain .scode)
      else
        let r := x.cfgA n 25 16
        let rs := x.slotSt r
        let released := rs.code == 2
        let stop := old.code == 1 && (demand != 2 || !released)
        let run := if old.code = 0 then demand == 2 && x.imgStarted && released else old.code == 1 && !stop
        let rs' := if stop && released then { rs with code := 0, cause := 5 } else rs
        let x := x.journal64 (slotAddr n 0x18) ({ old with code := b2n run } : SlotSt).word
        let x := x.journal64 (slotAddr r 0x18) rs'.word
        let x := x.journal64 0x20001010 (setCode (x.ld64 0x20001010) z.val (codeOf run))
        .done (x.setW false wd (slotResult run (!released) false))) s

/-- ZONE.Q (R161): the zone-state bit, without change; the wa field is zero. -/
def execIZoneQ (c : Ctx) (wd wa : Fin 32) (z : Fin 16) (s : State) : Host.Outcome State Fault Refusal :=
  runSlot c 3 4 wd wa (fun x => x.slotType (1008 + z.val) != 10 || wa.val != 0)
    (fun x => .done (x.setW false wd (setCode safeZero 0 (safeCode (x.ld64 0x20001010) z.val)))) s

/-- An unassigned encoding (R112): the word traps ILLEGAL. -/
def execUnassigned (c : Ctx) (s : State) : Host.Outcome State Fault Refusal :=
  runInstr c .both [] [] (fun _ => 0) (fun _ => true) false (fun x => .done x) s

end Sys2Proof.Machine
end

