-- ==== Sys2Proof/Machine/Fold.lean ====
section
/-! DEFINITION. The phases of a fold (R37-R63): freeze, exchange and pair agreement, checkpoint, slot timers, output
agreement, commit with its held effects (R127, R128), FOLD_DONE (R323), missed folds, and the crosslink's slots (R32-R34). -/

namespace Sys2Proof.Machine

/-! ### Freeze (R38, R89, R90, R163, R197, R239) -/

/-- `t` is a fold start of the configured grid (R45). -/
def LogicDie.onGrid (x : LogicDie) (t : Nat) : Bool :=
  decide (((t : Int) - (x.g F.FOLD_OFFSET_OFFSET * 1000 : Nat)) % ((x.g F.FOLD_PERIOD_PERIOD * 1000 : Nat) : Int) = 0)

/-- A zone that took its reaction in a missed fold (R163): its bit falls, its ZONE slot is STOPPED, its interlock LOCKED. -/
def LogicDie.zoneStopped (x : LogicDie) (z : Nat) : LogicDie :=
  let n := 1008 + z
  let r := x.cfgA n 25 16
  let x := x.st64 0x20001010 (setCode (x.ld64 0x20001010) z 1)
  let x := x.st64 (slotAddr n 0x18) (Word.setBits (x.slot n 0x18) 3 0 0)
  x.st64 (slotAddr r 0x18) (Word.setBits (Word.setBits (x.slot r 0x18) 3 0 0) 7 4 5)

/-- The zones of a mask take R163. -/
def LogicDie.zonesStopped (x : LogicDie) (zones : Nat) : LogicDie :=
  (List.range 16).foldl (fun x z => if zones.testBit z then x.zoneStopped z else x) x

/-- AIn has no result younger than MAXAGE at the fold start (R197, R276). -/
def LogicDie.analogStale (x : LogicDie) (n start : Nat) : Bool :=
  let c := n / 4
  let e := x.g F.SI_AICFG_ENTRY n
  let time := Word.bits (x.rd .ADC_LAST (16 * c + e)) 63 32
  !x.bit F.ADC_STAT_LVALID e c || decide (x.g F.SI_AICFG_MAXAGE n * 1000 ≤ (start + 2 ^ 32 - time) % 2 ^ 32)

/-- What the die places for AIn (R197, R284): the latest result of its entry, or 0xFFFF. -/
def LogicDie.analogOf (x : LogicDie) (n start : Nat) : Nat :=
  let r := x.rd .ADC_LAST (16 * (n / 4) + x.g F.SI_AICFG_ENTRY n)
  if x.is F.ADC_CTRL_CALEN ∨ ¬ x.is F.SI_AICFG_ENABLE n ∨ x.analogStale n start ∨ Word.bits r 28 28 = 1 ∨ Word.bits r 22 22 = 1 ∨
      x.is F.SI_AICFG_OVC n then 0xFFFF
  else min (Word.bits r 15 0) 0xFFFE

/-- STALE of every AIn at a fold start. -/
def LogicDie.markStale (x : LogicDie) (start : Nat) : LogicDie :=
  (List.range 8).foldl (fun x n => x.p F.SI_AICFG_STALE (b2n (x.is F.SI_AICFG_ENABLE n && x.analogStale n start)) n) x

/-- The exchange frame that a die freezes (R38, R48, R49, R239). -/
def LogicDie.freeze (x : LogicDie) (d : Ch) (start : Nat) : XFrame :=
  { start := start % 2 ^ 32
    digest := x.fold.digest
    halves := (List.range 48).map (fun k => codeOf (x.frozenHigh k start))
    crooks := x.g F.SO_CROOK_IN_A + 2 * x.g F.SO_CROOK_IN_B
    analog := (List.range 8).map (fun n => x.analogOf n start)
    proofs := match d with | .la => 0 | .lb => x.proofCodes }

/-- SO_SHORT as the freeze takes it (R214). -/
def LogicDie.shorts (x : LogicDie) : Nat := x.g F.SO_SHORT_BITS

/-- START takes effect at the first fold start at or after the accepted instant (R341). -/
def LogicDie.takeStart (x : LogicDie) (start : Nat) : LogicDie :=
  match x.fold.startAt with
  | some s => if s ≤ start then { x.p F.FOLD_STATUS_STARTED 1 with fold := { x.fold with startAt := none } } else x
  | none => x

/-- A fold of a die starts (R38, R45): START, the crook inputs as read, the reaction to a miss, the freeze, the shared
page, the flock. -/
def LogicDie.foldStart (x peer : LogicDie) (d : Ch) (start : Nat) (inA inB : Bool) (t : Nat) : LogicDie :=
  let x := ((x.takeStart start).trigFrom 1 t).readCrooks d inA inB t
  let x := (x.zonesStopped x.fold.reacted).markStale start
  let f := x.freeze d start
  let shared := if x.comp.sharedAt = start then unwind x.mem x.comp.sharedOld else x.mem
  let x := { x with
    memF := Sparse.copy memDflt shared x.memF 0x20002800 0x20003000
    xl := { x.xl with rxExchange := none, rxAgreement := none }
    fold := { x.fold with
      phase := .sample, start := start, begun := some start, frame := f, reacted := 0, short := x.shorts } }
  x.vctFoldStart peer d start t

/-- Folds run on a die: RUNNING, not safe, not held by the debugger (R41, R60, R414). -/
def LogicDie.folding (x : LogicDie) : Bool :=
  x.is F.FOLD_STATUS_RUNNING && !x.is F.FOLD_STATUS_SAFE && !x.is F.DBG_STAT_HOLD

/-- An instant of the running fold, `k` ns after its start (R37). -/
def LogicDie.atPhase (x : LogicDie) (t k : Nat) : Bool := decide (t = x.fold.start + k)

/-- An instant of the running fold after `lo` ns, and `hi` ns at most. -/
def LogicDie.inPhase (x : LogicDie) (t lo hi : Nat) : Bool := decide (x.fold.start + lo < t ∧ t ≤ x.fold.start + hi)

/-- The fold period in ns. -/
def LogicDie.foldNs (x : LogicDie) : Nat := x.g F.FOLD_PERIOD_PERIOD * 1000

/-- A die whose safety timebase reads `start` starts a fold there (R45): an instant of the grid at which it has begun
none. -/
def LogicDie.startsAt (x : LogicDie) (start t : Nat) : Bool :=
  decide (t = start) && decide (x.now = start) && x.onGrid start && x.fold.begun.all (fun b => decide (b < start))

/-- FOLD_START (R38, R45): die d starts a fold whose nominal start is `start`. -/
def execFoldStart (d : Ch) (start : Time) (inA inB : Bool) (t : Time) (s : State) : Host.Outcome State Fault Refusal :=
  let peer := s.die (other d)
  .next (s.modDie d (fun x =>
    let x := x.at t
    if x.folding ∧ x.fold.phase = .idle ∧ x.startsAt start t then x.foldStart peer d start inA inB t else x))

/-- SLOT_TIMER_EXPIRY (R146): STATUS of every slot for the running fold, before the checkpoint. -/
def LogicDie.slotTimers (x : LogicDie) : LogicDie :=
  (List.range 1024).foldl (fun x n =>
    let time := x.slot n 0x08
    let due := fun (arm : Word) (us : Nat) =>
      isArmed arm && decide (arm.toNat % 2 ^ 63 + 1000 * us ≤ x.fold.start)
    let st := b2n (due (x.slot n 0x20) (Word.bits time 31 0)) + 2 * b2n (due (x.slot n 0x28) (Word.bits time 63 32))
    x.st64 (slotAddr n 0x30) (BitVec.ofNat 64 st)) x

/-- SLOT_TIMER_EXPIRY (R146). -/
def execSlotTimerExpiry (d : Ch) (t : Time) (s : State) : Host.Outcome State Fault Refusal :=
  .next (s.modDie d (fun x =>
    let x := x.at t
    if x.folding ∧ (x.fold.phase = .sample ∨ x.fold.phase = .exchange ∨ x.fold.phase = .ready) ∧ x.inPhase t 0 550 then
      x.slotTimers
    else x))

/-! ### Exchange (R48-R52, R59, R87) -/

/-- A number whose `w`-bit fields are the elements of a list, the first lowest. -/
def packBits (w : Nat) : List Nat → Nat
  | [] => 0
  | v :: vs => v % 2 ^ w + 2 ^ w * packBits w vs

/-- The first `n` fields of `w` bits of a number. -/
def unpackBits (w : Nat) : Nat → Nat → List Nat
  | 0, _ => []
  | n + 1, v => v % 2 ^ w :: unpackBits w n (v / 2 ^ w)

/-- The payload of the exchange frame (R49). -/
def XFrame.payload (f : XFrame) : List Nat :=
  bytesLE 4 f.start ++ bytesLE 8 f.digest ++ bytesLE 12 (packBits 2 f.halves) ++ [f.crooks % 4, 0, 0, 0] ++
    bytesLE 16 (packBits 16 f.analog) ++ bytesLE 16 f.proofs ++ [0, 0, 0, 0]

/-- What a die reads from the payload of an exchange frame (R49). -/
def XFrame.ofPayload (p : List Nat) : XFrame :=
  let at_ := fun (o n : Nat) => ofBytesLE ((p.drop o).take n)
  ⟨at_ 0 4, at_ 4 8, unpackBits 2 48 (at_ 12 12), at_ 24 1 % 4, unpackBits 16 8 (at_ 28 16), at_ 44 16⟩

/-- A fold-slot frame is sent (R33); one of an earlier fold in its slot is gone. -/
def LogicDie.sendSlot (x : LogicDie) (i : XItem) : LogicDie := (x.xdrop i.slot).xsend i

/-- EXCHANGE (R37, R49, R60): a die that has not gone safe sends its exchange frame, 100 ns after the fold start. -/
def execExchange (d : Ch) (t : Time) (s : State) : Host.Outcome State Fault Refusal :=
  .next (s.modDie d (fun x =>
    let x := x.at t
    if x.folding ∧ x.fold.phase = .sample ∧ x.atPhase t 100 then
      { x with fold := { x.fold with phase := .exchange } }.sendSlot (.exchange x.fold.frame.payload)
    else x))

/-- The slots of TYPE 1 or 2: the pair each binds, whether it is antivalent, and its discrepancy time in ns (R145). -/
def LogicDie.bindings (x : LogicDie) : List (Nat × Bool × Nat) :=
  (List.range 1024).filterMap (fun n =>
    let ty := x.slotType n
    if ty = 1 ∨ ty = 2 then some (x.cfgA n 21 16, ty == 2, 1000 * Word.bits (x.slot n 0x08) 31 0) else none)

/-- The state of pair k in a fold that starts at `start` (R50): its code, and the first sighting kept. -/
def pairStep (bind : Option (Bool × Nat)) (first : Option (Nat × Nat)) (a b start number : Nat) :
    Nat × Option (Nat × Nat) :=
  let anti := match bind with | some (v, _) => v | none => false
  if (a == b) != anti then (0, none)
  else
    match first with
    | none => (1, some (start, number))
    | some (f, n) =>
      match bind with
      | some (_, disc) => if f + disc ≤ start then (3, some (f, n)) else (2, some (f, n))
      | none => (2, some (f, n))

/-- The first sighting of a pair. -/
def LogicDie.firstOf (x : LogicDie) (k : Nat) : Option (Nat × Nat) := Sparse.get (fun _ => none) x.fold.first k

/-- The pair states of a combined image: the states and first sightings of pairs 0 to 47. -/
def LogicDie.pairs (x : LogicDie) (a b : List Nat) : List (Nat × Option (Nat × Nat)) :=
  let bs := x.bindings
  (List.range 48).map (fun k =>
    pairStep ((bs.find? (fun e => e.1 == k)).map (·.2)) (x.firstOf k) (a.getD k 1) (b.getD k 1) x.fold.start x.recFold)

/-- The safe codes of SIn in order: pair k's half of LA, then of LB (R4, R87). -/
def interleave : List Nat → List Nat → List Nat
  | a :: as, b :: bs => a :: b :: interleave as bs
  | _, _ => []

/-- Write the input image page from the frames of LA and LB and the pair states (R87). -/
def LogicDie.writeImage (x : LogicDie) (fa fb : XFrame) (ps : List Nat) : LogicDie :=
  let si := packBits 2 (interleave fa.halves fb.halves)
  let pw := packBits 2 ps
  let crook := (List.range 4).foldl (fun v i =>
    setCode v i (codeOf (if i < 2 then fa.crooks.testBit i else fb.crooks.testBit (i - 2)))) safeZero
  let flags := x.g F.FOLD_STATUS_STARTED + 2 * x.g F.FOLD_STATUS_ALIGNED + 4 * x.g F.FOLD_STATUS_MISSED_LAST
  let aa := packBits 16 fa.analog
  let ab := packBits 16 fb.analog
  let words := [x.recFold, x.fold.start, flags, x.g F.STL_TALLY_TALLY, si, si / 2 ^ 64, si / 2 ^ 128, pw, pw / 2 ^ 64,
    crook.toNat, aa, aa / 2 ^ 64, ab, ab / 2 ^ 64, fb.proofs, fb.proofs / 2 ^ 64]
  (List.range 16).foldl (fun x i => x.st64 (0x20000000 + 8 * i) (BitVec.ofNat 64 (words.getD i 0))) x

/-- The sources that an exchange raises (R48, R52, R59): skew, digest, pairs that enter discrepant. -/
def LogicDie.exchangeEvents (x : LogicDie) (f : XFrame) (ps : List (Nat × Option (Nat × Nat))) : List FcEvent :=
  let mine := x.fold.frame
  let a := (mine.start + 2 ^ 32 - f.start) % 2 ^ 32
  let skew := min a ((2 ^ 32 - a) % 2 ^ 32)
  let ev := fun (src detail : Nat) => (⟨src, detail, none, false, false⟩ : FcEvent)
  (if 100 < skew then [ev 34 skew] else []) ++
  (if mine.digest ≠ f.digest ∧ ¬ x.fold.omitDigest then [ev 36 x.recFold] else []) ++
  (List.range 48).filterMap (fun k =>
    match ps.getD k (0, none) with
    | (3, some (_, n)) => if x.bit F.FOLD_PAIR_DISC_PAIRS k then none else some (ev (64 + k) n)
    | _ => none)

/-- The other channel's exchange frame arrives (R49, R50): the combined image and the pair states. -/
def LogicDie.combine (x : LogicDie) (d : Ch) (f : XFrame) : LogicDie :=
  let fa := match d with | .la => x.fold.frame | .lb => f
  let fb := match d with | .la => f | .lb => x.fold.frame
  let ps := x.pairs fa.halves fb.halves
  let es := x.exchangeEvents f ps
  let codes := ps.map (·.1)
  let x := x.writeImage fa fb codes
  let bits := fun (p : Nat → Bool) => (List.range 48).foldl (fun v k => v + b2n (p (codes.getD k 0)) * 2 ^ k) 0
  let x := (x.p F.FOLD_PAIR_PEND_PAIRS (bits (fun c => c == 1 || c == 2))).p F.FOLD_PAIR_DISC_PAIRS
    (bits (fun c => c == 3))
  let first := (List.range 48).foldl (fun m k => Sparse.put (fun _ => none) m k (ps.getD k (0, none)).2) x.fold.first
  let x := { x with fold := { x.fold with first := first, omitDigest := false, phase := .ready } }
  x.raiseAll d es

/-- EXCHANGE_FRAME (R37, R49): the exchange phase of die d takes the exchange frame that it has received from the
other channel, whatever that channel has done since it sent it. -/
def execExchangeFrame (d : Ch) (t : Time) (s : State) : Host.Outcome State Fault Refusal :=
  .next (s.modDie d (fun x =>
    let x := x.at t
    if ¬ x.folding ∨ x.fold.phase ≠ .exchange ∨ ¬ x.inPhase t 100 550 then x
    else
      match x.xl.rxExchange with
      | some p => { x with xl := { x.xl with rxExchange := none } }.combine d (XFrame.ofPayload p)
      | none => x))

/-! ### Checkpoint (R42, R75, R290, R295) -/

/-- The attempt phase begins from the checkpoint: registers of the last commit, the fold entry, an empty journal. -/
def LogicDie.startAttempt (x : LogicDie) : LogicDie :=
  { x with
    core := { x.core with
      w := x.core.wCommit, pc := x.hdr.entry, running := true, complete := false, rolling := false, firstCause := 0,
      firstCycles := 0, attempt := 0, cycles := 0, window := 0, ending := none, callDepth := 0, rets := [], loops := [],
      journal := [], jovf := false, masked := none, maskedAt := 0 }
    pipe := { x.pipe with ready := [], buf := [], lastStore := none } }

/-- CHECKPOINT (R42, R290, R295): E starts. `differ`: the index of a register in which the cores differ (no majority in
triad mode); `minority`: in triad mode, the one core whose state was corrected; `corrected`: single-bit errors corrected. -/
def execCheckpoint (d : Ch) (differ : Option (Fin 4096)) (found : CkptFound) (t : Time) (s : State) :
    Host.Outcome State Fault Refusal :=
  .next (s.modDie d (fun x =>
    let x := x.at t
    if ¬ x.folding ∨ x.fold.phase ≠ .ready ∨ ¬ x.atPhase t 550 then x
    else
      let x := { x with fold := { x.fold with phase := .execute } }.count F.FC_ECCCNT_CORR found.corrected
      match differ with
      | some r => x.raise d 2 r.val
      | none =>
        let x := x.startAttempt
        match found.minority with
        | some m => if x.hdr.triad then (x.count F.FC_LSCNT_MINOR).raise d 3 m.val else x
        | none => x))

/-! ### The end of E: missed folds (R44, R61-R63, R110, R111) -/

/-- E ends without a completed attempt. -/
def LogicDie.incomplete (x : LogicDie) : Bool := x.fold.phase == .execute && !x.core.complete

/-- The zones that have an OUTMASK. -/
def LogicDie.zonesDefined (x : LogicDie) : Nat :=
  (List.range 16).foldl (fun v z => v + b2n (x.slotType (1008 + z) == 10) * 2 ^ z) 0

/-- A running attempt at the end of E counts as a BUDGET trap (R109, R110), unless it has already trapped. A fold with
the journal overflowed is never missed (R110): a die whose attempt runs, or has completed while the other die's has
not, goes safe. -/
def LogicDie.endOfE (x : LogicDie) (d : Ch) : LogicDie :=
  if x.core.complete then (if x.core.jovf then x.goSafe else x)
  else if ¬ x.core.running then x
  else
    match x.core.ending with
    | some (.trap t) => x.trapEnds d t
    | _ =>
      let x := x.recordTrap (Trap.plain .budget)
      let x := { x with core := { x.core with running := false, ending := none } }
      if x.core.jovf then x.trapLasting d (Trap.plain .budget) else x

/-- The FOLD_DONE payload of a die (R323). -/
def LogicDie.foldDone (x : LogicDie) (missed : Bool) : FoldDone :=
  let halves := packBits 2 x.fold.frame.halves
  let word := fun (n : Nat) => (BitVec.ofNat 64 n : Word)
  let ld := fun (a : Nat) => x.ld64 a
  let head := [x.rd .FOLD_NUMBER, word x.fold.start, x.rd .STL_TALLY, word (if missed then 0 else x.fold.digest),
    word (x.g F.FOLD_PERIOD_PERIOD + (x.g F.FOLD_STATUS_ALIGNED + 2 * x.g F.FOLD_STATUS_STARTED) * 2 ^ 32), 0#64, 0#64, 0#64]
  let part := [word halves, word (halves / 2 ^ 64), ld 0x20000038, ld 0x20000040, ld 0x20001000, ld 0x20001008,
    ld 0x20001010, ld 0x20001018, ld 0x20000070, ld 0x20000078, x.rd .FC_RECS, x.rd .FC_RECA, x.rd .FC_RECB,
    x.rd .FOLD_COUNTS, word x.tsum, word x.soSum]
  ⟨missed, head ++ part ++ List.replicate 16 0#64 ++ (List.range 32).map (fun i => ld (0x20002000 + 8 * i))⟩

/-- A missed fold on one die (R61-R63, R111): rolled back, counted, its zones react; its FOLD_DONE is due in C (R323). -/
def LogicDie.missFold (x : LogicDie) (d : Ch) (t : Nat) : LogicDie :=
  let second := decide (x.fold.sinceMiss < 16)
  let x := x.rollback
  let x := (x.count F.FOLD_COUNTS_MISSED).p F.FOLD_STATUS_MISSED_LAST 1
  let zones := if second then x.zonesDefined else x.zonesDefined - Nat.land x.zonesDefined (x.g F.FOLD_MISS_TOL_TOL)
  let off := (x.zoneOutputs zones).filter (fun n => x.bit F.SO_CMD_CMD n)
  let x := (off.foldl (fun x n => x.setCmd d n false t) x).sigRequest off t
  let x := if off.isEmpty then x else x.trigFrom 2 t
  let n := x.recFold
  let x := { x with
    core := { x.core with running := false, complete := false, rolling := false }
    fold := { x.fold with phase := .missed, sinceMiss := 0, reacted := zones, owed := some (x.fold.start + x.foldNs - 250) } }
  x.raiseAll d (⟨32, n, none, false, false⟩ :: (if second then [⟨33, n, none, false, false⟩] else []))

/-- The four words of the output image. -/
def LogicDie.outImage (x : LogicDie) : List Word :=
  [x.ld64 0x20001000, x.ld64 0x20001008, x.ld64 0x20001010, x.ld64 0x20001018]

/-- E ends on a die at `t` (R37). -/
def LogicDie.eEnds (x : LogicDie) (t : Nat) : Bool :=
  x.folding && x.fold.phase == .execute && decide (t + 700 = x.fold.start + x.foldNs)

/-- A die whose attempt is over without being complete, in a fold that is not missed because a channel has gone safe
(R54, R60): it sends no output-agreement frame, and the other channel's, which does not come, is lost to it. -/
def LogicDie.alone (x : LogicDie) : LogicDie :=
  if x.folding ∧ x.incomplete then { x with fold := { x.fold with phase := .agree, sent := x.outImage } } else x

/-- MISSED_FOLD (R37, R44, R61, R109): E ends on a die without a completed attempt, which counts as a BUDGET trap;
unless a channel has gone safe, the fold is missed on both. -/
def execMissedFold (t : Time) (s : State) : Host.Outcome State Fault Refusal :=
  let s := (s.modDie .la (·.at t)).modDie .lb (·.at t)
  let a := s.la.eEnds t
  let b := s.lb.eEnds t
  if ¬ (a && s.la.incomplete || b && s.lb.incomplete) then .next s
  else
    let ends := fun (d : Ch) (mine : Bool) (x : LogicDie) => if mine ∧ (a ∧ b ∨ x.incomplete) then x.endOfE d else x
    let s := (s.modDie .la (ends .la a)).modDie .lb (ends .lb b)
    if a ∧ b ∧ ¬ s.la.is F.FOLD_STATUS_SAFE ∧ ¬ s.lb.is F.FOLD_STATUS_SAFE then
      .next ((s.modDie .la (·.missFold .la t)).modDie .lb (·.missFold .lb t))
    else .next ((s.modDie .la (fun x => if a then x.alone else x)).modDie .lb (fun x => if b then x.alone else x))

/-! ### Output agreement (R53, R54, R56) -/

/-- The payload of the output-agreement frame (R53): output image, zone states and aspect. -/
def imageBytes (ws : List Word) : List Nat := ws.flatMap (fun w => bytesLE 8 w.toNat)

/-- An instant of Y at which a frame of the other channel counts (R37): after its start, until T − 260 ns. -/
def LogicDie.inY (x : LogicDie) (t : Nat) : Bool :=
  decide (x.fold.start + x.foldNs < t + 700 ∧ t + 260 ≤ x.fold.start + x.foldNs)

/-- Before STARTED the safe words of the image become safe-0 (R56). -/
def LogicDie.holdOutputs (x : LogicDie) : LogicDie :=
  if x.is F.FOLD_STATUS_STARTED then x
  else ((x.st64 0x20001000 safeZero).st64 0x20001008 safeZero).st64 0x20001010 safeZero

/-- OUTPUT_AGREEMENT (R53, R56, R216, R220): Y starts on a die whose attempt is complete. -/
def execOutputAgreement (d : Ch) (t : Time) (s : State) : Host.Outcome State Fault Refusal :=
  let peer := s.die (other d)
  let io := s.ioReady
  .next (s.modDie d (fun x =>
    let x := x.at t
    if ¬ x.eEnds t ∨ ¬ x.core.complete ∨ (peer.folding ∧ peer.incomplete) then x
    else
      let x := x.holdOutputs
      let x := x.deenergise d io (x.ld64 0x20001000) (x.ld64 0x20001008) (x.ld64 0x20001010) t
      { x with fold := { x.fold with phase := .agree, sent := x.outImage } }.sendSlot (.agreement (imageBytes x.outImage))))

/-- The index of the first byte in which two payloads differ. -/
def firstDiff (a b : List Nat) : Option Nat := (a.zip b).findIdx? (fun e => e.1 != e.2)

/-- OUTPUT_AGREEMENT_FRAME (R37, R54): the other channel's frame, which die d has received, is compared bit by bit. -/
def execOutputAgreementFrame (d : Ch) (t : Time) (s : State) : Host.Outcome State Fault Refusal :=
  .next (s.modDie d (fun x =>
    let x := x.at t
    if ¬ x.folding ∨ x.fold.phase ≠ .agree ∨ ¬ x.inY t then x
    else
      match x.xl.rxAgreement with
      | none => x
      | some p =>
        let x := { x with xl := { x.xl with rxAgreement := none } }
        match firstDiff (imageBytes x.fold.sent) p with
        | none => { x with fold := { x.fold with phase := .agreed } }
        | some i => x.raise d 35 i))

/-! ### Commit (R53, R55, R57, R59, R128) -/

/-- A held register store takes effect (R82, R94, R292). -/
def LogicDie.releaseStore (d : Ch) (x : LogicDie) : HeldStore → LogicDie
  | .store a w v => x.busPost d .foldTask a w v
  | .rcClear a seen => x.rcClear d a seen
  | .evack bits => x.evack bits

/-- A held check-value step takes effect (R133). -/
def LogicDie.releaseCk (d : Ch) (x : LogicDie) : CkStep → LogicDie
  | .feed u bytes => x.ckFeed d 1 u bytes
  | .finish u => x.ckFinish d 1 u

/-- The commit digest (R59): fold number, combined input image, pair states, output image, zone states. -/
def LogicDie.commitDigest (x : LogicDie) : Nat :=
  crc64 (bytesLE 8 (x.g F.FOLD_NUMBER_NUMBER) ++
    ([0x20000020, 0x20000028, 0x20000030, 0x20000048, 0x20000050, 0x20000058, 0x20000060, 0x20000068, 0x20000070, 0x20000078,
      0x20000038, 0x20000040, 0x20001000, 0x20001008, 0x20001018, 0x20001010].flatMap
        (fun a => bytesLE 8 (x.ld64 a).toNat)))

/-- The end of Y of an agreeing fold (R53, R164, R182, R203, R220, R229, R231). -/
def LogicDie.endY (x : LogicDie) (d : Ch) (io lampOn : Bool) (t : Nat) : LogicDie :=
  let zones := x.ld64 0x20001010
  let x := x.cellClear zones
  let x := x.energise d io (x.ld64 0x20001000) (x.ld64 0x20001008) zones t
  let lit := x.fold.armLamp && x.is F.FOLD_STATUS_STARTED
  let x := if lit ∧ lampOn then x.p F.LMP_CTRL_ACTIVE 1 else x
  let x := if lit then { x with fold := { x.fold with armLamp := false } } else x
  x.display d (Word.bits (x.ld64 0x20001018) 5 0) t

/-- The fold commits on a die (R55, R57, R75, R91): number, counts, committed registers and pages; the held lists of the
attempt leave the core. -/
def LogicDie.advance (x : LogicDie) : LogicDie :=
  let n := x.recFold
  let x := x.p F.FOLD_NUMBER_NUMBER n
  let x := if n = 0 then x.p F.FOLD_STATUS_WRAP 1 else x
  let x := x.p F.FOLD_STATUS_MISSED_LAST 0
  { x with
    memC := Sparse.copy memDflt x.mem x.memC 0x20000000 0x20002800
    fold := { x.fold with phase := .commit }
    core := { x.core.discard with wCommit := x.core.w, journal := [], jovf := false, complete := false } }

/-- The triad's finding of a commit (R295), and the function faults of the fold (R151). -/
def LogicDie.commitSources (x : LogicDie) (d : Ch) (faults : List (Nat × Nat)) : LogicDie :=
  let last := x.core.maskedLast
  let now := x.core.masked
  let x := { x with core := { x.core with maskedLast := now, masked := none } }
  let x := match now with | some _ => x.count F.FC_LSCNT_MINOR | none => x
  let x := x.raiseAll d (faults.map (fun f => ⟨10, f.1 + f.2 * 2 ^ 10, none, false, false⟩))
  match now with
  | none => x
  | some m =>
    x.raiseAll d (⟨3, m + (x.core.maskedAt % 2 ^ 24) * 2 ^ 2, none, false, false⟩ ::
      (if last = some m then [⟨4, m, none, false, false⟩] else []))

/-- The FOLD_DONE of a missed fold is queued in C (R323). -/
def LogicDie.payOwed (x : LogicDie) (t : Nat) : LogicDie :=
  if x.fold.owed = some t then
    { x with fold := { x.fold with owed := none } }.send (.foldDone (x.foldDone true))
  else x

/-- What a commit does after the held effects, until the end of C (R35, R47, R59, R63, R182, R249, R323, R355, R396). -/
def LogicDie.finishCommit (x : LogicDie) (d : Ch) : LogicDie :=
  let n := x.g F.FOLD_NUMBER_NUMBER
  let x := x.contrib d n x.fold.start
  let arm := x.fold.armTp && x.is F.FOLD_STATUS_STARTED
  let x := if arm then x.tpActivate else x
  let x := match d with | .la => x.peCommit | .lb => x
  let x := match x.pw.frstLog with
    | some ms => { x.log d x.now n 0x0202 2 ms with pw := { x.pw with frstLog := none } }
    | none => x
  let x := { x with fold := { x.fold with
    digest := x.commitDigest, sinceMiss := min 16 (x.fold.sinceMiss + 1), lastStart := x.fold.start,
    armTp := x.fold.armTp && !arm } }
  (x.send (.foldDone (x.foldDone false))).xsend (.view (viewAddrs.map x.ld64))

/-- The commit of a fold on die d, in the order of R128. -/
def State.commit (s : State) (d : Ch) (t : Nat) : State :=
  let held := (s.die d).core
  let s := s.modDie d (fun x => held.stores.foldl (LogicDie.releaseStore d) x.advance)
  let s := s.judgeDomains d ((s.die d).ld64 0x20001010) held.doms t held.doms
  s.modDie d (fun x =>
    let n := x.g F.FOLD_NUMBER_NUMBER
    let x := held.cks.foldl (LogicDie.releaseCk d) x
    let x := held.ckLost.foldl (fun x u => x.setCk u { x.ckSt u with lost := true }) x
    let x := x.releaseTels d n held.tels
    let x := held.logs.foldl (fun x l => x.log d x.fold.start n l.code 8 l.data) x
    (x.commitSources d held.slotFaults).finishCommit d)

/-- A lasting crosslink fault (R34, R54): source 49 on both logic dies, but not in debug hold (R414). -/
def State.crosslinkFault (s : State) (slot : Nat) : State :=
  let fail := fun (c : Ch) (x : LogicDie) => if x.is F.DBG_STAT_HOLD then x else x.raise c 49 slot
  (s.modDie .la (fail .la)).modDie .lb (fail .lb)

/-- END_OF_Y (R53-R55): an agreeing die commands its energising transitions and commits; without the other channel's frame
the crosslink has a lasting fault. C begins: the FOLD_DONE of a missed fold is due (R323). -/
def execEndOfY (d : Ch) (t : Time) (s : State) : Host.Outcome State Fault Refusal :=
  let s := s.modDie d (fun x => (x.at t).payOwed t)
  let x := s.die d
  if ¬ x.folding ∨ t + 250 ≠ x.fold.start + x.foldNs then .next s
  else if x.fold.phase = .agree then .next (s.crosslinkFault 1)
  else if x.fold.phase ≠ .agreed then .next s
  else
    let io := s.ioReady
    let lampOn := s.la.dom 4 == domOn
    let s := s.modDie d (fun x => x.endY d io lampOn t)
    if (s.die d).is F.FOLD_STATUS_SAFE then .next s else .next (s.commit d t)

/-! ### The crosslink's slots (R32-R34) and the power dies' links (R30, R311) -/

/-- CROSSLINK_FRAME (R32, R33): the oldest frame of a slot (0 exchange, 1 output agreement, 2 background) that die d
sends is received by the other die, checked and acknowledged, where its turn has come; none where the crosslink is not
established (R336, R448). With the last of its frames an item has arrived. -/
def execCrosslinkFrame (d : Ch) (slot : Fin 3) (t : Time) (s : State) : Host.Outcome State Fault Refusal :=
  let s := s.modDie d (·.at t)
  match (s.die d).xhead slot.val with
  | none => .next s
  | some q =>
    if (s.die d).boot.xlCut ∨ (s.die (other d)).boot.xlCut ∨ ¬ (s.die d).xclear q then .next s
    else
      let s := s.modDie d (·.xdrop slot.val)
      .next (if q.part + 1 = q.item.frames then s.modDie (other d) (·.xreceive q.item) else s)

/-- CROSSLINK_RESEND (R34): the oldest frame of a slot was not acknowledged in time and is sent once more. -/
def execCrosslinkResend (d : Ch) (slot : Fin 3) (t : Time) (s : State) : Host.Outcome State Fault Refusal :=
  .next (s.modDie d (fun x =>
    let x := x.at t
    match x.xhead slot.val with
    | none => x
    | some q =>
      if q.resent ∨ x.is F.DBG_STAT_HOLD then x
      else
        let again := x.xl.tx.map (fun p => if p.seq = q.seq then { p with resent := true } else p)
        { x with xl := { x.xl with tx := again } }.raise d 48 slot.val))

/-- The die has missed the frame of a slot: its own twice, or the other channel's, which has not come when both
attempts of it are over (R34, R37, R60). -/
def LogicDie.slotLost (x : LogicDie) (slot t : Nat) : Bool :=
  (x.xhead slot).any (·.resent) ||
    (slot == 0 && x.fold.phase == .exchange && decide (x.fold.start + 540 ≤ t)) ||
    (slot == 1 && x.fold.phase == .agree && decide (x.fold.start + x.foldNs ≤ t + 260))

/-- LASTING_CROSSLINK_FAULT (R34, R54): a second miss found by die d; both dies raise source 49, but not in debug hold
(R414). -/
def execLastingCrosslinkFault (d : Ch) (slot : Fin 3) (t : Time) (s : State) : Host.Outcome State Fault Refusal :=
  let s := (s.modDie .la (·.at t)).modDie .lb (·.at t)
  if ¬ (s.die d).slotLost slot.val t then .next s
  else .next ((s.modDie d (·.xlose slot.val)).crosslinkFault slot.val)

/-- CONTROL_LINK_RESEND (R311): a frame of the control link to the power die is sent again. -/
def execControlLinkResend (d : Ch) (frame : Fin 65536) (t : Time) (s : State) : Host.Outcome State Fault Refusal :=
  .next (s.modDie d (fun x => (x.at t).raise d 52 frame.val))

/-- CONTROL_LINK_FAULT (R30, R311, R470): a lasting fault of the control link (0), or of the sense link from PD0 (1) or PD1
(2), whose inputs read safe-0 from then on. -/
def execControlLinkFault (d : Ch) (link : Fin 3) (frame : Fin 65536) (t : Time) (s : State) :
    Host.Outcome State Fault Refusal :=
  .next (s.modDie d (fun x =>
    let x := x.at t
    let x := if link.val = 0 then { x with pw := { x.pw with ctlFail := true } }
      else { x with inSide := { x.inSide with senseFail := setBit x.inSide.senseFail (link.val - 1) } }
    x.raise d (53 + link.val) frame.val))

end Sys2Proof.Machine
end

