-- ==== Sys2Proof/Machine/Ring.lean ====
section
/-! DEFINITION. Host firmware's messages: the transmit ring (R345, R412, R451), what the host die receives into its receive ring
(R327, R379, R413, R451), and the merged log with its stream to host memory (R441, R442). -/

namespace Sys2Proof.Machine

/-! ### The transmit ring (R345) -/

/-- A BIST_CMD is forwarded while fewer than two lack their BIST_RES (R451); it waits otherwise. -/
def HostDie.sendBist (h : HostDie) (l : Ch) (q : BistCmd) : HostDie :=
  if h.bistOut < 2 ∧ h.bistWait = [] then
    { h.send l (.bistCmd q.test q.unit q.opts) with bistOut := h.bistOut + 1 }
  else { h with bistWait := h.bistWait ++ [(l, q)] }

/-- A DEBUG_REQ entry that the host die drops (R412): OPEN or CLOSE, a session that is not open, a die outside the scope. -/
def HostDie.dropsDebug (h : HostDie) (l : Ch) (session op : Nat) : Bool :=
  op == 1 || op == 2 || h.g F.HDBG_STAT_STATE == 0 || session != h.g F.HDBG_STAT_SESSION ||
    !(scopeDies (h.g F.HDBG_STAT_SCOPE)).contains l

/-- The host die drops a transmit-ring entry and marks BAD. -/
def HostDie.badEntry (h : HostDie) : HostDie := h.p F.HSTL_TXPTR_FLAG 1

/-- An entry of the transmit ring is a message of the set (R322, R327): TYPE, FLAGS, ROUTE, LEN and every field marked
zero. -/
def entryInSet (bs : List Nat) : Bool :=
  let f := fun (o n : Nat) => ofBytesLE ((bs.drop o).take n)
  let z := fun (o n : Nat) => f (12 + o) n == 0
  let len := f 4 2
  f 1 1 == 0 && (f 2 1 == 0x10 || f 2 1 == 0x20) && f 3 1 == 0 && f 6 2 == 0 && bs.length == 12 + len &&
    (if f 0 1 = 0x0E then len == 16 && z 3 5
     else if f 0 1 = 0x10 then len % 4 == 0 && decide (8 ≤ len) && decide (len ≤ 1024) && decide (len == 8 + roundUp 4 (f 18 2))
     else if f 0 1 = 0x12 then len == 32 && z 8 24
     else false)

/-- The host die takes an entry of the transmit ring for link `l`: its bytes up to 11 + LEN. It drops an entry of
another type; one of these types that is outside the message set it sends, and the die discards it (R322, log 166). -/
def HostDie.sendEntry (h : HostDie) (l : Ch) (bs : List Nat) : HostDie :=
  let type := bs.getD 0 0
  let p := bs.drop 12
  let f := fun (o n : Nat) => ofBytesLE ((p.drop o).take n)
  if type ≠ 0x0E ∧ type ≠ 0x10 ∧ type ≠ 0x12 then h.badEntry
  else if type = 0x10 ∧ h.dropsDebug l (f 0 4) (f 4 2) then h.badEntry
  else if ¬ entryInSet bs then h.send l (.outside type bs)
  else if type = 0x0E then h.send l (.powerReq (f 0 1) (f 1 1) (f 2 1) (f 8 8))
  else if type = 0x10 then h.send l (.debugReq (f 0 4) (f 4 2) ((p.drop 8).take (f 6 2)))
  else h.sendBist l ⟨f 0 2, f 2 2, f 4 4⟩

/-- TRANSMIT_RING_ENTRY (R345, R412, R451): the entry at TAIL goes to the die that its ROUTE names; the host die sets SEQ. -/
def execTransmitRingEntry (t : Time) (s : State) : Host.Outcome State Fault Refusal :=
  runHost t s (fun h =>
    let k := h.g F.HSTL_TXPTR_TAIL
    if k = h.g F.HSTL_TXPTR_HEAD then h
    else
      let a := h.g F.HSTL_TXRING_BASE * 4096 + 1040 * k
      let len := ofBytesLE (h.bytes (a + 4) 2)
      let bs := h.bytes a (12 + min len 1028)
      let h := h.p F.HSTL_TXPTR_TAIL ((k + 1) % 64)
      let dest := h.byte (a + 2) / 16
      if dest = 1 then h.sendEntry .la bs
      else if dest = 2 then h.sendEntry .lb bs
      else h.badEntry)

/-! ### The receive ring (R327, R379, R413, R451) -/

/-- The host die accepts a message that satisfies `ok` into its receive ring, and then acts on it. -/
def hostReceive (l : Ch) (t : Time) (s : State) (ok : StileMsg → Bool) (act : StileMsg → State → State) :
    Host.Outcome State Fault Refusal :=
  let s := s.modHost (·.at t)
  match s.hostTake l ok with
  | none => .next s
  | some (m, s) => .next (act m s)

/-- The field domains of a die that PWR_FREP shows ON, and its paused bit. -/
def frepOn : Ch → Fld
  | .la => F.PWR_FREP_ONA
  | .lb => F.PWR_FREP_ONB

/-- The paused bit of a die in PWR_FREP. -/
def frepPaused : Ch → Fld
  | .la => F.PWR_FREP_PAUSEDA
  | .lb => F.PWR_FREP_PAUSEDB

/-- POWER_REQ_STATE_REPORT (R379, R385, R398): PWR_FREP takes the domain's state; a core domain in FALLOW is a paused
fold task. A field report may wake the host domains. -/
def execPowerReqStateReport (l : Ch) (t : Time) (s : State) : Host.Outcome State Fault Refusal :=
  hostReceive l t s (fun m => match m with | .powerReq 4 _ _ _ => true | _ => false)
    (fun m s => match m with
      | .powerReq _ k st _ =>
        (s.modHost (fun h =>
          let h := if k < 10 then h.setB (frepOn l) k (st == domOn) else h
          if k = 0 ∧ st ≤ domOn then h.p (frepPaused l) (b2n (st == 1)) else h)).hostWake 3
      | _ => s)

/-- POWER_REQ_GRANT (R327, R381). -/
def execPowerReqGrant (l : Ch) (t : Time) (s : State) : Host.Outcome State Fault Refusal :=
  hostReceive l t s (fun m => match m with | .powerReq 2 _ _ _ => true | _ => false) (fun _ s => s)

/-- POWER_REQ_REFUSAL (R327, R381). -/
def execPowerReqRefusal (l : Ch) (t : Time) (s : State) : Host.Outcome State Fault Refusal :=
  hostReceive l t s (fun m => match m with | .powerReq 3 _ _ _ => true | _ => false) (fun _ s => s)

/-- A waiting BIST_CMD follows a BIST_RES (R451). -/
def HostDie.nextBist (h : HostDie) : HostDie :=
  match h.bistWait with
  | (l, q) :: rest =>
    if h.bistOut < 2 then
      let h := h.send l (.bistCmd q.test q.unit q.opts)
      { h with bistOut := h.bistOut + 1, bistWait := rest }
    else h
  | [] => h

/-- BIST_RES (R451). -/
def execBistRes (l : Ch) (t : Time) (s : State) : Host.Outcome State Fault Refusal :=
  hostReceive l t s (fun m => match m with | .bistRes _ _ _ _ _ _ => true | _ => false)
    (fun _ s => s.modHost (fun h => { h with bistOut := h.bistOut - 1 }.nextBist))

/-- DEBUG_RSP (R413). -/
def execDebugRsp (l : Ch) (t : Time) (s : State) : Host.Outcome State Fault Refusal :=
  hostReceive l t s (fun m => match m with | .debugRsp _ _ _ => true | _ => false) (fun _ s => s)

/-! ### The merged log (R441, R442) -/

/-- LOG_RECORD (R441): the records of a message enter the merged log in order. -/
def execLogRecord (l : Ch) (t : Time) (s : State) : Host.Outcome State Fault Refusal :=
  let s := s.modHost (·.at t)
  match s.incoming l true with
  | some (.logRecord recs _) => .next ((s.accepted l true).modHost (fun h => recs.foldl (fun h r => h.merge r) h))
  | _ => .next s

/-- The unread records of the host ring. -/
def HostDie.unread (h : HostDie) : Nat :=
  let n := 2 ^ h.g F.LOG_HSIZE_HSIZE
  (h.g F.LOG_HHEAD_HEAD + n - h.g F.LOG_HTAIL_TAIL % n) % n

/-- LOG_STREAM (R343, R442): the oldest unstreamed record goes to the host ring at HHEAD while there is room; a write
that the bus master drops counts in HDROP and is not repeated. `master`: the endpoint can write host memory. -/
def execLogStream (master : Bool) (t : Time) (s : State) : Host.Outcome State Fault Refusal :=
  runHost t s (fun h =>
    let n := 2 ^ h.g F.LOG_HSIZE_HSIZE
    if ¬ h.is F.LOG_HCTRL_EN ∨ h.unstreamed = 0 ∨ n - 1 ≤ h.unread then h
    else
      let i := (h.g F.LOG_HSTAT_WRITE + 32768 - h.unstreamed) % 32768
      let r := Sparse.get (fun _ => LogRec.zero) h.mlog i
      let h := { h with unstreamed := h.unstreamed - 1 }
      if ¬ master then h.count F.LOG_HSTAT_HDROP
      else
        let k := h.g F.LOG_HHEAD_HEAD
        let h := { h with posted := h.posted ++ [(h.g F.LOG_HBASE_BASE * 4096 + 32 * k, recBytes r)] }
        let h := h.p F.LOG_HHEAD_HEAD ((k + 1) % n)
        if h.is F.LOG_HCTRL_IRQ ∧ h.unread = h.g F.LOG_HTHR_THR then { h with msix := h.msix ++ [2] } else h)

end Sys2Proof.Machine
end

