-- ==== Sys2Proof/Machine/Dispatch.lean ====
section
/-! DEFINITION. The one dispatch: each command to its meaning. -/

namespace Sys2Proof.Machine

def exec (i : Instr) (s : State) : Host.Outcome State Fault Refusal :=
  match i with
  | .writeAccess dom party addr width w t => Sys2Proof.Machine.execWriteAccess dom party addr width w t s
  | .lock b t => Sys2Proof.Machine.execLock b t s
  | .foldLock d t => Sys2Proof.Machine.execFoldLock d t s
  | .siLock d t => Sys2Proof.Machine.execSiLock d t s
  | .gtLock d t => Sys2Proof.Machine.execGtLock d t s
  | .rcFieldRead d party r t => Sys2Proof.Machine.execRcFieldRead d party r t s
  | .stileMessageDiscarded l atHost t => Sys2Proof.Machine.execStileMessageDiscarded l atHost t s
  | .controlWord l atHost t => Sys2Proof.Machine.execControlWord l atHost t s
  | .controlWordSend l fromHost t => Sys2Proof.Machine.execControlWordSend l fromHost t s
  | .stileResend l atHost t => Sys2Proof.Machine.execStileResend l atHost t s
  | .controlWordSilence l atHost t => Sys2Proof.Machine.execControlWordSilence l atHost t s
  | .lastingLinkFault l atHost t => Sys2Proof.Machine.execLastingLinkFault l atHost t s
  | .crosslinkFrame d slot t => Sys2Proof.Machine.execCrosslinkFrame d slot t s
  | .crosslinkResend d slot t => Sys2Proof.Machine.execCrosslinkResend d slot t s
  | .lastingCrosslinkFault d slot t => Sys2Proof.Machine.execLastingCrosslinkFault d slot t s
  | .controlLinkResend d frame t => Sys2Proof.Machine.execControlLinkResend d frame t s
  | .controlLinkFault d link frame t => Sys2Proof.Machine.execControlLinkFault d link frame t s
  | .lampLinkFault frame t => Sys2Proof.Machine.execLampLinkFault frame t s
  | .lampLinkTimeout t => Sys2Proof.Machine.execLampLinkTimeout t s
  | .crookInLow x t => Sys2Proof.Machine.execCrookInLow x t s
  | .foldStart d start inA inB t => Sys2Proof.Machine.execFoldStart d start inA inB t s
  | .slotTimerExpiry d t => Sys2Proof.Machine.execSlotTimerExpiry d t s
  | .exchange d t => Sys2Proof.Machine.execExchange d t s
  | .exchangeFrame d t => Sys2Proof.Machine.execExchangeFrame d t s
  | .checkpoint d differ found t => Sys2Proof.Machine.execCheckpoint d differ found t s
  | .budget d t => Sys2Proof.Machine.execBudget d t s
  | .lockstepMismatch d t => Sys2Proof.Machine.execLockstepMismatch d t s
  | .windowCompare d differ t => Sys2Proof.Machine.execWindowCompare d differ t s
  | .triadMinority d core t => Sys2Proof.Machine.execTriadMinority d core t s
  | .rollback d found t => Sys2Proof.Machine.execRollback d found t s
  | .missedFold t => Sys2Proof.Machine.execMissedFold t s
  | .outputAgreement d t => Sys2Proof.Machine.execOutputAgreement d t s
  | .outputAgreementFrame d t => Sys2Proof.Machine.execOutputAgreementFrame d t s
  | .endOfY d t => Sys2Proof.Machine.execEndOfY d t s
  | .foldDone l master t => Sys2Proof.Machine.execFoldDone l master t s
  | .mirrorSlotComplete t => Sys2Proof.Machine.execMirrorSlotComplete t s
  | .timeSync d t => Sys2Proof.Machine.execTimeSync d t s
  | .foldSnapLease t => Sys2Proof.Machine.execFoldSnapLease t s
  | .foldSnapRelease t => Sys2Proof.Machine.execFoldSnapRelease t s
  | .leaseExpiry t => Sys2Proof.Machine.execLeaseExpiry t s
  | .snapshotRead ofs n t => Sys2Proof.Machine.execSnapshotRead ofs n t s
  | .bar2Write ofs t => Sys2Proof.Machine.execBar2Write ofs t s
  | .bar0Read ofs n t => Sys2Proof.Machine.execBar0Read ofs n t s
  | .downloadWindowWrite ofs data t => Sys2Proof.Machine.execDownloadWindowWrite ofs data t s
  | .iAdd c wd wa wb => Sys2Proof.Machine.execIAdd c wd wa wb s
  | .iSub c wd wa wb => Sys2Proof.Machine.execISub c wd wa wb s
  | .iAnd c wd wa wb => Sys2Proof.Machine.execIAnd c wd wa wb s
  | .iOr c wd wa wb => Sys2Proof.Machine.execIOr c wd wa wb s
  | .iXor c wd wa wb => Sys2Proof.Machine.execIXor c wd wa wb s
  | .iNor c wd wa wb => Sys2Proof.Machine.execINor c wd wa wb s
  | .iAndn c wd wa wb => Sys2Proof.Machine.execIAndn c wd wa wb s
  | .iSll c wd wa wb => Sys2Proof.Machine.execISll c wd wa wb s
  | .iSrl c wd wa wb => Sys2Proof.Machine.execISrl c wd wa wb s
  | .iSra c wd wa wb => Sys2Proof.Machine.execISra c wd wa wb s
  | .iRor c wd wa wb => Sys2Proof.Machine.execIRor c wd wa wb s
  | .iSeq c wd wa wb => Sys2Proof.Machine.execISeq c wd wa wb s
  | .iSne c wd wa wb => Sys2Proof.Machine.execISne c wd wa wb s
  | .iSlt c wd wa wb => Sys2Proof.Machine.execISlt c wd wa wb s
  | .iSge c wd wa wb => Sys2Proof.Machine.execISge c wd wa wb s
  | .iSltu c wd wa wb => Sys2Proof.Machine.execISltu c wd wa wb s
  | .iSgeu c wd wa wb => Sys2Proof.Machine.execISgeu c wd wa wb s
  | .iMin c wd wa wb => Sys2Proof.Machine.execIMin c wd wa wb s
  | .iMax c wd wa wb => Sys2Proof.Machine.execIMax c wd wa wb s
  | .iMinu c wd wa wb => Sys2Proof.Machine.execIMinu c wd wa wb s
  | .iMaxu c wd wa wb => Sys2Proof.Machine.execIMaxu c wd wa wb s
  | .iClz c wd wa => Sys2Proof.Machine.execIClz c wd wa s
  | .iPopc c wd wa => Sys2Proof.Machine.execIPopc c wd wa s
  | .iSextb c wd wa => Sys2Proof.Machine.execISextb c wd wa s
  | .iSexth c wd wa => Sys2Proof.Machine.execISexth c wd wa s
  | .iSextw c wd wa => Sys2Proof.Machine.execISextw c wd wa s
  | .iBswap c wd wa => Sys2Proof.Machine.execIBswap c wd wa s
  | .iMul c wd wa wb => Sys2Proof.Machine.execIMul c wd wa wb s
  | .iMulh c wd wa wb => Sys2Proof.Machine.execIMulh c wd wa wb s
  | .iMulhu c wd wa wb => Sys2Proof.Machine.execIMulhu c wd wa wb s
  | .iDiv c wd wa wb => Sys2Proof.Machine.execIDiv c wd wa wb s
  | .iDivu c wd wa wb => Sys2Proof.Machine.execIDivu c wd wa wb s
  | .iRem c wd wa wb => Sys2Proof.Machine.execIRem c wd wa wb s
  | .iRemu c wd wa wb => Sys2Proof.Machine.execIRemu c wd wa wb s
  | .iAddi c wd wa imm => Sys2Proof.Machine.execIAddi c wd wa imm s
  | .iAndi c wd wa imm => Sys2Proof.Machine.execIAndi c wd wa imm s
  | .iOri c wd wa imm => Sys2Proof.Machine.execIOri c wd wa imm s
  | .iXori c wd wa imm => Sys2Proof.Machine.execIXori c wd wa imm s
  | .iSlti c wd wa imm => Sys2Proof.Machine.execISlti c wd wa imm s
  | .iSltiu c wd wa imm => Sys2Proof.Machine.execISltiu c wd wa imm s
  | .iMovz c wd hw imm => Sys2Proof.Machine.execIMovz c wd hw imm s
  | .iMovk c wd hw imm => Sys2Proof.Machine.execIMovk c wd hw imm s
  | .iShi c wd wa kind sh => Sys2Proof.Machine.execIShi c wd wa kind sh s
  | .iExtu c wd wa lsb w1 => Sys2Proof.Machine.execIExtu c wd wa lsb w1 s
  | .iLdb c wd wa off => Sys2Proof.Machine.execILdb c wd wa off s
  | .iLdh c wd wa off => Sys2Proof.Machine.execILdh c wd wa off s
  | .iLdw c wd wa off => Sys2Proof.Machine.execILdw c wd wa off s
  | .iLdd c wd wa off => Sys2Proof.Machine.execILdd c wd wa off s
  | .iStb c ws wa off => Sys2Proof.Machine.execIStb c ws wa off s
  | .iSth c ws wa off => Sys2Proof.Machine.execISth c ws wa off s
  | .iStw c ws wa off => Sys2Proof.Machine.execIStw c ws wa off s
  | .iStd c ws wa off => Sys2Proof.Machine.execIStd c ws wa off s
  | .iBeq c wa wb off => Sys2Proof.Machine.execIBeq c wa wb off s
  | .iLoopn c len count => Sys2Proof.Machine.execILoopn c len count s
  | .iCall c off => Sys2Proof.Machine.execICall c off s
  | .iRet c => Sys2Proof.Machine.execIRet c s
  | .iJr c wa => Sys2Proof.Machine.execIJr c wa s
  | .iCallr c wa => Sys2Proof.Machine.execICallr c wa s
  | .iIn c wd wa imm => Sys2Proof.Machine.execIIn c wd wa imm s
  | .iOut c wd wa => Sys2Proof.Machine.execIOut c wd wa s
  | .iOutc c wd wa => Sys2Proof.Machine.execIOutc c wd wa s
  | .iFold c => Sys2Proof.Machine.execIFold c s
  | .iAspect c aspect => Sys2Proof.Machine.execIAspect c aspect s
  | .iAproof c wd aspect => Sys2Proof.Machine.execIAproof c wd aspect s
  | .iTsend c wd wa wb => Sys2Proof.Machine.execITsend c wd wa wb s
  | .iTrecv c wd wa wb => Sys2Proof.Machine.execITrecv c wd wa wb s
  | .iMovs c wd index => Sys2Proof.Machine.execIMovs c wd index s
  | .iMovt c wa index => Sys2Proof.Machine.execIMovt c wa index s
  | .iRete c => Sys2Proof.Machine.execIRete c s
  | .iWaitev c => Sys2Proof.Machine.execIWaitev c s
  | .interrupt core t => Sys2Proof.Machine.execInterrupt core t s
  | .iCkin c unit b1 wa => Sys2Proof.Machine.execICkin c unit b1 wa s
  | .iCkend c unit wd => Sys2Proof.Machine.execICkend c unit wd s
  | .iCkrd c unit wd => Sys2Proof.Machine.execICkrd c unit wd s
  | .iLog c wa wb code => Sys2Proof.Machine.execILog c wa wb code s
  | .iGtrd c n wd => Sys2Proof.Machine.execIGtrd c n wd s
  | .iGtsnap c n wd => Sys2Proof.Machine.execIGtsnap c n wd s
  | .iGtcmp0 c n wa => Sys2Proof.Machine.execIGtcmp0 c n wa s
  | .iGtcmp1 c n wa => Sys2Proof.Machine.execIGtcmp1 c n wa s
  | .iDomain c wd wa wb => Sys2Proof.Machine.execIDomain c wd wa wb s
  | .iSand c wd wa wb => Sys2Proof.Machine.execISand c wd wa wb s
  | .iSor c wd wa wb => Sys2Proof.Machine.execISor c wd wa wb s
  | .iSandn c wd wa wb => Sys2Proof.Machine.execISandn c wd wa wb s
  | .iSnot c wd wa => Sys2Proof.Machine.execISnot c wd wa s
  | .iSall c wd wa => Sys2Proof.Machine.execISall c wd wa s
  | .iSany c wd wa => Sys2Proof.Machine.execISany c wd wa s
  | .iSchk c wd wa => Sys2Proof.Machine.execISchk c wd wa s
  | .iSclr c wd => Sys2Proof.Machine.execISclr c wd s
  | .iSbmov c wd wa bd ba => Sys2Proof.Machine.execISbmov c wd wa bd ba s
  | .iSbnot c wd wa bd ba => Sys2Proof.Machine.execISbnot c wd wa bd ba s
  | .iSbcast c wd wa ba => Sys2Proof.Machine.execISbcast c wd wa ba s
  | .iSpklo c wd wa wb => Sys2Proof.Machine.execISpklo c wd wa wb s
  | .iSpkhi c wd wa wb => Sys2Proof.Machine.execISpkhi c wd wa wb s
  | .iSrot c wd wa wb => Sys2Proof.Machine.execISrot c wd wa wb s
  | .iSfromi c wd wa => Sys2Proof.Machine.execISfromi c wd wa s
  | .iEqv c wd wa slot variant => Sys2Proof.Machine.execIEqv c wd wa slot variant s
  | .iAntv c wd wa slot variant => Sys2Proof.Machine.execIAntv c wd wa slot variant s
  | .iTwoh c wd wa slot variant => Sys2Proof.Machine.execITwoh c wd wa slot variant s
  | .iRsti c wd wa slot variant => Sys2Proof.Machine.execIRsti c wd wa slot variant s
  | .iEdm c wd wa slot variant => Sys2Proof.Machine.execIEdm c wd wa slot variant s
  | .iMute c wd wa slot variant => Sys2Proof.Machine.execIMute c wd wa slot variant s
  | .iTon c wd wa slot => Sys2Proof.Machine.execITon c wd wa slot s
  | .iTof c wd wa slot => Sys2Proof.Machine.execITof c wd wa slot s
  | .iLimit c wd wa slot variant => Sys2Proof.Machine.execILimit c wd wa slot variant s
  | .iZone c wd wa z => Sys2Proof.Machine.execIZone c wd wa z s
  | .iZoneQ c wd wa z => Sys2Proof.Machine.execIZoneQ c wd wa z s
  | .sampleWindow d g k start t high => Sys2Proof.Machine.execSampleWindow d g k start t high s
  | .darkSample d ix seen t => Sys2Proof.Machine.execDarkSample d ix seen t s
  | .frontEndMismatch d g type wet t => Sys2Proof.Machine.execFrontEndMismatch d g type wet t s
  | .readbackChange d j level t => Sys2Proof.Machine.execReadbackChange d j level t s
  | .blankingEnd d j t => Sys2Proof.Machine.execBlankingEnd d j t s
  | .noValidSourcePulse d ix t => Sys2Proof.Machine.execNoValidSourcePulse d ix t s
  | .shortlow d j t => Sys2Proof.Machine.execShortlow d j t s
  | .stuckhigh d j t => Sys2Proof.Machine.execStuckhigh d j t s
  | .badwidth d j t => Sys2Proof.Machine.execBadwidth d j t s
  | .nopulse d j t => Sys2Proof.Machine.execNopulse d j t s
  | .sourceOverheat d j t => Sys2Proof.Machine.execSourceOverheat d j t s
  | .analogOvercurrent d n t => Sys2Proof.Machine.execAnalogOvercurrent d n t s
  | .analogReconnect d n t => Sys2Proof.Machine.execAnalogReconnect d n t s
  | .currentLimitExpiry n t => Sys2Proof.Machine.execCurrentLimitExpiry n t s
  | .thermalShutdown sw n t => Sys2Proof.Machine.execThermalShutdown sw n t s
  | .groupOverload d g curr vout t => Sys2Proof.Machine.execGroupOverload d g curr vout t s
  | .stayon d n flows t => Sys2Proof.Machine.execStayon d n flows t s
  | .noon d n mid t => Sys2Proof.Machine.execNoon d n mid t s
  | .shortClear d n t => Sys2Proof.Machine.execShortClear d n t s
  | .offPulse sw n t => Sys2Proof.Machine.execOffPulse sw n t s
  | .offPulseEnd sw n nodeA midA nodeB midB flows t => Sys2Proof.Machine.execOffPulseEnd sw n nodeA midA nodeB midB flows t s
  | .onPulse d n t => Sys2Proof.Machine.execOnPulse d n t s
  | .onPulseEnd d n high mid lowBefore highDuring t => Sys2Proof.Machine.execOnPulseEnd d n high mid lowBefore highDuring t s
  | .captureComplete d n points t => Sys2Proof.Machine.execCaptureComplete d n points t s
  | .crookPulse d low t => Sys2Proof.Machine.execCrookPulse d low t s
  | .crookPartnerCheck d high t => Sys2Proof.Machine.execCrookPartnerCheck d high t s
  | .crookOutputLow d t => Sys2Proof.Machine.execCrookOutputLow d t s
  | .dimmingPeriodStart d n t => Sys2Proof.Machine.execDimmingPeriodStart d n t s
  | .flashEdge d f t => Sys2Proof.Machine.execFlashEdge d f t s
  | .stageOpen n t => Sys2Proof.Machine.execStageOpen n t s
  | .stageOcp n t => Sys2Proof.Machine.execStageOcp n t s
  | .stageLxfail n t => Sys2Proof.Machine.execStageLxfail n t s
  | .stageOvt n hot t => Sys2Proof.Machine.execStageOvt n hot t s
  | .lampCheckSample n curr volt t => Sys2Proof.Machine.execLampCheckSample n curr volt t s
  | .notalive n t => Sys2Proof.Machine.execNotalive n t s
  | .opticalWindow k result start t => Sys2Proof.Machine.execOpticalWindow k result start t s
  | .colourLoop k light t => Sys2Proof.Machine.execColourLoop k light t s
  | .neighbourTest volt t => Sys2Proof.Machine.execNeighbourTest volt t s
  | .peTick t => Sys2Proof.Machine.execPeTick t s
  | .peSet e k t => Sys2Proof.Machine.execPeSet e k t s
  | .peRamp e k s1 t => Sys2Proof.Machine.execPeRamp e k s1 t s
  | .peMask e m t => Sys2Proof.Machine.execPeMask e m t s
  | .peShift e down link t => Sys2Proof.Machine.execPeShift e down link t s
  | .peLdc e ix n1 t => Sys2Proof.Machine.execPeLdc e ix n1 t s
  | .peDjnz e ix a t => Sys2Proof.Machine.execPeDjnz e ix a t s
  | .peJmp e a t => Sys2Proof.Machine.execPeJmp e a t s
  | .peWait e t1 t => Sys2Proof.Machine.execPeWait e t1 t s
  | .peWaitf e t => Sys2Proof.Machine.execPeWaitf e t s
  | .peWaitp e f t => Sys2Proof.Machine.execPeWaitp e f t s
  | .peHalt e t => Sys2Proof.Machine.execPeHalt e t s
  | .peSwap e t => Sys2Proof.Machine.execPeSwap e t s
  | .peFswap e t => Sys2Proof.Machine.execPeFswap e t s
  | .peRun e on t => Sys2Proof.Machine.execPeRun e on t s
  | .pePause e on t => Sys2Proof.Machine.execPePause e on t s
  | .lampDarkening t => Sys2Proof.Machine.execLampDarkening t s
  | .frameStart t => Sys2Proof.Machine.execFrameStart t s
  | .lineSlot l trip below high t => Sys2Proof.Machine.execLineSlot l trip below high t s
  | .matrixNeighbourTest volt t => Sys2Proof.Machine.execMatrixNeighbourTest volt t s
  | .mxFlip t => Sys2Proof.Machine.execMxFlip t s
  | .mxCfgWrite party v t => Sys2Proof.Machine.execMxCfgWrite party v t s
  | .constituent d c g => Sys2Proof.Machine.execConstituent d c g s
  | .conversion d c slice late diff t => Sys2Proof.Machine.execConversion d c slice late diff t s
  | .adcResult d c e urg code frac at0 atFull hold => Sys2Proof.Machine.execAdcResult d c e urg code frac at0 atFull hold s
  | .adcTrigger d src timer t => Sys2Proof.Machine.execAdcTrigger d src timer t s
  | .adcSwtrig d mask t => Sys2Proof.Machine.execAdcSwtrig d mask t s
  | .adcUrg d req0 e0 req1 e1 t => Sys2Proof.Machine.execAdcUrg d req0 e0 req1 e1 t s
  | .adcPop d c party t => Sys2Proof.Machine.execAdcPop d c party t s
  | .refrdy d t => Sys2Proof.Machine.execRefrdy d t s
  | .shadowMove d c t => Sys2Proof.Machine.execShadowMove d c t s
  | .spareSelfCheck d c code t => Sys2Proof.Machine.execSpareSelfCheck d c code t s
  | .slowcal d c j t => Sys2Proof.Machine.execSlowcal d c j t s
  | .calZero d c k party t => Sys2Proof.Machine.execCalZero d c k party t s
  | .calFull d c k party t => Sys2Proof.Machine.execCalFull d c k party t s
  | .calClear d c k party t => Sys2Proof.Machine.execCalClear d c k party t s
  | .calibrationDone d c sum sat t => Sys2Proof.Machine.execCalibrationDone d c sum sat t s
  | .faultEvent col events released t => Sys2Proof.Machine.execFaultEvent col events released t s
  | .wire col src detail t => Sys2Proof.Machine.execWire col src detail t s
  | .recordClose col t => Sys2Proof.Machine.execRecordClose col t s
  | .resumeProposal d t => Sys2Proof.Machine.execResumeProposal d t s
  | .resumption t => Sys2Proof.Machine.execResumption t s
  | .fcForce col wire k v party t => Sys2Proof.Machine.execFcForce col wire k v party t s
  | .fcReccntWrite col v withClose t => Sys2Proof.Machine.execFcReccntWrite col v withClose t s
  | .faultNote way d t => Sys2Proof.Machine.execFaultNote way d t s
  | .hello l atHost t => Sys2Proof.Machine.execHello l atHost t s
  | .autoDownload t => Sys2Proof.Machine.execAutoDownload t s
  | .imageBegin d t => Sys2Proof.Machine.execImageBegin d t s
  | .imageChunk d t => Sys2Proof.Machine.execImageChunk d t s
  | .imageEnd d t => Sys2Proof.Machine.execImageEnd d t s
  | .paramWrite d t => Sys2Proof.Machine.execParamWrite d t s
  | .fieldBoot d stile xl t => Sys2Proof.Machine.execFieldBoot d stile xl t s
  | .downloadTimeout d t => Sys2Proof.Machine.execDownloadTimeout d t s
  | .crosslinkTimeout d t => Sys2Proof.Machine.execCrosslinkTimeout d t s
  | .imageVerdict l t => Sys2Proof.Machine.execImageVerdict l t s
  | .paramAck l t => Sys2Proof.Machine.execParamAck l t s
  | .hostReqRead d t => Sys2Proof.Machine.execHostReqRead d t s
  | .hostReqWrite d t => Sys2Proof.Machine.execHostReqWrite d t s
  | .hostReqStart d t => Sys2Proof.Machine.execHostReqStart d t s
  | .hostReqRestart d t => Sys2Proof.Machine.execHostReqRestart d t s
  | .hostReqReply l t => Sys2Proof.Machine.execHostReqReply l t s
  | .stlReqRead dies tag party t => Sys2Proof.Machine.execStlReqRead dies tag party t s
  | .stlReqWrite dies tag party t => Sys2Proof.Machine.execStlReqWrite dies tag party t s
  | .stlReqStart tag party t => Sys2Proof.Machine.execStlReqStart tag party t s
  | .stlReqRestart tag party t => Sys2Proof.Machine.execStlReqRestart tag party t s
  | .requestTimeout l t => Sys2Proof.Machine.execRequestTimeout l t s
  | .boot t => Sys2Proof.Machine.execBoot t s
  | .field party t => Sys2Proof.Machine.execField party t s
  | .release t => Sys2Proof.Machine.execRelease t s
  | .readId t => Sys2Proof.Machine.execReadId t s
  | .readStatus t => Sys2Proof.Machine.execReadStatus t s
  | .windowWrite ofs data crc t => Sys2Proof.Machine.execWindowWrite ofs data crc t s
  | .windowRead ofs n t => Sys2Proof.Machine.execWindowRead ofs n t s
  | .registerWrite ofs v crc t => Sys2Proof.Machine.execRegisterWrite ofs v crc t s
  | .registerRead ofs t => Sys2Proof.Machine.execRegisterRead ofs t s
  | .transmitRingEntry t => Sys2Proof.Machine.execTransmitRingEntry t s
  | .logRecord l t => Sys2Proof.Machine.execLogRecord l t s
  | .logRecordSend d t => Sys2Proof.Machine.execLogRecordSend d t s
  | .logStream master t => Sys2Proof.Machine.execLogStream master t s
  | .vctFrame port frame rtag t => Sys2Proof.Machine.execVctFrame port frame rtag t s
  | .vctTx l t => Sys2Proof.Machine.execVctTx l t s
  | .unpaired t => Sys2Proof.Machine.execUnpaired t s
  | .vctRx d t => Sys2Proof.Machine.execVctRx d t s
  | .vctAnnouncement d t => Sys2Proof.Machine.execVctAnnouncement d t s
  | .stopSupervision d t => Sys2Proof.Machine.execStopSupervision d t s
  | .bellwetherRole t => Sys2Proof.Machine.execBellwetherRole t s
  | .cellFoldClose d t => Sys2Proof.Machine.execCellFoldClose d t s
  | .beacon d t => Sys2Proof.Machine.execBeacon d t s
  | .fsclr d t => Sys2Proof.Machine.execFsclr d t s
  | .tlarm d t => Sys2Proof.Machine.execTlarm d t s
  | .apply p t => Sys2Proof.Machine.execApply p t s
  | .grandmasterLoss t => Sys2Proof.Machine.execGrandmasterLoss t s
  | .holdoverExpiry t => Sys2Proof.Machine.execHoldoverExpiry t s
  | .bringUpStep dom k slow t => Sys2Proof.Machine.execBringUpStep dom k slow t s
  | .fixedDelayExpiry dom k faulted slow t => Sys2Proof.Machine.execFixedDelayExpiry dom k faulted slow t s
  | .takeDown dom k t => Sys2Proof.Machine.execTakeDown dom k t s
  | .pwrHdomTarget k target party t => Sys2Proof.Machine.execPwrHdomTarget k target party t s
  | .pwrPlReq d pl party t => Sys2Proof.Machine.execPwrPlReq d pl party t s
  | .levelReady d t => Sys2Proof.Machine.execLevelReady d t s
  | .clockSwitch t => Sys2Proof.Machine.execClockSwitch t s
  | .levelAbandon t => Sys2Proof.Machine.execLevelAbandon t s
  | .pwrHplReq pl party t => Sys2Proof.Machine.execPwrHplReq pl party t s
  | .pwrHwakeField v party t => Sys2Proof.Machine.execPwrHwakeField v party t s
  | .powerReqRequest d t => Sys2Proof.Machine.execPowerReqRequest d t s
  | .powerReqStateReport l t => Sys2Proof.Machine.execPowerReqStateReport l t s
  | .powerReqGrant l t => Sys2Proof.Machine.execPowerReqGrant l t s
  | .powerReqRefusal l t => Sys2Proof.Machine.execPowerReqRefusal l t s
  | .wake d src ix t => Sys2Proof.Machine.execWake d src ix t s
  | .hostWake src rtc t => Sys2Proof.Machine.execHostWake src rtc t s
  | .vf24Low mv10 t => Sys2Proof.Machine.execVf24Low mv10 t s
  | .save dom k t => Sys2Proof.Machine.execSave dom k t s
  | .vf24Brownout lost t => Sys2Proof.Machine.execVf24Brownout lost t s
  | .vf24Overvoltage mv10 t => Sys2Proof.Machine.execVf24Overvoltage mv10 t s
  | .warmReturn failA failB slow t => Sys2Proof.Machine.execWarmReturn failA failB slow t s
  | .fieldPowerUp mv10 t => Sys2Proof.Machine.execFieldPowerUp mv10 t s
  | .frstAssert t => Sys2Proof.Machine.execFrstAssert t s
  | .frstRelease t => Sys2Proof.Machine.execFrstRelease t s
  | .nrstHAssert t => Sys2Proof.Machine.execNrstHAssert t s
  | .nrstHRelease lanes t => Sys2Proof.Machine.execNrstHRelease lanes t s
  | .programKeySlot slot party t => Sys2Proof.Machine.execProgramKeySlot slot party t s
  | .revokeKeySlot slot party t => Sys2Proof.Machine.execRevokeKeySlot slot party t s
  | .programIk party t => Sys2Proof.Machine.execProgramIk party t s
  | .advanceLifecycle lct party t => Sys2Proof.Machine.execAdvanceLifecycle lct party t s
  | .raiseArb arbt party t => Sys2Proof.Machine.execRaiseArb arbt party t s
  | .chreq party t => Sys2Proof.Machine.execChreq party t s
  | .challengeReady t => Sys2Proof.Machine.execChallengeReady t s
  | .challengeExpiry t => Sys2Proof.Machine.execChallengeExpiry t s
  | .verify party t => Sys2Proof.Machine.execVerify party t s
  | .verification t => Sys2Proof.Machine.execVerification t s
  | .chreqRefusalEnd t => Sys2Proof.Machine.execChreqRefusalEnd t s
  | .close party t => Sys2Proof.Machine.execClose party t s
  | .openreq party t => Sys2Proof.Machine.execOpenreq party t s
  | .ttlExpiry t => Sys2Proof.Machine.execTtlExpiry t s
  | .debugOpen d t => Sys2Proof.Machine.execDebugOpen d t s
  | .debugClose d t => Sys2Proof.Machine.execDebugClose d t s
  | .debugRead d t => Sys2Proof.Machine.execDebugRead d t s
  | .debugWrite d t => Sys2Proof.Machine.execDebugWrite d t s
  | .debugHalt d t => Sys2Proof.Machine.execDebugHalt d t s
  | .resume d t => Sys2Proof.Machine.execResume d t s
  | .debugStep d t => Sys2Proof.Machine.execDebugStep d t s
  | .regrd d t => Sys2Proof.Machine.execRegrd d t s
  | .regwr d t => Sys2Proof.Machine.execRegwr d t s
  | .bkpt d t => Sys2Proof.Machine.execBkpt d t s
  | .bkclr d t => Sys2Proof.Machine.execBkclr d t s
  | .breakpointHit d k c t => Sys2Proof.Machine.execBreakpointHit d k c t s
  | .holdNote d t => Sys2Proof.Machine.execHoldNote d t s
  | .debugRsp l t => Sys2Proof.Machine.execDebugRsp l t s
  | .idcode => Sys2Proof.Machine.execIdcode s
  | .bypass => Sys2Proof.Machine.execBypass s
  | .samplePreload levels => Sys2Proof.Machine.execSamplePreload levels s
  | .extest levels => Sys2Proof.Machine.execExtest levels s
  | .dap addr write => Sys2Proof.Machine.execDap addr write s
  | .timerTick d n t => Sys2Proof.Machine.execTimerTick d n t s
  | .gtCmpWrite d n j v t => Sys2Proof.Machine.execGtCmpWrite d n j v t s
  | .gtCntWrite d n v withTick t => Sys2Proof.Machine.execGtCntWrite d n v withTick t s
  | .snap d n t => Sys2Proof.Machine.execSnap d n t s
  | .gtCapRead d n party t => Sys2Proof.Machine.execGtCapRead d n party t s
  | .ckClaim d u party t => Sys2Proof.Machine.execCkClaim d u party t s
  | .ckRelease d u party t => Sys2Proof.Machine.execCkRelease d u party t s
  | .go d u party t => Sys2Proof.Machine.execGo d u party t s
  | .dmaRunEnd d u ecc at_ t => Sys2Proof.Machine.execDmaRunEnd d u ecc at_ t s
  | .bistLane d t => Sys2Proof.Machine.execBistLane d t s
  | .bistPin d t => Sys2Proof.Machine.execBistPin d t s
  | .bistNeighbour d t => Sys2Proof.Machine.execBistNeighbour d t s
  | .bistSlice d t => Sys2Proof.Machine.execBistSlice d t s
  | .bistFuse d t => Sys2Proof.Machine.execBistFuse d t s
  | .testEnd d fails transient pairs codes t => Sys2Proof.Machine.execTestEnd d fails transient pairs codes t s
  | .bistRes l t => Sys2Proof.Machine.execBistRes l t s
  | .softRepairWrite d seg k lane valid party t => Sys2Proof.Machine.execSoftRepairWrite d seg k lane valid party t s
  | .unassigned c => Sys2Proof.Machine.execUnassigned c s
  | .wakeNote d t => Sys2Proof.Machine.execWakeNote d t s
  | .linkReturned l atHost t => Sys2Proof.Machine.execLinkReturned l atHost t s
  | .timeSyncSend t => Sys2Proof.Machine.execTimeSyncSend t s
  | .grandmasterSync gm offset t => Sys2Proof.Machine.execGrandmasterSync gm offset t s
  | .bridgeFrame port dmac smac vid pcp len full t => Sys2Proof.Machine.execBridgeFrame port dmac smac vid pcp len full t s
  | .sourceCooled d j t => Sys2Proof.Machine.execSourceCooled d j t s
  | .otpCommandDone cut t => Sys2Proof.Machine.execOtpCommandDone cut t s
  | .hostSupplyLow t => Sys2Proof.Machine.execHostSupplyLow t s
  | .domainFailure d k t => Sys2Proof.Machine.execDomainFailure d k t s

end Sys2Proof.Machine
end

