-- ==== Sys2Proof/Safety.lean ====
section
/-! DEFINITION. What claims about a run speak of: the switches and commands of a channel, a channel that has gone safe, canonical
tables. -/

namespace Sys2Proof.Machine

/-- The own switch of SOn is closed on this die, as commanded or as its power die reports it. -/
def LogicDie.closed (x : LogicDie) (n : Nat) : Bool :=
  x.bit F.SO_CMD_CLOSED n || x.is F.SO_SW_CMD n || x.is F.SO_SW_CLOSED n

/-- SOn carries energy (R24, R201): both channels' switches are closed. -/
def State.energised (s : State) (n : Nat) : Bool := s.la.closed n && s.lb.closed n

/-- Every own switch of a die is open and no output command of it is set (R24, R60). -/
def LogicDie.opened (x : LogicDie) : Bool :=
  (List.range 32).all (fun n => !x.closed n) && x.g F.SO_CMD_CMD == 0

/-- The channel has gone safe (R60): the die says so, runs no fold, and its own switches are open. -/
def LogicDie.wentSafe (x : LogicDie) : Bool :=
  x.is F.FC_CTRL_SAFE && x.is F.FOLD_STATUS_SAFE && !x.is F.FOLD_STATUS_RUNNING && x.opened

/-- The memory of a logic die is in canonical form. -/
def Memory.wf (m : Sparse Byte) : Bool := Sparse.wf memDflt m

/-- Host SRAM, or a snapshot buffer, is in canonical form. -/
def HostMemory.wf (m : Sparse Byte) : Bool := Sparse.wf (fun _ => 0#8) m

/-- A run stops safely: it answers a next state. No command of this device faults. -/
def Completes (o : Host.Outcome State Fault Refusal) : Prop := ∃ s, o = .next s

end Sys2Proof.Machine
end

