-- ==== Sys2Proof/Certificates/Slice0/Obligations.lean ====
section
/-! DEFINITION. The statements for the provers: what each command of the block does, as the numbered rules of spec/ say, and
what no step can do. The first part holds the words that the statements use. -/

namespace Sys2Proof.Claims

open Sys2Proof.Machine

/-! ### Words for the Evpeal statements -/

/-- The die that an instruction executes on, at the instant of the instruction. -/
def here (c : Ctx) (s : State) : LogicDie := (s.die c.die).at c.now

/-- What ECC found at a fetch that the instruction survives without a second read (R86). -/
def CleanFetch (c : Ctx) : Prop := c.fetch.kind = .clean ∨ c.fetch.kind = .corrected

/-- The fold task executes the next instruction: its attempt runs, the budget is not used up, and the fetch takes no trap
(R83, R86, R100). -/
def FoldReady (c : Ctx) (s : State) : Prop :=
  c.host = none ∧ c.companion = false ∧ CleanFetch c ∧ (here c s).foldRuns = true ∧
    (here c s).core.cycles < (here c s).budget ∧ (here c s).region (here c s).core.pc = .code

/-- The companion core executes the next instruction: native mode, started, not waiting, and the fetch takes no trap. -/
def CompReady (c : Ctx) (s : State) : Prop :=
  c.host = none ∧ c.companion = true ∧ CleanFetch c ∧ (here c s).compRuns = true ∧
    (here c s).region (here c s).comp.pc = .compCode

/-- The registers that an instruction waits for and those that it writes (R117). -/
def operands : Instr → List (Fin 32) × List (Fin 32)
  | .iAdd _ wd wa wb | .iSub _ wd wa wb | .iAnd _ wd wa wb | .iOr _ wd wa wb | .iXor _ wd wa wb | .iNor _ wd wa wb
  | .iAndn _ wd wa wb | .iSll _ wd wa wb | .iSrl _ wd wa wb | .iSra _ wd wa wb | .iRor _ wd wa wb | .iSeq _ wd wa wb
  | .iSne _ wd wa wb | .iSlt _ wd wa wb | .iSge _ wd wa wb | .iSltu _ wd wa wb | .iSgeu _ wd wa wb | .iMin _ wd wa wb
  | .iMax _ wd wa wb | .iMinu _ wd wa wb | .iMaxu _ wd wa wb | .iMul _ wd wa wb | .iMulh _ wd wa wb | .iMulhu _ wd wa wb
  | .iDiv _ wd wa wb | .iDivu _ wd wa wb | .iRem _ wd wa wb | .iRemu _ wd wa wb | .iTsend _ wd wa wb | .iTrecv _ wd wa wb
  | .iDomain _ wd wa wb | .iSand _ wd wa wb | .iSor _ wd wa wb | .iSandn _ wd wa wb | .iSpklo _ wd wa wb | .iSpkhi _ wd wa wb
  | .iSrot _ wd wa wb => ([wa, wb], [wd])
  | .iClz _ wd wa | .iPopc _ wd wa | .iSextb _ wd wa | .iSexth _ wd wa | .iSextw _ wd wa | .iBswap _ wd wa
  | .iAddi _ wd wa _ | .iAndi _ wd wa _ | .iOri _ wd wa _ | .iXori _ wd wa _ | .iSlti _ wd wa _ | .iSltiu _ wd wa _
  | .iShi _ wd wa _ _ | .iExtu _ wd wa _ _ | .iLdb _ wd wa _ | .iLdh _ wd wa _ | .iLdw _ wd wa _ | .iLdd _ wd wa _
  | .iIn _ wd wa _ | .iSnot _ wd wa | .iSall _ wd wa | .iSany _ wd wa | .iSchk _ wd wa | .iSbmov _ wd wa _ _
  | .iSbnot _ wd wa _ _ | .iSbcast _ wd wa _ | .iSfromi _ wd wa | .iEqv _ wd wa _ _ | .iAntv _ wd wa _ _ | .iTwoh _ wd wa _ _
  | .iRsti _ wd wa _ _ | .iEdm _ wd wa _ _ | .iMute _ wd wa _ _ | .iTon _ wd wa _ | .iTof _ wd wa _ | .iLimit _ wd wa _ _
  | .iZone _ wd wa _ | .iZoneQ _ wd wa _ => ([wa], [wd])
  | .iMovz _ wd _ _ | .iAproof _ wd _ | .iMovs _ wd _ | .iCkend _ _ wd | .iCkrd _ _ wd | .iGtrd _ _ wd | .iGtsnap _ _ wd
  | .iSclr _ wd => ([], [wd])
  | .iMovk _ wd _ _ => ([wd], [wd])
  | .iStb _ ws wa _ | .iSth _ ws wa _ | .iStw _ ws wa _ | .iStd _ ws wa _ => ([wa, ws], [])
  | .iBeq _ wa wb _ | .iLog _ wa wb _ => ([wa, wb], [])
  | .iCall _ _ => ([], [30])
  | .iRet _ => ([30], [])
  | .iJr _ wa | .iMovt _ wa _ | .iCkin _ _ _ wa | .iGtcmp0 _ _ wa | .iGtcmp1 _ _ wa => ([wa], [])
  | .iCallr _ wa => ([wa], [30])
  | .iOut _ wd wa | .iOutc _ wd wa => ([wd, wa], [])
  | _ => ([], [])

/-- The die as the executing role issues instruction `i`: the fold task has fetched its line and waited for its operands (R117), an
error of a register is corrected and counted (R290), and the companion core waits in WAITEV no more (R104). Registers, memory and
the program counters are those of `here`. -/
def atIssue (c : Ctx) (s : State) (i : Instr) : LogicDie :=
  if c.companion then (here c s).compIssued c else (here c s).issued c (operands i).1 (operands i).2

/-- A die after the executing role has moved on to the next instruction with nothing else changed; the fold task spends
`n` cycles. -/
def moved (c : Ctx) (x : LogicDie) (n : Nat) : LogicDie :=
  if c.companion then { x with comp := { x.comp with pc := (x.comp.pc + 4) % 2 ^ 64 } }
  else x.retire c.die x.core.pc (x.core.pc + 4) n

/-- The instruction completes: wd takes `v` (a write to w0 is discarded, R73), every other register keeps its value, the
role moves on, and nothing else of the device changes but what `g` says of the pipeline (R117, R118). -/
def WritesThen (c : Ctx) (s : State) (i : Instr) (wd : Fin 32) (v : Word) (n : Nat) (g : LogicDie → LogicDie) : Prop :=
  ∃ t, exec i s = .next t ∧
    (∀ r, (t.die c.die).w c.companion r = if r = wd ∧ r ≠ 0 then v else (here c s).w c.companion r) ∧
    (t = s.setDie c.die
      (if c.companion then { moved c (g (atIssue c s i)) n with
         comp := { (moved c (g (atIssue c s i)) n).comp with w := (t.die c.die).comp.w } }
       else { moved c (g (atIssue c s i)) n with
         core := { (moved c (g (atIssue c s i)) n).core with w := (t.die c.die).core.w } }))

/-- The instruction completes: wd takes `v`, the role moves on, and nothing else of the device changes. -/
def WritesReg (c : Ctx) (s : State) (i : Instr) (wd : Fin 32) (v : Word) (n : Nat) : Prop := WritesThen c s i wd v n id

/-- The table of R120: each register form with wd, its cycles on LA and LB, and the value that wd takes from the registers. -/
def intForm : Instr → Option (Ctx × Fin 32 × Nat × Nat × ((Fin 32 → Word) → Word))
  | .iAdd c wd wa wb => some (c, wd, 1, 1, fun g => BitVec.ofNat 64 ((g wa).toNat + (g wb).toNat))
  | .iSub c wd wa wb => some (c, wd, 1, 1, fun g => BitVec.ofInt 64 ((g wa).toNat - (g wb).toNat))
  | .iAnd c wd wa wb => some (c, wd, 1, 1, fun g => g wa &&& g wb)
  | .iOr c wd wa wb => some (c, wd, 1, 1, fun g => g wa ||| g wb)
  | .iXor c wd wa wb => some (c, wd, 1, 1, fun g => g wa ^^^ g wb)
  | .iNor c wd wa wb => some (c, wd, 1, 1, fun g => ~~~(g wa ||| g wb))
  | .iAndn c wd wa wb => some (c, wd, 1, 1, fun g => g wa &&& ~~~(g wb))
  | .iSll c wd wa wb => some (c, wd, 1, 1, fun g => BitVec.ofNat 64 ((g wa).toNat * 2 ^ ((g wb).toNat % 64)))
  | .iSrl c wd wa wb => some (c, wd, 1, 1, fun g => BitVec.ofNat 64 ((g wa).toNat / 2 ^ ((g wb).toNat % 64)))
  | .iSra c wd wa wb => some (c, wd, 1, 1, fun g => BitVec.ofInt 64 ((g wa).toInt / 2 ^ ((g wb).toNat % 64)))
  | .iRor c wd wa wb => some (c, wd, 1, 1, fun g => (g wa).rotateRight ((g wb).toNat % 64))
  | .iSeq c wd wa wb => some (c, wd, 1, 1, fun g => if g wa = g wb then 1 else 0)
  | .iSne c wd wa wb => some (c, wd, 1, 1, fun g => if g wa = g wb then 0 else 1)
  | .iSlt c wd wa wb => some (c, wd, 1, 1, fun g => if (g wa).toInt < (g wb).toInt then 1 else 0)
  | .iSge c wd wa wb => some (c, wd, 1, 1, fun g => if (g wb).toInt ≤ (g wa).toInt then 1 else 0)
  | .iSltu c wd wa wb => some (c, wd, 1, 1, fun g => if (g wa).toNat < (g wb).toNat then 1 else 0)
  | .iSgeu c wd wa wb => some (c, wd, 1, 1, fun g => if (g wb).toNat ≤ (g wa).toNat then 1 else 0)
  | .iMin c wd wa wb => some (c, wd, 1, 1, fun g => BitVec.ofInt 64 (min (g wa).toInt (g wb).toInt))
  | .iMax c wd wa wb => some (c, wd, 1, 1, fun g => BitVec.ofInt 64 (max (g wa).toInt (g wb).toInt))
  | .iMinu c wd wa wb => some (c, wd, 1, 1, fun g => BitVec.ofNat 64 (min (g wa).toNat (g wb).toNat))
  | .iMaxu c wd wa wb => some (c, wd, 1, 1, fun g => BitVec.ofNat 64 (max (g wa).toNat (g wb).toNat))
  | .iClz c wd wa => some (c, wd, 1, 2, fun g =>
      if g wa = 0 then 64 else BitVec.ofNat 64 (63 - Nat.log2 (g wa).toNat))
  | .iPopc c wd wa => some (c, wd, 1, 2, fun g =>
      BitVec.ofNat 64 ((List.range 64).filter (fun i => (g wa).toNat.testBit i)).length)
  | .iSextb c wd wa => some (c, wd, 1, 1, fun g => ((g wa).setWidth 8).signExtend 64)
  | .iSexth c wd wa => some (c, wd, 1, 1, fun g => ((g wa).setWidth 16).signExtend 64)
  | .iSextw c wd wa => some (c, wd, 1, 1, fun g => ((g wa).setWidth 32).signExtend 64)
  | .iBswap c wd wa => some (c, wd, 1, 2, fun g => BitVec.ofNat 64 (ofBytesLE (bytesLE 8 (g wa).toNat).reverse))
  | _ => none

/-- The multiplications of R120: each form with wd and the value that wd takes from the registers. -/
def mulForm : Instr → Option (Ctx × Fin 32 × ((Fin 32 → Word) → Word))
  | .iMul c wd wa wb => some (c, wd, fun g => BitVec.ofNat 64 ((g wa).toNat * (g wb).toNat))
  | .iMulh c wd wa wb => some (c, wd, fun g => BitVec.ofInt 64 ((g wa).toInt * (g wb).toInt / 2 ^ 64))
  | .iMulhu c wd wa wb => some (c, wd, fun g => BitVec.ofNat 64 ((g wa).toNat * (g wb).toNat / 2 ^ 64))
  | _ => none

/-- Division (R120, R121): each form with wd and the value that wd takes from the registers. -/
def divForm : Instr → Option (Ctx × Fin 32 × ((Fin 32 → Word) → Word))
  | .iDiv c wd wa wb => some (c, wd, fun g =>
      if g wb = 0 then 0xFFFFFFFFFFFFFFFF else if g wa = 0x8000000000000000 ∧ g wb = 0xFFFFFFFFFFFFFFFF then g wa
      else BitVec.ofInt 64 ((g wa).toInt.tdiv (g wb).toInt))
  | .iDivu c wd wa wb => some (c, wd, fun g =>
      if g wb = 0 then 0xFFFFFFFFFFFFFFFF else BitVec.ofNat 64 ((g wa).toNat / (g wb).toNat))
  | .iRem c wd wa wb => some (c, wd, fun g =>
      if g wb = 0 then g wa else if g wa = 0x8000000000000000 ∧ g wb = 0xFFFFFFFFFFFFFFFF then 0
      else BitVec.ofInt 64 ((g wa).toInt.tmod (g wb).toInt))
  | .iRemu c wd wa wb => some (c, wd, fun g =>
      if g wb = 0 then g wa else BitVec.ofNat 64 ((g wa).toNat % (g wb).toNat))
  | _ => none

/-- The table of R122: each immediate form with wd and the value that wd takes from the registers. -/
def immForm : Instr → Option (Ctx × Fin 32 × ((Fin 32 → Word) → Word))
  | .iAddi c wd wa imm => some (c, wd, fun g => g wa + (BitVec.ofNat 16 imm.val).signExtend 64)
  | .iAndi c wd wa imm => some (c, wd, fun g => g wa &&& BitVec.ofNat 64 imm.val)
  | .iOri c wd wa imm => some (c, wd, fun g => g wa ||| BitVec.ofNat 64 imm.val)
  | .iXori c wd wa imm => some (c, wd, fun g => g wa ^^^ BitVec.ofNat 64 imm.val)
  | .iSlti c wd wa imm => some (c, wd, fun g => if (g wa).toInt < (BitVec.ofNat 16 imm.val).toInt then 1 else 0)
  | .iSltiu c wd wa imm => some (c, wd, fun g => if (g wa).toNat < imm.val then 1 else 0)
  | .iMovz c wd hw imm => some (c, wd, fun _ => BitVec.ofNat 64 imm.val <<< (16 * hw.val))
  | .iMovk c wd hw imm => some (c, wd, fun g =>
      let k := 16 * hw.val
      BitVec.ofNat 64 ((g wd).toNat / 2 ^ (k + 16) * 2 ^ (k + 16) + imm.val * 2 ^ k + (g wd).toNat % 2 ^ k))
  | .iShi c wd wa kind sh => some (c, wd, fun g =>
      if kind = 0 then BitVec.ofNat 64 ((g wa).toNat * 2 ^ sh.val)
      else if kind = 1 then BitVec.ofNat 64 ((g wa).toNat / 2 ^ sh.val)
      else if kind = 2 then BitVec.ofInt 64 ((g wa).toInt / 2 ^ sh.val)
      else (g wa).rotateRight sh.val)
  | .iExtu c wd wa lsb w1 =>
      if lsb.val + (w1.val + 1) ≤ 64 then
        some (c, wd, fun g => (g wa >>> lsb.val) &&& BitVec.ofNat 64 (2 ^ (w1.val + 1) - 1))
      else none
  | _ => none

/-- The general tables of R120 to R122 together: the context of an integer instruction with no unassigned operand. -/
def intCtx (i : Instr) : Option Ctx :=
  match intForm i with
  | some (c, _) => some c
  | none =>
    match divForm i, mulForm i with
    | some (c, _), _ => some c
    | none, some (c, _) => some c
    | none, none => (immForm i).map (·.1)

/-- Loads (R123): context, destination, base, offset, width. -/
def loadForm : Instr → Option (Ctx × Fin 32 × Fin 32 × Fin 65536 × Nat)
  | .iLdb c wd wa off => some (c, wd, wa, off, 1)
  | .iLdh c wd wa off => some (c, wd, wa, off, 2)
  | .iLdw c wd wa off => some (c, wd, wa, off, 4)
  | .iLdd c wd wa off => some (c, wd, wa, off, 8)
  | _ => none

/-- Stores (R123): context, source, base, offset, width. -/
def storeForm : Instr → Option (Ctx × Fin 32 × Fin 32 × Fin 65536 × Nat)
  | .iStb c ws wa off => some (c, ws, wa, off, 1)
  | .iSth c ws wa off => some (c, ws, wa, off, 2)
  | .iStw c ws wa off => some (c, ws, wa, off, 4)
  | .iStd c ws wa off => some (c, ws, wa, off, 8)
  | _ => none

/-- The address of a load or store (R114, R123). -/
def addrOf (c : Ctx) (s : State) (wa : Fin 32) (off : Fin 65536) : Nat := (here c s).mAddr c.companion wa off

/-- The byte that the executing role sees at an address outside the register regions: committed image and shared pages on the
companion core (R91), the frozen companion half in the fold task (R90), the crosslink view (R35). -/
def seen (x : LogicDie) (companion : Bool) (a : Nat) : Byte :=
  match x.region a with
  | .inImage | .outImage | .sharedFold => Sparse.get memDflt (if companion then x.memC else x.mem) a
  | .sharedComp => Sparse.get memDflt (if companion then x.mem else x.memF) a
  | .xview => Sparse.get memDflt x.xview (a - 0x40000000)
  | _ => x.mem8 a

/-- A little-endian number of `n` bytes (R8). -/
def leNum (f : Nat → Byte) (a n : Nat) : Nat := ((List.range n).map (fun j => (f (a + j)).toNat * 256 ^ j)).sum

/-- The access is allowed, aligned and within the stack (R83, R85, R99). -/
def LoadFree (c : Ctx) (s : State) (wa : Fin 32) (a width : Nat) : Prop :=
  mayLoad c.companion ((here c s).region a) = true ∧ misaligned false a width = false ∧
    (here c s).offStack c.companion wa a width = false

/-- The same of a store (R83, R85, R99). -/
def StoreFree (c : Ctx) (s : State) (wa : Fin 32) (a width : Nat) : Prop :=
  (if c.companion then (here c s).compMayStore ((here c s).region a) a else foldMayStore ((here c s).region a) a) = true ∧
    misaligned true a width = false ∧ (here c s).offStack c.companion wa a width = false

/-- A register region. -/
def isRegs : Region → Bool
  | .dieRegs | .pdRegs => true
  | _ => false

/-- The instruction traps: a fold-task trap or a companion trap is taken, and nothing else happens. -/
def Traps (c : Ctx) (s : State) (i : Instr) (t : Trap) (store : Bool) : Prop :=
  exec i s = .next (s.setDie c.die
    (if c.companion then (atIssue c s i).compTrap c.die t store else (atIssue c s i).foldTrap c.die t))

/-- The instruction is refused before it waits for its operands (R106, R112): it traps, and nothing else happens. -/
def Refused (c : Ctx) (s : State) (i : Instr) (k : TrapClass) : Prop :=
  exec i s = .next (s.setDie c.die
    (if c.companion then (atIssue c s i).compTrap c.die (Trap.plain k) false
     else ((here c s).fetched c).foldTrap c.die (Trap.plain k)))

/-- The fold task's store of instruction `i` has entered the store buffer, whose path it holds for `n` cycles (R118, R119). -/
def buffered (c : Ctx) (s : State) (i : Instr) (n : Nat) : LogicDie := (atIssue c s i).enterBuffer c.die n

/-- The pipeline after a load into wd (R117, R118): the fold task has read the line, and the value is usable after the latency. -/
def loadPipe (c : Ctx) (a : Nat) (wd : Fin 32) (x : LogicDie) : LogicDie :=
  if c.companion then x else (x.readLine c a).loaded c.die (x.region a) wd

/-- The companion core posts a register store and moves on (R118). -/
def posted (c : Ctx) (x : LogicDie) (a width : Nat) (v : Word) : LogicDie :=
  let y := x.busPost c.die .companion a width v
  { y with comp := { y.comp with pc := (x.comp.pc + 4) % 2 ^ 64 } }

/-- A die after the executing role has gone to `target` with nothing else changed; the fold task spends `n` cycles. -/
def jumped (c : Ctx) (x : LogicDie) (n target : Nat) : LogicDie :=
  if c.companion then { x with comp := { x.comp with pc := target % 2 ^ 64 } }
  else x.retire c.die x.core.pc target n

/-- pc + 4 × sext(offset), modulo 2^64 (R114). -/
def relTarget (pc : Nat) (off : Int) : Nat := ((pc + 4 * off) % 2 ^ 64).toNat

/-- A 16-bit or 26-bit offset as a signed number. -/
def signed16 (off : Fin 65536) : Int := if off.val < 32768 then off.val else (off.val : Int) - 65536

def signed26 (off : Fin 67108864) : Int := if off.val < 33554432 then off.val else (off.val : Int) - 67108864

/-- The address of the executing role's instruction. -/
def pcOf (c : Ctx) (s : State) : Nat := (here c s).pc c.companion

/-- The cycles of a form on its die. -/
def onDie (c : Ctx) (la lb : Nat) : Nat := if c.die = .la then la else lb

/-- w30 takes the return address. -/
def linked (c : Ctx) (x : LogicDie) (ra : Nat) : LogicDie := x.setW c.companion 30 (BitVec.ofNat 64 ra)

/-- A word table of 32 safe codes: the code at position i is `f i` (R77). -/
def codes (f : Nat → Nat) : Word := BitVec.ofNat 64 ((List.range 32).map (fun i => f i * 4 ^ i)).sum

/-- The fold task completes an instruction that changes the die as `g` says and moves on. -/
def FoldDoes (c : Ctx) (s : State) (i : Instr) (n : Nat) (g : LogicDie → LogicDie) : Prop :=
  exec i s = .next (s.setDie c.die
    ((g (atIssue c s i)).retire c.die (here c s).core.pc ((here c s).core.pc + 4) n))

/-- The companion core completes an instruction that changes the die as `g` says and moves on. -/
def CompDoes (c : Ctx) (s : State) (i : Instr) (g : LogicDie → LogicDie) : Prop :=
  exec i s = .next (s.setDie c.die
    { g (atIssue c s i) with comp := { (g (atIssue c s i)).comp with pc := ((here c s).comp.pc + 4) % 2 ^ 64 } })

/-- An 8-byte word of memory changes with its journal entry, and nothing else: every byte outside `a` to `a + 7` reads as before,
and what stood in that 8-byte word is the newest journal entry. -/
def Journals (x y : LogicDie) (a : Nat) (v : Word) : Prop :=
  y.ld64 a = v ∧ (∀ b, b < a ∨ a + 8 ≤ b → y.mem8 b = x.mem8 b) ∧
    y = { x with mem := y.mem, core := { x.core with journal := ⟨a, x.ld64 a⟩ :: x.core.journal } }

/-- The journal takes `k` more entries (R42, R43). -/
def Room (x : LogicDie) (k : Nat) : Prop :=
  x.core.jovf = false ∧ x.core.journal.length + k ≤ x.g F.FOLD_BUDGET_JLIMIT

/-- The system registers that the fold task reads (R80), by index. -/
def foldSys (d : Ch) (x : LogicDie) : List (Nat × Word) :=
  [(0x000, BitVec.ofNat 64 ((if d = .lb then 4 else 0) + if x.hdr.triad then 8 else 0)), (0x001, 1),
   (0x002, BitVec.ofNat 64 x.recFold), (0x003, BitVec.ofNat 64 x.core.attempt),
   (0x004, BitVec.ofNat 64 (x.core.cycles % 2 ^ 24)),
   (0x005, BitVec.ofNat 64 ((x.g F.FOLD_BUDGET_BUDGET - x.core.cycles) % 2 ^ 24)),
   (0x008, BitVec.ofNat 64 (x.g F.GT_TBASE_TIME)), (0x009, BitVec.ofNat 64 x.fold.start),
   (0x010, BitVec.ofNat 64 x.hdr.spLo), (0x011, BitVec.ofNat 64 x.hdr.spHi), (0x012, BitVec.ofNat 64 x.core.callDepth),
   (0x013, BitVec.ofNat 64 x.core.loops.length), (0x018, x.core.trapCause), (0x019, x.core.trapPc),
   (0x01A, x.core.trapAddr), (0x020, x.core.events), (0x021, 0), (0x040, BitVec.ofNat 64 x.hdr.codeSplit),
   (0x041, BitVec.ofNat 64 x.hdr.dataSplit)]

/-- The system registers that the companion core reads (R80), by index. -/
def compSys (d : Ch) (x : LogicDie) : List (Nat × Word) :=
  [(0x000, BitVec.ofNat 64 (2 + (if d = .lb then 4 else 0) + if x.hdr.triad then 8 else 0)), (0x001, 2),
   (0x002, x.rd .FOLD_NUMBER), (0x008, BitVec.ofNat 64 (x.g F.GT_TBASE_TIME)),
   (0x009, BitVec.ofNat 64 x.fold.lastStart), (0x010, x.comp.spLo), (0x011, x.comp.spHi), (0x030, x.comp.irqEnable),
   (0x031, BitVec.ofNat 64 x.irqLines), (0x032, x.comp.irqVbase), (0x033, x.comp.trapVbase), (0x034, x.comp.estatus),
   (0x035, x.comp.epc), (0x036, x.comp.ecause), (0x037, x.comp.eaddr), (0x040, BitVec.ofNat 64 x.hdr.codeSplit),
   (0x041, BitVec.ofNat 64 x.hdr.dataSplit)]

/-- The registers that the companion core writes (R80): index, reserved bits, and the write. -/
def compWrites : List (Nat × Word × (CompCore → Word → CompCore)) :=
  [(0x010, 0, fun k v => { k with spLo := v }), (0x011, 0, fun k v => { k with spHi := v }),
   (0x030, 0, fun k v => { k with irqEnable := v }), (0x032, 0xFF, fun k v => { k with irqVbase := v }),
   (0x033, 0xFF, fun k v => { k with trapVbase := v }),
   (0x034, 0xFFFFFFFFFFFFFFFC, fun k v => { k with estatus := v }), (0x035, 0, fun k v => { k with epc := v })]

/-- A safe word from a truth value per position (R77, R79): 0b10 for safe-1, 0b01 for safe-0. -/
def safeBits (f : Nat → Bool) : Word := codes (fun i => if f i then 2 else 1)

/-- All 32 codes of a word are 0b01 or 0b10 (R77, R78). -/
def AllCodes (v : Word) : Prop := ∀ i, i < 32 → safeCode v i = 1 ∨ safeCode v i = 2

/-- The tables of R139 to R141: wd, the cycles on LA and LB, the check of R78, and the result. -/
def safeForm : Instr → Option (Ctx × Fin 32 × Nat × Nat × ((Fin 32 → Word) → Prop) × ((Fin 32 → Word) → Word))
  | .iSand c wd wa wb => some (c, wd, 1, 1, fun g => AllCodes (g wa) ∧ AllCodes (g wb),
      fun g => safeBits (fun i => safeCode (g wa) i == 2 && safeCode (g wb) i == 2))
  | .iSor c wd wa wb => some (c, wd, 1, 1, fun g => AllCodes (g wa) ∧ AllCodes (g wb),
      fun g => safeBits (fun i => safeCode (g wa) i == 2 || safeCode (g wb) i == 2))
  | .iSandn c wd wa wb => some (c, wd, 1, 1, fun g => AllCodes (g wa) ∧ AllCodes (g wb),
      fun g => safeBits (fun i => safeCode (g wa) i == 2 && safeCode (g wb) i == 1))
  | .iSnot c wd wa => some (c, wd, 1, 1, fun g => AllCodes (g wa),
      fun g => safeBits (fun i => safeCode (g wa) i == 1))
  | .iSall c wd wa => some (c, wd, 1, 2, fun g => AllCodes (g wa),
      fun g => safeBits (fun i => i == 0 && (List.range 32).all (fun j => safeCode (g wa) j == 2)))
  | .iSany c wd wa => some (c, wd, 1, 2, fun g => AllCodes (g wa),
      fun g => safeBits (fun i => i == 0 && (List.range 32).any (fun j => safeCode (g wa) j == 2)))
  | .iSchk c wd wa => some (c, wd, 1, 1, fun g => AllCodes (g wa), fun g => g wa)
  | .iSclr c wd => some (c, wd, 1, 1, fun _ => True, fun _ => 0x5555555555555555)
  | .iSbmov c wd wa bd ba => some (c, wd, 1, 1, fun g => safeCode (g wa) ba = 1 ∨ safeCode (g wa) ba = 2,
      fun g => safeBits (fun i => i == bd.val && safeCode (g wa) ba == 2))
  | .iSbnot c wd wa bd ba => some (c, wd, 1, 1, fun g => safeCode (g wa) ba = 1 ∨ safeCode (g wa) ba = 2,
      fun g => safeBits (fun i => i == bd.val && safeCode (g wa) ba == 1))
  | .iSbcast c wd wa ba => some (c, wd, 1, 1, fun g => safeCode (g wa) ba = 1 ∨ safeCode (g wa) ba = 2,
      fun g => safeBits (fun _ => safeCode (g wa) ba == 2))
  | .iSpklo c wd wa wb => some (c, wd, 1, 1, fun g => AllCodes (g wa) ∧ AllCodes (g wb),
      fun g => safeBits (fun i => if i < 16 then safeCode (g wa) i == 2 else safeCode (g wb) (i - 16) == 2))
  | .iSpkhi c wd wa wb => some (c, wd, 1, 1, fun g => AllCodes (g wa) ∧ AllCodes (g wb),
      fun g => safeBits (fun i => if i < 16 then safeCode (g wa) (i + 16) == 2 else safeCode (g wb) i == 2))
  | .iSrot c wd wa wb => some (c, wd, 1, 2, fun g => AllCodes (g wa),
      fun g => safeBits (fun i => safeCode (g wa) ((i + (g wb).toNat % 32) % 32) == 2))
  | .iSfromi c wd wa => some (c, wd, 1, 1, fun _ => True, fun g => safeBits (fun i => (g wa).getLsbD i))
  | _ => none

/-! ### Function slots -/

/-- A state table (R150): per transition its condition and its outcome; the first whose condition holds is taken. -/
def firstOf {α : Type} (stay : α) : List (Bool × α) → α
  | [] => stay
  | (p, a) :: l => if p then a else firstOf stay l

/-- The STATE word (R143): state code, cause, PREV. -/
def stateWord (code cause prev : Nat) : Word := BitVec.ofNat 64 (code + 16 * cause + 256 * prev)

/-- The state code, cause and PREV of a slot. -/
def slotCode (x : LogicDie) (n : Nat) : Nat := Word.bits (x.slot n 0x18) 3 0

def slotCause (x : LogicDie) (n : Nat) : Nat := Word.bits (x.slot n 0x18) 7 4

def slotPrev (x : LogicDie) (n : Nat) : Nat := Word.bits (x.slot n 0x18) 8 8

/-- A timer armed in the running fold (R146). -/
def armNow (x : LogicDie) : Word := BitVec.ofNat 64 (x.fold.start % 2 ^ 63 + 2 ^ 63)

/-- A timer by its action: armed, disarmed or left. -/
def armBy (x : LogicDie) (old : Word) : Option Bool → Word
  | some true => armNow x
  | some false => 0
  | none => old

/-- A function instruction completes (R147, R150, R151, R152): `k` words of its slot take new values with a journal entry each, every
other byte of memory keeps its value, a fault entry is noted, wd takes three safe bits. -/
def SlotDone (c : Ctx) (s : State) (i : Instr) (n cycles k : Nat) (wd : Fin 32) (st a0 a1 : Word) (fault : Option Nat)
    (b0 b1 b2 : Bool) : Prop :=
  ∃ (y : LogicDie) (new : List JEntry),
    y.slot n 0x18 = st ∧ y.slot n 0x20 = a0 ∧ y.slot n 0x28 = a1 ∧
    (∀ a, a < slotAddr n 0x18 ∨ slotAddr n 0x30 ≤ a → y.mem8 a = (here c s).mem8 a) ∧ new.length = k ∧
    y = { atIssue c s i with mem := y.mem, core := { (atIssue c s i).core with
      journal := new ++ (here c s).core.journal
      slotFaults := (here c s).core.slotFaults ++ fault.toList.map (fun f => (n, f)) } } ∧
    FoldDoes c s i cycles (fun _ => y.setW false wd
      (safeBits (fun j => (j == 0 && b0) || (j == 1 && b1) || (j == 2 && b2))))

/-- A fault entry: the new state is the fault state and the old one was not. -/
def entered (f : Nat) (old new : Nat) : Option Nat := if new = f ∧ old ≠ f then some f else none

/-- The transitions of R154. -/
def eqvTable (startTest even odd : Bool) (ps : Nat) : Nat → List (Bool × Nat)
  | 0 => [(!startTest, 1), (!even && !odd, 1)]
  | 1 => [(ps == 3, 4), (even && odd, 2)]
  | 2 => [(ps == 3, 4), (!even && !odd, 1), (even != odd, 3)]
  | 3 => [(ps == 3, 4), (!even && !odd, 1)]
  | 4 => [(!even && !odd, 1)]
  | _ => []

/-- The transitions of R155: next state, and whether timer 0 is armed. -/
def twohTable (p1 r1 p2 r2 e0 e1 : Bool) : Nat → List (Bool × (Nat × Bool))
  | 0 => [(r1 && r2, (1, false))]
  | 1 => [(e1, (5, false)), (p1 && p2, (3, false)), (p1 != p2, (2, true))]
  | 2 => [(e1, (5, false)), (e0, (4, false)), (p1 && p2, (3, false)), (r1 && r2, (1, false))]
  | 3 => [(!p1 || !p2, (4, false))]
  | 4 => [(e1, (5, false)), (r1 && r2, (1, false))]
  | 5 => [(r1 && r2, (1, false))]
  | _ => []

/-- The transitions of R156: next state, cause of an entry into LOCKED, whether both timers are armed. -/
def rstiTable (started perm blocked reset : Bool) (prev : Nat) (e0 e1 : Bool) : Nat → List (Bool × (Nat × Option Nat × Bool))
  | 0 => [(started && perm && !blocked && reset && prev == 1, (1, none, true))]
  | 1 => [(!perm, (0, some 3, false)), (e1, (0, some 2, false)), (blocked, (0, some 4, false)),
          (!reset && e0, (2, none, false)), (!reset, (0, some 1, false))]
  | 2 => [(!perm, (0, some 3, false))]
  | _ => []

/-- The transitions of R157: next state, timer 0 armed, timer 1 armed. -/
def edmTable (cmd ack fb e0 e1 : Bool) : Nat → List (Bool × (Nat × Bool × Bool))
  | 0 => [(!fb, (4, false, false)), (cmd, (1, true, false))]
  | 1 => [(!cmd, (3, false, true)), (!fb, (2, false, false)), (e0, (4, false, false))]
  | 2 => [(!cmd, (3, false, true)), (fb, (4, false, false))]
  | 3 => [(fb, (0, false, false)), (e1, (4, false, false))]
  | 4 => [(ack && !cmd && fb, (0, false, false))]
  | _ => []

/-- The transitions of R158: next state, timer 0 armed, timer 1 armed. -/
def muteTable (dev a b en e0 e1 : Bool) : Nat → List (Bool × (Nat × Bool × Bool))
  | 0 => [(en && a && b, (2, false, true)), (a != b, (1, true, false))]
  | 1 => [(e0, (3, false, false)), (en && a && b, (2, false, true)), (!a && !b, (0, false, false))]
  | 2 => [(e1, (3, false, false)), (!en || !a || !b, (0, false, false))]
  | 3 => [(!a && !b && dev, (0, false, false))]
  | _ => []

/-- The transitions of R159: next state and the action on timer 0. -/
def tonTable (input e0 : Bool) : Nat → List (Bool × (Nat × Option Bool))
  | 0 => [(input, (1, some true))]
  | 1 => [(!input, (0, none)), (e0, (2, none))]
  | 2 => [(!input, (0, some false))]
  | _ => []

def tofTable (input e0 : Bool) : Nat → List (Bool × (Nat × Option Bool))
  | 0 => [(input, (2, none))]
  | 1 => [(input, (2, some false)), (e0, (0, none))]
  | 2 => [(!input, (1, some true))]
  | _ => []

/-- The transitions of R160. -/
def limitTable (a b low high tol hyst : Int) (ack e0 : Bool) : Nat → List (Bool × (Nat × Option Bool))
  | 0 => [(decide (|a - b| > tol), (2, some true)),
          (decide (low + hyst ≤ a ∧ a ≤ high - hyst ∧ low + hyst ≤ b ∧ b ≤ high - hyst), (1, none))]
  | 1 => [(decide (|a - b| > tol), (2, some true)),
          (decide (¬ (low ≤ a ∧ a ≤ high) ∨ ¬ (low ≤ b ∧ b ≤ high)), (0, none))]
  | 2 => [(e0, (3, none)), (decide (|a - b| ≤ tol), (0, some false))]
  | 3 => [(ack && decide (|a - b| ≤ tol), (0, none))]
  | _ => []

/-- EXPi of a slot (R146). -/
def expired (x : LogicDie) (n i : Nat) : Bool := (x.slot n 0x30).getLsbD i

/-- A valid safe code. -/
def Valid (k : Nat) : Prop := k = 1 ∨ k = 2

/-- The code of SI(n) in the combined input image (R87). -/
def inputCode (x : LogicDie) (n : Nat) : Nat := x.inCode n

/-- The trap registers after a fold-task trap (R80, R108): class, attempt and fold number, the address, the data address. -/
def trapped (x : LogicDie) (t : Trap) : LogicDie :=
  { x with core := { x.core with
      trapCause := BitVec.ofNat 64 (t.cls.code + 256 * x.core.attempt + 512 * (x.recFold % 2 ^ 55))
      trapPc := BitVec.ofNat 64 x.core.pc
      trapAddr := BitVec.ofNat 64 t.addr
      running := false
      ending := none } }

/-- The held effects of the attempt are discarded (R127). -/
def discarded (k : FoldCore) : FoldCore :=
  { k with stores := [], doms := [], cks := [], tels := [], logs := [], ckLost := [], slotFaults := [] }

/-! ### Words for the other commands -/

/-- The command completes and changes logic die `d` alone, which reaches the instant `t` first, as `g` says. -/
def DieDoes (i : Instr) (s : State) (d : Ch) (t : Nat) (g : LogicDie → LogicDie) : Prop :=
  exec i s = .next (s.setDie d (g ((s.die d).at t)))

/-- The command completes and changes the host die alone, which reaches the instant `t` first, as `g` says. -/
def HostDoes (i : Instr) (s : State) (t : Nat) (g : HostDie → HostDie) : Prop :=
  exec i s = .next { s with host := g (s.host.at t) }

/-- FRST goes high at `t` on a die where it was low (R395). -/
def pressed (x : LogicDie) (t : Nat) : LogicDie :=
  if x.pw.frstAt.isSome then x else { x with pw := { x.pw with frstAt := some t, frstOn := false } }

/-- Sets a bit of a register that holds a finding. -/
def flag (x : LogicDie) (r : Reg) (k bit : Nat) : LogicDie := x.wr r k (Word.setBits (x.rd r k) bit bit 1)

/-- A test-pulse finding (R183): its bit in TP_STATj and source 172 + j. -/
def pulseFinding (x : LogicDie) (d : Ch) (j bit : Nat) : LogicDie := (flag x .TP_STAT j bit).raise d (172 + j) bit

/-- What a regular sample shows (R175, R198): the raw bit, the coupler's bit and the counter. -/
def sampleShows (x : LogicDie) (i : Nat) (high : Bool) (c : Nat) : LogicDie :=
  let x := x.p F.SI_STAT_RAW (if high then 1 else 0) i
  (x.wr .SI_CPL i (Word.setBits (x.rd .SI_CPL i) 0 0 (if high then 1 else 0))).p F.SI_STAT_COUNT c i

/-- The window of input i that started at `start` on the die's grid is the next of its group, and its sample is held at `t` (R171, R172,
R176). -/
def WindowDue (x : LogicDie) (d : Ch) (i start t : Nat) : Prop :=
  start % (x.g F.SI_GRP_SPER (i / 4) * 100) = (if d = .la then 0 else x.g F.SI_GRP_SPER (i / 4) * 100 / 2) ∧
    start + x.g F.SI_GRP_WIN (i / 4) * 25 ≤ t ∧ t ≤ start + x.g F.SI_GRP_WIN (i / 4) * 25 + 350 ∧ x.nextWindow i start = true

/-! ### Words for the register bus -/

/-- What each field of a register holds after a write that follows the field types alone (R9, R10); a W1C bit that hardware sets in the same
cycle (`hw`) stays set (R13). -/
def FieldRule (r : Reg) (locked : Bool) (old v hw new : Word) : Prop :=
  ∀ f ∈ r.layout.fields, Word.bits new f.hi f.lo =
    match f.acc with
    | .rw => Word.bits v f.hi f.lo
    | .rwl => if locked then Word.bits old f.hi f.lo else Word.bits v f.hi f.lo
    | .w1c => Nat.land (Word.bits old f.hi f.lo) (2 ^ (f.hi + 1 - f.lo) - 1 - Nat.land (Word.bits v f.hi f.lo) (2 ^ (f.hi + 1 - f.lo) - 1 - Word.bits hw f.hi f.lo))
    | .w1s => Nat.lor (Word.bits old f.hi f.lo) (Word.bits v f.hi f.lo)
    | .ro | .wo | .rc | .rwf => Word.bits old f.hi f.lo

/-- Registers of a logic die whose block states more of a write than the field types. -/
def ownDieRule : List Reg :=
  [.FOLD_CTRL, .PWR_PL, .SI_CTRL, .PE_CTRL, .MX_CTRL, .MX_CFG, .ADC_CTRL, .ADC_SWTRIG, .ADC_URG, .ADC_CALCMD, .FC_FORCE, .FC_FORCEW,
   .GT_CTRL, .GT_CMP0, .GT_CMP1, .GT_CNT, .CK_POLY, .CK_INIT, .CK_XOR, .CK_EXP, .CK_OWN, .CK_DMA, .BIST_REP]

/-- Registers of the host die whose block states more of a write than the field types. -/
def ownHostRule : List Reg :=
  [.FOLD_SNAP_RELEASE, .HSTL_REQ_CMD, .HSTL_MIR_CFG, .HSTL_DL_CMD, .BB_PORT, .BB_QBV, .SEC_KSTAGE, .SEC_OTPCMD, .PWR_HPL, .PWR_HWAKE,
   .PWR_HDOM, .HDBG_CTRL, .HFC_FORCE, .HFC_FORCEW, .HFC_RECCNT]

/-- The bits of a register that no field names. -/
def unnamed (r : Reg) (b : Nat) : Prop := b < 64 ∧ ∀ f ∈ r.layout.fields, ¬ (f.lo ≤ b ∧ b ≤ f.hi)

/-- The field of DETAIL of an access error (R311): the address and the writer. -/
def errDetail (p : Party) (a : Nat) : Nat := a % 2 ^ 32 + partyCode p * 2 ^ 32

/-- The device once the message that an end of link `l` expects is on the link: the other end starts it first where it has not yet (R317,
R321). -/
def onItsWay (s : State) (l : Ch) (atHost : Bool) : State :=
  if (s.linkEnd l (!atHost)).unacked.any (fun q => q.seq == (s.linkEnd l atHost).expect) then s else s.begun l (!atHost)

/-- The host die hears the next message of link `l`: it accepts it (R317), and the host die alone changes, as `g` says, but for a message
that starts only now. -/
def HostHears (i : Instr) (s : State) (l : Ch) (t : Nat) (g : HostDie → HostDie) : Prop :=
  exec i s = .next { onItsWay (s.modHost (·.at t)) l true with host := g ((s.host.at t).setLink l
    { (s.host.at t).link l with expect := (((s.host.at t).link l).expect + 1) % 2 ^ 32 }) }

/-- The device as a logic die hears the next message of its link at `t`. -/
def heardAt (s : State) (d : Ch) (t : Nat) : State := onItsWay (s.modDie d (·.at t)) d false

/-- A logic die hears the next message of its link: it accepts it, and it alone changes, as `g` says, but for a message that starts only
now. -/
def DieHears (i : Instr) (s : State) (d : Ch) (t : Nat) (g : LogicDie → LogicDie) : Prop :=
  exec i s = .next ((heardAt s d t).setDie d (g { (s.die d).at t with
    stl := { ((s.die d).at t).stl with expect := (((s.die d).at t).stl.expect + 1) % 2 ^ 32 } }))

/-! ### Words for the pattern engines -/

/-- A running engine that is not paused. -/
def PeRuns (x : LogicDie) (e : Nat) : Prop := (x.pe e).mode = .running ∧ (x.g F.PE_CTRL_PAUSE).testBit e = false

/-- The next address of an engine. -/
def peNext (x : LogicDie) (e : Nat) : LogicDie := x.p F.PE_STAT_PC ((x.g F.PE_STAT_PC e + 1) % 64) e

/-- A working vector with the elements that the mask selects replaced (R249). -/
def sel (q : PeSt) (f : Nat → Nat) : List Nat := q.work.mapIdx (fun i v => if q.mask.testBit i then f v else v)


/-! ### Words for self-test and debug -/

/-- The segments that a logic die tests (R447). -/
def testedSegments : Ch → List Nat
  | .la => [4, 6, 7, 9, 12]
  | .lb => [5, 8, 10, 11]

/-- The segments whose repair entries a logic die writes: those with an end on itself or on its own power die (R447, R459). -/
def writtenSegments : Ch → List Nat
  | .la => [4, 6, 7, 8, 9, 11, 12]
  | .lb => [5, 6, 8, 9, 10, 11, 12]

/-- The segments that end at the power die that a logic die controls (R447). -/
def powerDieSegments : Ch → List Nat
  | .la => [4, 7, 8, 11, 12]
  | .lb => [5, 6, 9, 10, 12]

/-- Spare lanes of a segment (R447). -/
def spareLanes (s : Nat) : Nat := [4, 2, 2, 5, 12, 12, 5, 6, 6, 6, 6, 1, 0].getD s 0

/-- The units of each test that a logic die tests (R449). -/
def unitTested (d : Ch) (test unit : Nat) : Prop :=
  (test = 1 ∧ unit ∈ testedSegments d) ∨
  (test = 2 ∧ ((0x100 + 6 * d.num ≤ unit ∧ unit < 0x106 + 6 * d.num) ∨ (0x200 ≤ unit ∧ unit < 0x204) ∨
    (d = .la ∧ 0x300 ≤ unit ∧ unit < 0x306))) ∨
  (test = 3 ∧ unit = 0) ∨
  (test = 4 ∧ 2 * d.num ≤ unit ∧ unit < 2 * d.num + 2) ∨
  (test = 0x10 ∧ (unit ∈ testedSegments d ∨ (0x80 + 2 * d.num ≤ unit ∧ unit < 0x82 + 2 * d.num)))

/-- The command that takes a self-test message (R449). -/
def testCommand (d : Ch) (test t : Nat) (i : Instr) : Prop :=
  (test = 2 → i = .bistPin d t) ∧ (test = 3 → i = .bistNeighbour d t) ∧ (test = 4 → i = .bistSlice d t) ∧
  (test = 0x10 → i = .bistFuse d t) ∧ (test ∉ [2, 3, 4, 0x10] → i = .bistLane d t)

/-- The domains that hold a unit are ON (R450): the I/O of the die that tests it, and the power-die domain of the unit; the link of the
two power dies ends at the output domains of both, a lamp group lies on the power die that drives its stages. -/
def unitOn (v : State) (d : Ch) (test unit : Nat) : Prop :=
  (v.die d).g F.PWR_DOM_STATE 3 = 2 ∧
  (test = 1 → unit = 12 → v.la.g F.PWR_DOM_STATE 6 = 2 ∧ v.lb.g F.PWR_DOM_STATE 6 = 2) ∧
  (test = 2 → (unit / 256 = 1 → (v.die d).g F.PWR_DOM_STATE 9 = 2) ∧ (unit / 256 = 2 → (v.die d).g F.PWR_DOM_STATE 6 = 2) ∧
    (unit / 256 = 3 → (if unit % 256 < 3 then v.la else v.lb).g F.PWR_DOM_STATE 7 = 2)) ∧
  (test = 3 → (v.die d).g F.PWR_DOM_STATE 9 = 2) ∧ (test = 4 → (v.die d).g F.PWR_DOM_STATE 8 = 2)

/-- The test is marked quiet (R449). -/
def quietTest (test unit : Nat) : Bool := test != 4 && !(test == 2 && unit / 256 == 3)

/-- The device is quiet (R450): no command set, no zone-state bit of the last committed fold safe-1. -/
def deviceQuiet (x : LogicDie) : Prop :=
  x.g F.SO_CMD_CMD = 0 ∧ ∀ z, z < 16 → safeCode (BitVec.ofNat 64 (readLE x.memC 0x20001010 8)) z ≠ 2

/-- The conditions of a fuse burn on a die (R461). -/
def fuseReady (x : LogicDie) : Prop :=
  (x.g F.DBG_STAT_SCOPE).testBit 4 = true ∧ deviceQuiet x ∧ x.g F.PWR_STAT_VF24LOW ≠ 1 ∧ x.g F.PWR_STAT_PDSEQ ≠ 1

/-- The conditions of a fuse burn on every die that holds an end of the unit (R461). -/
def fuseReadyAll (v : State) (d : Ch) (unit : Nat) : Prop :=
  fuseReady (v.die d) ∧ (unit < 0x80 → unit ∈ writtenSegments (other d) → fuseReady (v.die (other d)))

/-- A debug request that a die answers with a status alone (R413): status code in data byte 0. -/
def refused (session op code : Nat) (x : LogicDie) : LogicDie := x.send (.debugRsp session op [code])

/-- The request names the session that the die knows, and its scope names the die (R407, R412). -/
def inSession (d : Ch) (x : LogicDie) (session : Nat) : Prop :=
  session ≠ 0 ∧ x.g F.DBG_STAT_SESSION = session ∧ (x.g F.DBG_STAT_SCOPE).testBit (1 + d.num) = true

/-- The fold-task cores of a die. -/
def foldCores (x : LogicDie) : Nat := if x.hdr.triad then 7 else 3

/-! ### Words for the security block -/

/-- A fuse command with its OP, SLOT, LCT, ARBT, writer and instant (R403, R419). -/
def fuseForm : Instr → Option (Nat × Nat × Nat × Nat × Party × Nat)
  | .programKeySlot slot p t => some (1, slot.val, 0, 0, p, t)
  | .revokeKeySlot slot p t => some (2, slot.val, 0, 0, p, t)
  | .programIk p t => some (3, 0, 0, 0, p, t)
  | .advanceLifecycle lct p t => some (4, 0, lct.val, 0, p, t)
  | .raiseArb arbt p t => some (5, 0, 0, arbt.val, p, t)
  | _ => none

/-- A session with scope LIFE is open. -/
def lifeOpen (h : HostDie) : Prop := h.g F.HDBG_STAT_STATE ≠ 0 ∧ (h.g F.HDBG_STAT_SCOPE).testBit 5 = true

/-- A key slot that holds a key and counts as not revoked (R402). -/
def slotLive (q : SecSt) (n : Nat) : Prop := q.key n ≠ 0 ∧ Sparse.get (fun _ => 0) q.krevF n < 5

/-- The table *Fuse commands* (R401, R403), with the conditions on power. -/
def fuseCondition (h : HostDie) (op slot lct arbt : Nat) : Prop :=
  let lc := h.g F.SEC_LC_LC
  h.g F.PWR_HDOM_STATE 5 = 2 ∧ 1 ≤ h.g F.PWR_HPL_CUR ∧
    ((op = 1 ∧ h.sec.key slot = 0 ∧ (lc = 0 ∨ ((lc = 1 ∨ lc = 2) ∧ lifeOpen h))) ∨
     (op = 2 ∧ lifeOpen h ∧ ∃ n, n < 4 ∧ n ≠ slot ∧ slotLive h.sec n) ∨
     (op = 3 ∧ h.sec.ikFlag = false ∧ (lc = 0 ∨ (lc = 1 ∧ lifeOpen h))) ∨
     (op = 4 ∧ ((lc = 0 ∧ lct = 1 ∧ ∃ n, n < 4 ∧ h.sec.key n ≠ 0) ∨ (lc = 0 ∧ lct = 3) ∨
       (lifeOpen h ∧ ((lc = 1 ∧ (lct = 2 ∨ lct = 3)) ∨ (lc = 2 ∧ lct = 3))))) ∨
     (op = 5 ∧ h.sec.arbF ≤ arbt ∧ arbt ≤ h.sec.secver ∧ (lc = 1 ∨ lc = 2)))

/-- A party of the host side that may write the host debug block (R420). -/
def hostSide (p : Party) : Prop := p = .hostFirmware ∨ p = .hostBar

/-- No debug session is open at the host die any more (R304, R410): LOCKED, no scope, no session number, every force bit of its
collector clear, and JTAG debug closed. -/
def sessionGone (u : State) : Prop :=
  u.host.g F.HDBG_STAT_STATE = 0 ∧ u.host.g F.HDBG_STAT_SCOPE = 0 ∧ u.host.g F.HDBG_STAT_SESSION = 0 ∧
  u.host.sec.jtag ≠ .extest ∧ u.host.sec.jtag ≠ .dap ∧ u.host.sec.jtagPins = none ∧
  (∀ k, k < 4 → u.host.g F.HFC_FORCE_BITS k = 0 ∧ u.host.g F.HFC_FORCEW_BITS k = 0)

/-- A message waits on, or is on its way over, a link of the host die. -/
def onLink (h : HostDie) (l : Ch) (m : StileMsg) : Prop := m ∈ (h.link l).queue ∨ m ∈ (h.link l).unacked.map (·.msg)

/-- A logic die within a scope (R412). -/
def dieInScope (scope : Nat) (l : Ch) : Prop :=
  scope.testBit 3 = true ∨ scope.testBit 4 = true ∨ scope.testBit (1 + l.num) = true

/-- A debug request with its die, operation and instant (R413). -/
def debugForm : Instr → Option (Ch × Nat × Nat)
  | .debugRead d t => some (d, 0x10, t)
  | .debugWrite d t => some (d, 0x11, t)
  | .debugHalt d t => some (d, 0x20, t)
  | .resume d t => some (d, 0x21, t)
  | .debugStep d t => some (d, 0x22, t)
  | .regrd d t => some (d, 0x30, t)
  | .regwr d t => some (d, 0x31, t)
  | .bkpt d t => some (d, 0x40, t)
  | .bkclr d t => some (d, 0x41, t)
  | _ => none

/-- The cores of a mask have power (R413, R417): the core domain is ON, and for C2 in triad mode its own. -/
def coresPowered (x : LogicDie) (mask : Nat) : Prop :=
  x.g F.PWR_DOM_STATE 0 = 2 ∧ (x.hdr.triad = true → mask.testBit 2 = true → x.g F.PWR_DOM_STATE 1 = 2)

/-- The mask names a core that runs the fold task. -/
def namesFoldCore (x : LogicDie) (mask : Nat) : Prop := Nat.land mask (foldCores x) ≠ 0

/-- Debug hold (R414): the attempt is rolled back and will not commit, the fold-task cores stand, every command and own switch is
open and the crook output low; the channel has not gone safe for it. -/
def enteredHold (x y : LogicDie) : Prop :=
  y.g F.DBG_STAT_HOLD = 1 ∧ Nat.land (y.g F.DBG_STAT_HALTED) (foldCores x) = foldCores x ∧ y.core.running = false ∧
  y.mem = unwind x.mem x.core.journal ∧ y.core.stores = [] ∧ y.opened = true ∧ y.g F.SO_CROOK_OUT_CMD = 0 ∧
  y.g F.FC_CTRL_SAFE = x.g F.FC_CTRL_SAFE ∧ y.g F.FOLD_NUMBER_NUMBER = x.g F.FOLD_NUMBER_NUMBER ∧ y.memC = x.memC

/-- The session's request arrives at a die in session: the data of operation `op`. -/
def asked (s : State) (d : Ch) (t op n : Nat) (data : List Nat) : Prop :=
  (s.modDie d (·.at t)).incoming d false = some (.debugReq n op data) ∧ inSession d ((s.die d).at t) n

end Sys2Proof.Claims

open Sys2Proof Sys2Proof.Machine Sys2Proof.Claims

/-- R120, R73: each register form writes to wd the value of the table, in the table's cycles, in both roles; nothing else of
the device changes. -/
def Sys2Proof.Claims.IntegerRegisterForms : Prop :=
  ∀ i c wd la lb f s, intForm i = some (c, wd, la, lb, f) → FoldReady c s ∨ CompReady c s →
    WritesReg c s i wd (f ((here c s).w c.companion)) (if c.die = .la then la else lb)

/-- R117, R120: a multiplication takes one cycle, and its result is usable 3 cycles on LA and 4 on LB after it issues. -/
def Sys2Proof.Claims.IntegerMultiplication : Prop :=
  ∀ i c wd f s, mulForm i = some (c, wd, f) → FoldReady c s ∨ CompReady c s →
    WritesThen c s i wd (f ((here c s).w c.companion)) 1
      (fun x => if c.companion then x else x.usableIn wd (if c.die = .la then 3 else 4))

/-- R121: division never traps on its data; a zero divisor and the overflow case have the results that the rule gives. -/
def Sys2Proof.Claims.IntegerDivision : Prop :=
  ∀ i c wd f s, divForm i = some (c, wd, f) → FoldReady c s ∨ CompReady c s →
    WritesReg c s i wd (f ((here c s).w c.companion)) (if c.die = .la then 34 else 38)

/-- R122: each immediate form writes to wd the value of the table in one cycle; nothing else changes. EXTU with a field that
leaves the word is an unassigned encoding. -/
def Sys2Proof.Claims.IntegerImmediateForms : Prop :=
  (∀ i c wd f s, immForm i = some (c, wd, f) → FoldReady c s ∨ CompReady c s →
    WritesReg c s i wd (f ((here c s).w c.companion)) 1) ∧
  (∀ c wd wa (lsb w1 : Fin 64) s, FoldReady c s ∨ CompReady c s → 64 < lsb.val + w1.val + 1 →
    Refused c s (.iExtu c wd wa lsb w1) .illegal)

/-- R14, R120 to R122, R472: a host core that runs executes the integer instructions with the values of the same tables; its other
registers, and everything of the device but that core and the counts of corrected register errors, keep their values. -/
def Sys2Proof.Claims.HostCoreIntegers : Prop :=
  ∀ i c (n : Fin 4) wd f s,
    ((∃ la lb, intForm i = some (c, wd, la, lb, f)) ∨ mulForm i = some (c, wd, f) ∨ divForm i = some (c, wd, f) ∨
      immForm i = some (c, wd, f)) →
    c.host = some n → c.companion = true → c.fetch.kind = .clean → (s.host.at c.now).coreRuns n.val = true →
    ((s.host.at c.now).coreWoken n.val).pc < 0x2000000 →
    ∃ (t : State) (k : CompCore), exec i s = .next t ∧
      (∀ r, ((s.host.at c.now).coreDie k).w true r = if r = wd ∧ r ≠ 0
        then f (((s.host.at c.now).coreDie ((s.host.at c.now).coreWoken n.val)).w true)
        else ((s.host.at c.now).coreDie ((s.host.at c.now).coreWoken n.val)).w true r) ∧
      k = { (s.host.at c.now).coreWoken n.val with w := k.w, pc := (((s.host.at c.now).coreWoken n.val).pc + 4) % 2 ^ 64 } ∧
      t = { s with host := ((s.host.at c.now).count F.HFC_ECCCNT_CORR c.regs).setCore n.val k }

/-- R121: no integer instruction traps on its data, in either role; the trap registers keep their values. -/
def Obligations.IntegerNeverTraps : Prop :=
  (∀ i c s, intCtx i = some c → FoldReady c s ∨ CompReady c s →
    ∃ t, exec i s = .next t ∧ (t.die c.die).core.trapCause = (here c s).core.trapCause ∧
      (t.die c.die).core.running = (here c s).core.running ∧ (t.die c.die).comp.ecause = (here c s).comp.ecause) ∧
  (∀ c wd wa wb s, FoldReady c s ∨ CompReady c s →
    ((here c s).w c.companion wb = 0 →
      WritesReg c s (.iDiv c wd wa wb) wd 0xFFFFFFFFFFFFFFFF (if c.die = .la then 34 else 38) ∧
      WritesReg c s (.iDivu c wd wa wb) wd 0xFFFFFFFFFFFFFFFF (if c.die = .la then 34 else 38) ∧
      WritesReg c s (.iRem c wd wa wb) wd ((here c s).w c.companion wa) (if c.die = .la then 34 else 38) ∧
      WritesReg c s (.iRemu c wd wa wb) wd ((here c s).w c.companion wa) (if c.die = .la then 34 else 38)) ∧
    ((here c s).w c.companion wa = 0x8000000000000000 → (here c s).w c.companion wb = 0xFFFFFFFFFFFFFFFF →
      WritesReg c s (.iDiv c wd wa wb) wd 0x8000000000000000 (if c.die = .la then 34 else 38) ∧
      WritesReg c s (.iRem c wd wa wb) wd 0 (if c.die = .la then 34 else 38)))

/-- R123, R35, R90, R91: a load that meets no trap condition zero-extends the bytes that the role sees at wa + sext(offset). From
a register it takes the bytes of the register that the bus shows, where the register has no read effect. -/
def Sys2Proof.Claims.Loads : Prop :=
  ∀ i c wd wa off width s, loadForm i = some (c, wd, wa, off, width) → FoldReady c s ∨ CompReady c s →
    LoadFree c s wa (addrOf c s wa off) width → (c.word 0).kind = .clean →
    (isRegs ((here c s).region (addrOf c s wa off)) = false →
      (∀ j, j < width → (here c s).region (addrOf c s wa off + j) = (here c s).region (addrOf c s wa off)) →
      WritesThen c s i wd
        (BitVec.ofNat 64 (leNum (seen (here c s) c.companion) (addrOf c s wa off) width)) 1
        (loadPipe c (addrOf c s wa off) wd)) ∧
    (isRegs ((here c s).region (addrOf c s wa off)) = true →
      (∀ r k, regAt c.die (addrOf c s wa off - addrOf c s wa off % 8) = some (r, k) →
        r ≠ .FOLD_EXEC ∧ r ≠ .GT_CAP ∧ r ≠ .ADC_POP ∧ r ≠ .LOG_STAT) →
      WritesThen c s i wd
        (((here c s).busPeek c.die (addrOf c s wa off - addrOf c s wa off % 8) >>> (8 * (addrOf c s wa off % 8))) &&&
          BitVec.ofNat 64 (2 ^ (8 * width) - 1)) 1 (loadPipe c (addrOf c s wa off) wd))

/-- R83, R85, R86, R99, R123, R503: a load takes PRIV, else ALIGN, else STACK, else MEMECC; wd keeps its value. -/
def Sys2Proof.Claims.LoadTraps : Prop :=
  ∀ i c wd wa off width s, loadForm i = some (c, wd, wa, off, width) → FoldReady c s ∨ CompReady c s →
    (mayLoad c.companion ((here c s).region (addrOf c s wa off)) = false →
      Traps c s i ⟨.priv, addrOf c s wa off, 0, 0⟩ false) ∧
    (mayLoad c.companion ((here c s).region (addrOf c s wa off)) = true →
      addrOf c s wa off % width ≠ 0 → Traps c s i ⟨.align, addrOf c s wa off, 0, 0⟩ false) ∧
    (mayLoad c.companion ((here c s).region (addrOf c s wa off)) = true → addrOf c s wa off % width = 0 →
      (here c s).offStack c.companion wa (addrOf c s wa off) width = true →
      Traps c s i ⟨.stack, addrOf c s wa off, 0, 0⟩ false) ∧
    (∀ m, LoadFree c s wa (addrOf c s wa off) width → ((here c s).region (addrOf c s wa off)).memory = some m →
      (c.word 0).kind = .lasting → Traps c s i ⟨.memecc, addrOf c s wa off,
        if (c.word 0).cached = true ∧ ((here c s).region (addrOf c s wa off)).cached = true ∧
          (c.companion = true ∨ cacheHit c.die (here c s).pipe.dcache (addrOf c s wa off) = true) then 3 else m,
        addrOf c s wa off⟩ false)

/-- R42, R43, R78, R123: a fold-task store that meets no trap condition writes the low bytes of ws at wa + sext(offset), little-
endian, and journals the old word while the journal has room; beyond JLIMIT entries JOVF is set instead. No other byte of
memory changes. -/
def Sys2Proof.Claims.FoldStores : Prop :=
  ∀ i c ws wa off width s, storeForm i = some (c, ws, wa, off, width) → FoldReady c s →
    StoreFree c s wa (addrOf c s wa off) width →
    isRegs ((here c s).region (addrOf c s wa off)) = false →
    ((here c s).region (addrOf c s wa off) = .outImage → safeValid ((here c s).w false ws) = true) →
    ∃ t, exec i s = .next t ∧
      (∀ j, j < width → ((t.die c.die).mem8 (addrOf c s wa off + j)).toNat = ((here c s).w false ws).toNat / 256 ^ j % 256) ∧
      (∀ b, b < addrOf c s wa off ∨ addrOf c s wa off + width ≤ b → (t.die c.die).mem8 b = (here c s).mem8 b) ∧
      ((here c s).core.jovf = false → (here c s).core.journal.length < (here c s).g F.FOLD_BUDGET_JLIMIT →
        t = s.setDie c.die { moved c (buffered c s i 2) 1 with
          mem := (t.die c.die).mem
          core := { (moved c (buffered c s i 2) 1).core with
            journal := ⟨addrOf c s wa off - addrOf c s wa off % 8,
              (here c s).ld64 (addrOf c s wa off - addrOf c s wa off % 8)⟩ :: (here c s).core.journal } }) ∧
      ((here c s).core.jovf = false → (here c s).g F.FOLD_BUDGET_JLIMIT ≤ (here c s).core.journal.length →
        t = s.setDie c.die { (moved c (buffered c s i 1) 1).p F.FOLD_STATUS_JOVF 1 with
          mem := (t.die c.die).mem
          core := { (moved c (buffered c s i 1) 1).core with jovf := true } }) ∧
      ((here c s).core.jovf = true →
        t = s.setDie c.die { moved c (buffered c s i 1) 1 with mem := (t.die c.die).mem })

/-- R94, R123, R127: a fold-task store to a register is held, 32 per attempt; nothing else changes. The companion core writes its
own memory at once, and no other byte changes; its register stores are posted to the bus (R118). -/
def Sys2Proof.Claims.HeldAndCompanionStores : Prop :=
  ∀ i c ws wa off width s, storeForm i = some (c, ws, wa, off, width) → StoreFree c s wa (addrOf c s wa off) width →
    (FoldReady c s → isRegs ((here c s).region (addrOf c s wa off)) = true → (here c s).core.stores.length < 32 →
      exec i s = .next (s.setDie c.die { moved c (buffered c s i 1) 1 with core := { (moved c (buffered c s i 1) 1).core with
        stores := (here c s).core.stores ++ [.store (addrOf c s wa off) width ((here c s).w false ws)] } })) ∧
    (CompReady c s → isRegs ((here c s).region (addrOf c s wa off)) = false →
      (here c s).region (addrOf c s wa off) ≠ .sharedComp →
      ∃ t, exec i s = .next t ∧
        (∀ j, j < width → ((t.die c.die).mem8 (addrOf c s wa off + j)).toNat = ((here c s).w true ws).toNat / 256 ^ j % 256) ∧
        (∀ b, b < addrOf c s wa off ∨ addrOf c s wa off + width ≤ b → (t.die c.die).mem8 b = (here c s).mem8 b) ∧
        t = s.setDie c.die { moved c (atIssue c s i) 1 with mem := (t.die c.die).mem }) ∧
    (CompReady c s → (here c s).region (addrOf c s wa off) = .sharedComp →
      ∃ t, exec i s = .next t ∧
        (∀ j, j < width → ((t.die c.die).mem8 (addrOf c s wa off + j)).toNat = ((here c s).w true ws).toNat / 256 ^ j % 256) ∧
        (∀ b, b < addrOf c s wa off ∨ addrOf c s wa off + width ≤ b → (t.die c.die).mem8 b = (here c s).mem8 b) ∧
        t = s.setDie c.die { moved c (atIssue c s i) 1 with
          mem := (t.die c.die).mem
          comp := { (moved c (atIssue c s i) 1).comp with
            sharedAt := (here c s).now, sharedOld := (t.die c.die).comp.sharedOld } } ∧
        ∃ old, (t.die c.die).comp.sharedOld =
          ⟨addrOf c s wa off - addrOf c s wa off % 8, (here c s).ld64 (addrOf c s wa off - addrOf c s wa off % 8)⟩ :: old) ∧
    (CompReady c s → isRegs ((here c s).region (addrOf c s wa off)) = true →
      exec i s = .next (s.setDie c.die (posted c (atIssue c s i) (addrOf c s wa off) width ((here c s).w true ws))))

/-- R78, R83, R85, R99, R123, R503: a store takes PRIV, else ALIGN, else STACK, else SCODE for a safe word of the output image
with an invalid code; memory and the journal keep their content but for what the trap itself does. -/
def Sys2Proof.Claims.StoreTraps : Prop :=
  ∀ i c ws wa off width s, storeForm i = some (c, ws, wa, off, width) → FoldReady c s ∨ CompReady c s →
    ((if c.companion then (here c s).compMayStore ((here c s).region (addrOf c s wa off)) (addrOf c s wa off)
      else foldMayStore ((here c s).region (addrOf c s wa off)) (addrOf c s wa off)) = false →
      Traps c s i ⟨.priv, addrOf c s wa off, 0, 0⟩ true) ∧
    ((if c.companion then (here c s).compMayStore ((here c s).region (addrOf c s wa off)) (addrOf c s wa off)
      else foldMayStore ((here c s).region (addrOf c s wa off)) (addrOf c s wa off)) = true →
      misaligned true (addrOf c s wa off) width = true → Traps c s i ⟨.align, addrOf c s wa off, 0, 0⟩ true) ∧
    ((if c.companion then (here c s).compMayStore ((here c s).region (addrOf c s wa off)) (addrOf c s wa off)
      else foldMayStore ((here c s).region (addrOf c s wa off)) (addrOf c s wa off)) = true →
      misaligned true (addrOf c s wa off) width = false →
      (here c s).offStack c.companion wa (addrOf c s wa off) width = true →
      Traps c s i ⟨.stack, addrOf c s wa off, 0, 0⟩ true) ∧
    (c.companion = false → StoreFree c s wa (addrOf c s wa off) width → (here c s).region (addrOf c s wa off) = .outImage →
      safeValid ((here c s).w false ws) = false → Traps c s i ⟨.scode, addrOf c s wa off, 0, 0⟩ true)

/-- R96, R114, R124: BEQ goes to pc + 4 × sext(offset) where the registers are equal, else on to the next instruction; in the fold
task an offset of zero or below traps LOOPLIM either way. -/
def Sys2Proof.Claims.BranchIfEqual : Prop :=
  ∀ c wa wb off s, FoldReady c s ∨ CompReady c s →
    (c.companion = true ∨ 0 < signed16 off →
      (here c s).w c.companion wa = (here c s).w c.companion wb →
      exec (.iBeq c wa wb off) s =
        .next (s.setDie c.die (jumped c (atIssue c s (.iBeq c wa wb off)) (onDie c 3 5) (relTarget (pcOf c s) (signed16 off))))) ∧
    (c.companion = true ∨ 0 < signed16 off →
      (here c s).w c.companion wa ≠ (here c s).w c.companion wb →
      exec (.iBeq c wa wb off) s = .next (s.setDie c.die (moved c (atIssue c s (.iBeq c wa wb off)) 1))) ∧
    (c.companion = false → signed16 off ≤ 0 → Traps c s (.iBeq c wa wb off) (Trap.plain .looplim) false)

/-- R97, R125: LOOPN pushes a level of the body's first and last instruction, its count and the call depth; count 0 skips the body;
a count above 4,096 or a fifth level traps LOOPLIM; it is a fold-task instruction, and body length 0 is unassigned. -/
def Sys2Proof.Claims.LoopStart : Prop :=
  ∀ c len count s,
    (FoldReady c s → len.val ≠ 0 → 0 < count.val → count.val ≤ 4096 → (here c s).core.loops.length < 4 →
      exec (.iLoopn c len count) s = .next (s.setDie c.die
        (LogicDie.retire { atIssue c s (.iLoopn c len count) with core := { (atIssue c s (.iLoopn c len count)).core with loops :=
            ⟨(here c s).core.pc + 4, (here c s).core.pc + 4 * len.val, count.val, (here c s).core.callDepth⟩ ::
              (here c s).core.loops } }
          c.die (here c s).core.pc ((here c s).core.pc + 4) (onDie c 2 3)))) ∧
    (FoldReady c s → len.val ≠ 0 → count.val = 0 → (here c s).core.loops.length < 4 →
      exec (.iLoopn c len count) s = .next (s.setDie c.die
        (jumped c (atIssue c s (.iLoopn c len count)) (onDie c 3 5) ((here c s).core.pc + 4 * len.val + 4)))) ∧
    (FoldReady c s → len.val ≠ 0 → (4096 < count.val ∨ 4 ≤ (here c s).core.loops.length) →
      Traps c s (.iLoopn c len count) (Trap.plain .looplim) false) ∧
    (FoldReady c s ∨ CompReady c s → len.val = 0 → Refused c s (.iLoopn c len count) .illegal) ∧
    (CompReady c s → len.val ≠ 0 → Refused c s (.iLoopn c len count) .priv)

/-- R125: after a fold-task instruction at `a` with successor `n`, the innermost level at the present call depth repeats from its
start while passes are left; else every innermost level of that depth whose body the successor leaves ends. -/
def Sys2Proof.Claims.LoopRule : Prop :=
  ∀ (x : LogicDie) d a n k v vs, x.core.loops = v :: vs →
    (v.depth = x.core.callDepth → a = v.last → n = a + 4 → 1 < v.left →
      (x.retire d a n k).core.loops = { v with left := v.left - 1 } :: vs ∧ (x.retire d a n k).core.pc = v.start ∧
      (x.retire d a n k).core.cycles = x.core.cycles + k + (if d = .lb ∧ v.start ≠ n then 1 else 0)) ∧
    (¬ (v.depth = x.core.callDepth ∧ a = v.last ∧ n = a + 4 ∧ 1 < v.left) →
      (x.retire d a n k).core.pc = n ∧ (x.retire d a n k).core.cycles = x.core.cycles + k ∧
      (∀ u ∈ (x.retire d a n k).core.loops, u ∈ v :: vs) ∧
      (v.depth = x.core.callDepth → v.start ≤ n → n ≤ v.last → (x.retire d a n k).core.loops = v :: vs) ∧
      (v.depth ≠ x.core.callDepth → (x.retire d a n k).core.loops = v :: vs) ∧
      (∀ u us, (x.retire d a n k).core.loops = u :: us →
        ¬ (u.depth = x.core.callDepth ∧ (n < u.start ∨ u.last < n))))

/-- R74, R98, R124: CALL writes pc + 4 to w30 and goes to pc + 4 × sext(offset); in the fold task the depth and the hardware return
copies grow, and a ninth level traps STACK. -/
def Sys2Proof.Claims.Call : Prop :=
  ∀ c off s,
    (FoldReady c s → (here c s).core.callDepth < 8 →
      exec (.iCall c off) s = .next (s.setDie c.die
        (LogicDie.retire { linked c (atIssue c s (.iCall c off)) (pcOf c s + 4) with
            core := { (linked c (atIssue c s (.iCall c off)) (pcOf c s + 4)).core with
              callDepth := (here c s).core.callDepth + 1, rets := (pcOf c s + 4) :: (here c s).core.rets } }
          c.die (pcOf c s) (relTarget (pcOf c s) (signed26 off)) (onDie c 3 5)))) ∧
    (FoldReady c s → 8 ≤ (here c s).core.callDepth → Traps c s (.iCall c off) (Trap.plain .stack) false) ∧
    (CompReady c s →
      exec (.iCall c off) s = .next (s.setDie c.die
        (jumped c (linked c (atIssue c s (.iCall c off)) (pcOf c s + 4)) 3 (relTarget (pcOf c s) (signed26 off)))))

/-- R98, R124, R125: RET goes to w30; in the fold task the depth falls by one, the newest return copy goes, and the levels recorded at
the depth it returns from end. Depth 0 or a w30 that differs from the copy traps STACK; a misaligned target traps ALIGN. -/
def Sys2Proof.Claims.Return : Prop :=
  ∀ c s,
    (FoldReady c s → 0 < (here c s).core.callDepth → (here c s).core.rets.head? = some ((here c s).w false 30).toNat →
      ((here c s).w false 30).toNat % 4 = 0 →
      exec (.iRet c) s = .next (s.setDie c.die
        (LogicDie.retire { atIssue c s (.iRet c) with core := { (atIssue c s (.iRet c)).core with
            callDepth := (here c s).core.callDepth - 1
            rets := (here c s).core.rets.tail
            loops := (here c s).core.loops.filter (fun l => l.depth != (here c s).core.callDepth) } }
          c.die (here c s).core.pc ((here c s).w false 30).toNat (onDie c 3 5)))) ∧
    (FoldReady c s → ((here c s).core.callDepth = 0 ∨ (here c s).core.rets.head? ≠ some ((here c s).w false 30).toNat) →
      Traps c s (.iRet c) (Trap.plain .stack) false) ∧
    (FoldReady c s → 0 < (here c s).core.callDepth → (here c s).core.rets.head? = some ((here c s).w false 30).toNat →
      ((here c s).w false 30).toNat % 4 ≠ 0 → Traps c s (.iRet c) (Trap.plain .align) false) ∧
    (CompReady c s → ((here c s).w true 30).toNat % 4 = 0 →
      exec (.iRet c) s = .next (s.setDie c.die (jumped c (atIssue c s (.iRet c)) 3 ((here c s).w true 30).toNat))) ∧
    (CompReady c s → ((here c s).w true 30).toNat % 4 ≠ 0 → Traps c s (.iRet c) (Trap.plain .align) false)

/-- R96, R98, R124, R503: JR and CALLR go to the address in wa, in the fold task only upward (else LOOPLIM), then STACK for a ninth
level of CALLR, then ALIGN for a misaligned target. CALLR also links as CALL does. -/
def Sys2Proof.Claims.RegisterJumps : Prop :=
  ∀ c wa s t, t = ((here c s).w c.companion wa).toNat →
    (FoldReady c s ∨ CompReady c s → (c.companion = true ∨ pcOf c s < t) → t % 4 = 0 →
      exec (.iJr c wa) s = .next (s.setDie c.die (jumped c (atIssue c s (.iJr c wa)) (onDie c 4 6) t))) ∧
    (FoldReady c s → pcOf c s < t → (here c s).core.callDepth < 8 → t % 4 = 0 →
      exec (.iCallr c wa) s = .next (s.setDie c.die
        (LogicDie.retire { linked c (atIssue c s (.iCallr c wa)) (pcOf c s + 4) with
          core := { (linked c (atIssue c s (.iCallr c wa)) (pcOf c s + 4)).core with
            callDepth := (here c s).core.callDepth + 1, rets := (pcOf c s + 4) :: (here c s).core.rets } }
          c.die (pcOf c s) t (onDie c 4 6)))) ∧
    (CompReady c s → t % 4 = 0 →
      exec (.iCallr c wa) s = .next (s.setDie c.die (jumped c (linked c (atIssue c s (.iCallr c wa)) (pcOf c s + 4)) 4 t))) ∧
    (FoldReady c s → t ≤ pcOf c s →
      Traps c s (.iJr c wa) (Trap.plain .looplim) false ∧ Traps c s (.iCallr c wa) (Trap.plain .looplim) false) ∧
    (FoldReady c s → pcOf c s < t → 8 ≤ (here c s).core.callDepth →
      Traps c s (.iCallr c wa) (Trap.plain .stack) false) ∧
    (FoldReady c s ∨ CompReady c s → (c.companion = true ∨ pcOf c s < t) → t % 4 ≠ 0 →
      Traps c s (.iJr c wa) (Trap.plain .align) false ∧
      ((c.companion = true ∨ (here c s).core.callDepth < 8) → Traps c s (.iCallr c wa) (Trap.plain .align) false))

/-- R126: IN reads 32 codes of the combined input image from n = (wa[6:0] + imm) mod 128, safe-0 above SI95. -/
def Sys2Proof.Claims.ImageIn : Prop :=
  ∀ c wd wa imm s, FoldReady c s →
    WritesReg c s (.iIn c wd wa imm) wd
      (codes (fun i => if (((here c s).w false wa).toNat + imm.val) % 128 + i ≤ 95
        then (here c s).inCode ((((here c s).w false wa).toNat + imm.val) % 128 + i) else 1)) (onDie c 2 3)

/-- R78, R118, R119, R126, R129: OUT and OUTC put the codes of wd, where the mask wa[31:0] selects them, into output word 0x000 and 0x008 as
one journaled store, which enters the store buffer and holds the store path for 2 cycles, and trap SCODE where any code of wd is invalid; ASPECT stores the aspect number in word 0x018. -/
def Sys2Proof.Claims.ImageOut : Prop :=
  ∀ c wd wa s, FoldReady c s →
    (safeValid ((here c s).w false wd) = true → Room (here c s) 1 →
      (∃ (y : LogicDie) (v : Word), (∀ i, i < 32 → safeCode v i = if ((here c s).w false wa).toNat.testBit i
            then safeCode ((here c s).w false wd) i else safeCode ((here c s).ld64 0x20001000) i) ∧
        Journals (buffered c s (.iOut c wd wa) 2) y 0x20001000 v ∧
        FoldDoes c s (.iOut c wd wa) (onDie c 2 3) (fun _ => y)) ∧
      (∃ (y : LogicDie) (v : Word), (∀ i, i < 32 → safeCode v i = if ((here c s).w false wa).toNat.testBit i
            then safeCode ((here c s).w false wd) i else safeCode ((here c s).ld64 0x20001008) i) ∧
        Journals (buffered c s (.iOutc c wd wa) 2) y 0x20001008 v ∧
        FoldDoes c s (.iOutc c wd wa) (onDie c 2 3) (fun _ => y))) ∧
    (safeValid ((here c s).w false wd) = false →
      Traps c s (.iOut c wd wa) (Trap.plain .scode) true ∧ Traps c s (.iOutc c wd wa) (Trap.plain .scode) true) ∧
    (∀ aspect : Fin 64, Room (here c s) 1 →
      ∃ y, Journals (buffered c s (.iAspect c aspect) 2) y 0x20001018 (BitVec.ofNat 64 aspect.val) ∧
        FoldDoes c s (.iAspect c aspect) 1 (fun _ => y))

/-- R93, R126: FOLD on the first attempt completes it: the attempt ends, loops, calls and return copies end, FOLD_EXEC.LAST takes
its cycles and MAX the larger; the output image, the slots and the held effects stay as they are; in window compare mode it
waits for the compare of the last signatures (R288, R289), and every loop level has ended (R125). R129: APROOF gives the proof
code of the aspect in safe bit 0. -/
def Sys2Proof.Claims.FoldCompletes : Prop :=
  ∀ c s, FoldReady c s →
    ((here c s).core.attempt = 0 → (here c s).windowMode = false → FoldDoes c s (.iFold c) 1 (fun x =>
      let x := { x with core := { x.core with running := false, ending := none, complete := true, loops := [], rets := [], callDepth := 0 } }
      let n := x.core.cycles + 1
      let y := x.p F.FOLD_EXEC_LAST n
      if y.g F.FOLD_EXEC_MAX < n % 2 ^ 24 then y.p F.FOLD_EXEC_MAX n else y)) ∧
    ((here c s).windowMode = true → FoldDoes c s (.iFold c) 1 (fun x => { x with core := { x.core with ending := some .fold, loops := [] } })) ∧
    (∀ wd (aspect : Fin 64), WritesReg c s (.iAproof c wd aspect) wd
      (codes (fun i => if i = 0 then
        safeCode ((here c s).ld64 (0x20000070 + 8 * (aspect.val / 32))) (aspect.val % 32) else 1)) (onDie c 1 2))

/-- R127, R130: TSEND on a configured connection reads the payload from aligned data memory and holds it, with status 0, or 1 where
it replaces the telegram held for that connection; an unconfigured connection answers 2 and a length above 64 or a set upper bit 3,
and then nothing is held. -/
def Sys2Proof.Claims.TelegramSend : Prop :=
  ∀ c wd wa wb s conn len a, FoldReady c s → conn = ((here c s).w false wb).toNat % 256 →
    len = ((here c s).w false wb).toNat / 256 % 128 → a = ((here c s).w false wa).toNat →
    (len ≤ 64 → ((here c s).w false wb).toNat < 2 ^ 15 → (here c s).txConfigured conn = true →
      wa ≠ 31 → a % 8 = 0 → (∀ j, j < len → (here c s).region (a + j / 8 * 8) = .data) → (∀ k, (c.word k).kind = .clean) →
      ∃ (p : PipeSt) (k : Nat), FoldDoes c s (.iTsend c wd wa wb) (onDie c 4 5 + (len + 7) / 8 + k) (fun x =>
        LogicDie.setW { x with pipe := p, core := { x.core with
            tels := x.core.tels.filter (fun t => t.conn != conn) ++
              [⟨conn, (List.range len).map (fun j => (x.mem8 (a + j)).toNat)⟩] } } false wd
          (if x.core.tels.any (fun t => t.conn == conn) then 1 else 0))) ∧
    (len ≤ 64 → ((here c s).w false wb).toNat < 2 ^ 15 → (here c s).txConfigured conn = false →
      WritesReg c s (.iTsend c wd wa wb) wd 2 (onDie c 4 5)) ∧
    (64 < len ∨ 2 ^ 15 ≤ ((here c s).w false wb).toNat → WritesReg c s (.iTsend c wd wa wb) wd 3 (onDie c 4 5))

/-- R127, R131: TRECV copies the payload that the connection holds to aligned data memory, the last word padded with zeros, as
journaled stores, and wd takes the status; with no payload it writes its status alone. -/
def Sys2Proof.Claims.TelegramReceive : Prop :=
  ∀ c wd wa wb s conn a p k, FoldReady c s → conn = ((here c s).w false wb).toNat % 256 →
    a = ((here c s).w false wa).toNat → p = (here c s).recvPayload conn → k = (p.length + 7) / 8 →
    (p = [] → WritesReg c s (.iTrecv c wd wa wb) wd (BitVec.ofNat 64 ((here c s).recvStatus conn)) (onDie c 4 5)) ∧
    (wa ≠ 31 → a % 8 = 0 → (∀ j, j < k → (here c s).region (a + 8 * j) = .data) → Room (here c s) k → (∀ j, (c.word j).kind = .clean) →
      ∃ (y : LogicDie) (new : List JEntry),
        (∀ j, j < 8 * k → (y.mem8 (a + j)).toNat = p.getD j 0 % 256) ∧
        (∀ b, b < a ∨ a + 8 * k ≤ b → y.mem8 b = (here c s).mem8 b) ∧
        new.length = k ∧
        y = { atIssue c s (.iTrecv c wd wa wb) with
          mem := y.mem, pipe := y.pipe
          core := { (here c s).core with cycles := y.core.cycles, journal := new ++ (here c s).core.journal } } ∧
        (atIssue c s (.iTrecv c wd wa wb)).core.cycles + k ≤ y.core.cycles ∧
        FoldDoes c s (.iTrecv c wd wa wb) (onDie c 4 5)
          (fun _ => y.setW false wd (BitVec.ofNat 64 ((here c s).recvStatus conn))))

/-- R80, R132: MOVS reads the table's registers of its role; an index that the role does not have traps PRIV. -/
def Sys2Proof.Claims.SystemRegisterReads : Prop :=
  ∀ c wd (index : Fin 4096) s,
    (FoldReady c s → ∀ v, (index.val, v) ∈ foldSys c.die (atIssue c s (.iMovs c wd index)) →
      WritesReg c s (.iMovs c wd index) wd v
        (if index.val = 0x008 ∨ index.val = 0x020 then onDie c 8 10 else onDie c 2 3)) ∧
    (CompReady c s → ∀ v, (index.val, v) ∈ compSys c.die (atIssue c s (.iMovs c wd index)) → WritesReg c s (.iMovs c wd index) wd v 0) ∧
    (FoldReady c s → (∀ v, (index.val, v) ∉ foldSys c.die (here c s)) →
      Traps c s (.iMovs c wd index) (Trap.plain .priv) false) ∧
    (CompReady c s → (∀ v, (index.val, v) ∉ compSys c.die (here c s)) →
      Traps c s (.iMovs c wd index) (Trap.plain .priv) false)

/-- R80, R82, R132: the companion core writes its own system registers at once; the fold task's EVACK is held until commit; any other
index traps PRIV. -/
def Sys2Proof.Claims.SystemRegisterWrites : Prop :=
  ∀ c wa (index : Fin 4096) s,
    (CompReady c s → ∀ r f, (index.val, r, f) ∈ compWrites → (here c s).w true wa &&& r = 0 →
      CompDoes c s (.iMovt c wa index) (fun x => { x with comp := f x.comp ((here c s).w true wa) })) ∧
    (FoldReady c s → index.val = 0x021 → ((here c s).w false wa).toNat < 2 ^ 39 → (here c s).core.stores.length < 32 →
      FoldDoes c s (.iMovt c wa index) (onDie c 2 3) (fun x =>
        { x with core := { x.core with stores := x.core.stores ++ [.evack ((here c s).w false wa)] } })) ∧
    (FoldReady c s → index.val ≠ 0x021 → Traps c s (.iMovt c wa index) (Trap.plain .priv) false) ∧
    (CompReady c s → (∀ r f, (index.val, r, f) ∉ compWrites) → Traps c s (.iMovt c wa index) (Trap.plain .priv) false)

/-- R81: a MOVT that sets a reserved bit is discarded, raises the access-error source 9, and does not trap. -/
def Obligations.ReservedBitWrite : Prop :=
  ∀ c wa (index : Fin 4096) s,
    (FoldReady c s → index.val = 0x021 → 2 ^ 39 ≤ ((here c s).w false wa).toNat →
      ∃ detail, FoldDoes c s (.iMovt c wa index) (onDie c 2 3) (fun x => x.raise c.die 9 detail)) ∧
    (CompReady c s → ∀ r f, (index.val, r, f) ∈ compWrites → (here c s).w true wa &&& r ≠ 0 →
      ∃ detail, CompDoes c s (.iMovt c wa index) (fun x => x.raise c.die 9 detail))

/-- R104, R105, R132: an enabled pending line interrupts the companion core at the lowest number: EPC, ECAUSE, IE to PIE and cleared,
and the vector; RETE returns to EPC with IE := PIE, and traps ALIGN where EPC is misaligned (R85); WAITEV halts unless an enabled line is pending. Both trap PRIV in the fold task. -/
def Obligations.CompanionControl : Prop :=
  (∀ d t (s : State) l, ((s.die d).at t).compRuns = true → ((s.die d).at t).coreHalted 2 = false →
    Word.bits ((s.die d).at t).comp.estatus 0 0 = 1 → l < 64 →
    ((s.die d).at t).irqLines.testBit l = true → ((s.die d).at t).comp.irqEnable.toNat.testBit l = true →
    (∀ k, k < l → ((s.die d).at t).irqLines.testBit k = false ∨
      ((s.die d).at t).comp.irqEnable.toNat.testBit k = false) →
    exec (.interrupt (.companion d) t) s = .next (s.setDie d { (s.die d).at t with comp := { ((s.die d).at t).comp with
      epc := BitVec.ofNat 64 ((s.die d).at t).comp.pc
      ecause := BitVec.ofNat 64 l
      estatus := 2
      pc := (((s.die d).at t).comp.irqVbase.toNat + 8 * l) % 2 ^ 64
      waiting := false } })) ∧
  (∀ c s, CompReady c s →
    ((here c s).comp.epc.toNat % 4 = 0 →
      exec (.iRete c) s = .next (s.setDie c.die { atIssue c s (.iRete c) with comp := { (atIssue c s (.iRete c)).comp with
      estatus := Word.setBits (here c s).comp.estatus 0 0 (Word.bits (here c s).comp.estatus 1 1)
      pc := (here c s).comp.epc.toNat } })) ∧
    ((here c s).comp.epc.toNat % 4 ≠ 0 → Traps c s (.iRete c) (Trap.plain .align) false) ∧
    CompDoes c s (.iWaitev c) (fun x => { x with comp := { x.comp with waiting := !x.lineReady } })) ∧
  (∀ c s, FoldReady c s →
    Refused c s (.iRete c) .priv ∧ Refused c s (.iWaitev c) .priv)

/-- R127, R133, R436: in the fold task CKIN and CKEND are held, 64 steps per attempt, and CKEND gives 0; on the companion core they
feed and finish the unit that it owns. CKRD gives the result of the last completed check. -/
def Sys2Proof.Claims.CheckValueInstructions : Prop :=
  ∀ c (u : Fin 4) (b1 : Fin 8) wa wd s,
    (FoldReady c s → (here c s).core.cks.length < 64 →
      FoldDoes c s (.iCkin c u b1 wa) 1 (fun x => { x with core := { x.core with
        cks := x.core.cks ++ [.feed u.val ((List.range (b1.val + 1)).map
          (fun j => ((here c s).w false wa).toNat / 256 ^ j % 256))] } }) ∧
      FoldDoes c s (.iCkend c u wd) 1 (fun x =>
        LogicDie.setW { x with core := { x.core with cks := x.core.cks ++ [.finish u.val] } } false wd 0)) ∧
    (CompReady c s → u.val < 3 → (here c s).g F.CK_OWN_OWNER u.val = 2 → (here c s).g F.CK_STAT_BUSY u.val ≠ 1 →
      CompDoes c s (.iCkin c u b1 wa) (fun x => x.setCk u.val
        { x.ckSt u.val with
          crc := some (x.ckRun u.val ((List.range (b1.val + 1)).map
            (fun j => ((here c s).w true wa).toNat / 256 ^ j % 256))) }) ∧
      CompDoes c s (.iCkend c u wd) (fun x =>
        LogicDie.setW (x.ckComplete c.die u.val (x.ckRun u.val [])) true wd
          ((x.ckComplete c.die u.val (x.ckRun u.val [])).ckRes u.val))) ∧
    (FoldReady c s ∨ CompReady c s →
      WritesReg c s (.iCkrd c u wd) wd ((here c s).ckRes u.val) (onDie c 8 10))

/-- R127, R134: LOG with a code from 0x8000 up holds a record in the fold task, 16 per attempt (one more counts in DROP), and enters
the ring at once on the companion core with the last committed fold number; a lower code is unassigned. -/
def Sys2Proof.Claims.LogInstruction : Prop :=
  ∀ c wa wb (code : Fin 65536) s,
    (FoldReady c s → 0x8000 ≤ code.val → (here c s).core.logs.length < 16 →
      FoldDoes c s (.iLog c wa wb code) (onDie c 2 3) (fun x => { x with core := { x.core with
        logs := x.core.logs ++ [⟨code.val,
          ((here c s).w false wa).toNat + ((here c s).w false wb).toNat % 2 ^ 16 * 2 ^ 64⟩] } })) ∧
    (FoldReady c s → 0x8000 ≤ code.val → 16 ≤ (here c s).core.logs.length →
      FoldDoes c s (.iLog c wa wb code) (onDie c 2 3) (fun x => x.count F.LOG_STAT_DROP)) ∧
    (CompReady c s → 0x8000 ≤ code.val →
      CompDoes c s (.iLog c wa wb code) (fun x =>
        x.log c.die (x.g F.GT_TBASE_TIME) (x.g F.FOLD_NUMBER_NUMBER) code.val 9
          (((here c s).w true wa).toNat + ((here c s).w true wb).toNat % 2 ^ 16 * 2 ^ 64))) ∧
    (FoldReady c s ∨ CompReady c s → code.val < 0x8000 → Refused c s (.iLog c wa wb code) .illegal)

/-- R127, R135, R430: GTRD reads a count; GTSNAP latches the cascade and reads two counts; GTCMP0 and GTCMP1 are held stores of the fold
task and reach the live comparator at once from the companion core, where CWR allows it (else PRIV). -/
def Sys2Proof.Claims.TimerInstructions : Prop :=
  ∀ c (n : Fin 16) wd wa s,
    (FoldReady c s ∨ (CompReady c s ∧ (here c s).g F.GT_CFG_CWR n.val ≠ 0) →
      WritesReg c s (.iGtrd c n wd) wd (BitVec.ofNat 64 ((here c s).g F.GT_CNT_VALUE n.val)) (onDie c 8 10)) ∧
    (FoldReady c s → n.val % 2 = 0 →
      FoldDoes c s (.iGtsnap c n wd) (onDie c 10 12) (fun x => LogicDie.setW
        (((List.range 16).filter (fun k => x.cascLow k == x.cascLow n.val)).foldl
          (fun x k => x.p F.GT_SNAP_COUNT (x.g F.GT_CNT_VALUE k) k) x) false wd
        (BitVec.ofNat 64 (x.g F.GT_CNT_VALUE n.val + x.g F.GT_CNT_VALUE (n.val + 1) * 2 ^ 32)))) ∧
    (FoldReady c s → (here c s).core.stores.length < 32 →
      FoldDoes c s (.iGtcmp0 c n wa) 1 (fun x => { x with core := { x.core with stores := x.core.stores ++
        [.store (0x40070110 + 64 * n.val) 8 (BitVec.ofNat 64 (((here c s).w false wa).toNat % 2 ^ 32))] } }) ∧
      FoldDoes c s (.iGtcmp1 c n wa) 1 (fun x => { x with core := { x.core with stores := x.core.stores ++
        [.store (0x40070118 + 64 * n.val) 8 (BitVec.ofNat 64 (((here c s).w false wa).toNat % 2 ^ 32))] } })) ∧
    (CompReady c s → (here c s).g F.GT_CFG_CWR n.val ≠ 0 →
      (¬ ((here c s).gtRuns n.val = true ∧ (here c s).g F.GT_CNT_VALUE n.val = ((here c s).w true wa).toNat % 2 ^ 32) →
        CompDoes c s (.iGtcmp0 c n wa) (fun x => x.p F.GT_CMP0_VALUE (((here c s).w true wa).toNat % 2 ^ 32) n.val)) ∧
      CompDoes c s (.iGtcmp1 c n wa) (fun x => x.gtWriteCmp .GT_CMP1 n.val (((here c s).w true wa).toNat % 2 ^ 32))) ∧
    (CompReady c s → (here c s).g F.GT_CFG_CWR n.val = 0 →
      Traps c s (.iGtrd c n wd) (Trap.atAddr .priv (0x40070108 + 64 * n.val)) true ∧
      Traps c s (.iGtcmp0 c n wa) (Trap.atAddr .priv (0x40070110 + 64 * n.val)) true ∧
      Traps c s (.iGtcmp1 c n wa) (Trap.atAddr .priv (0x40070118 + 64 * n.val)) true)

/-- R127, R136: DOMAIN holds a request of an assigned domain and state, 8 per attempt, with status 0; status 1 for an unassigned code or
state, 2 for one request too many. -/
def Sys2Proof.Claims.DomainInstruction : Prop :=
  ∀ c wd wa wb s, FoldReady c s →
    (((here c s).w false wa).toNat < 10 → ((here c s).w false wb).toNat < 3 → (here c s).core.doms.length < 8 →
      FoldDoes c s (.iDomain c wd wa wb) (onDie c 2 3) (fun x =>
        LogicDie.setW { x with core := { x.core with doms := x.core.doms ++
          [⟨((here c s).w false wa).toNat, ((here c s).w false wb).toNat⟩] } } false wd 0)) ∧
    ((10 ≤ ((here c s).w false wa).toNat ∨ 3 ≤ ((here c s).w false wb).toNat) →
      WritesReg c s (.iDomain c wd wa wb) wd 1 (onDie c 2 3)) ∧
    (((here c s).w false wa).toNat < 10 → ((here c s).w false wb).toNat < 3 → 8 ≤ (here c s).core.doms.length →
      WritesReg c s (.iDomain c wd wa wb) wd 2 (onDie c 2 3))

/-- R78, R79, R138-R141: a safe-logic instruction whose safe operands hold valid codes writes the table's safe word; an invalid code traps
SCODE; on the companion core it traps PRIV. -/
def Obligations.SafeLogic : Prop :=
  ∀ i c wd la lb ok f s, safeForm i = some (c, wd, la, lb, ok, f) →
    (FoldReady c s → ok ((here c s).w false) →
      WritesReg c s i wd (f ((here c s).w false)) (onDie c la lb)) ∧
    (FoldReady c s → ¬ ok ((here c s).w false) → Traps c s i (Trap.plain .scode) false) ∧
    (CompReady c s → Refused c s i .priv)

/-- R146, R147, R150-R154: EQV and ANTV in both variants follow their state table on the halves of a pair, or of wa with a pair state
that timer 0 derives; codes that R78 refuses trap SCODE. -/
def Sys2Proof.Claims.EquivalentPairs : Prop :=
  ∀ c wd wa (slot : Fin 1024) (ant : Bool) s k e o, FoldReady c s →
    (here c s).slotType slot.val = (if ant then 2 else 1) → k = (here c s).cfgA slot.val 21 16 →
    (wa = 0 → e = inputCode (here c s) (2 * k) → o = inputCode (here c s) (2 * k + 1) →
      (Valid e → Valid o → Room (here c s) 3 →
        SlotDone c s (if ant then .iAntv c wd wa slot 0 else .iEqv c wd wa slot 0) slot.val (onDie c 7 9) 3 wd
          (stateWord (firstOf (slotCode (here c s) slot.val) (eqvTable ((here c s).cfgA slot.val 22 22 == 1) (e == 2)
            (o == if ant then 1 else 2) ((here c s).pairState k) (slotCode (here c s) slot.val)))
            (slotCause (here c s) slot.val) (slotPrev (here c s) slot.val))
          ((here c s).slot slot.val 0x20) ((here c s).slot slot.val 0x28) none
          (firstOf (slotCode (here c s) slot.val) (eqvTable ((here c s).cfgA slot.val 22 22 == 1) (e == 2)
            (o == if ant then 1 else 2) ((here c s).pairState k) (slotCode (here c s) slot.val)) == 2)
          (firstOf (slotCode (here c s) slot.val) (eqvTable ((here c s).cfgA slot.val 22 22 == 1) (e == 2)
            (o == if ant then 1 else 2) ((here c s).pairState k) (slotCode (here c s) slot.val)) == 4)
          ((here c s).pairState k == 1 || (here c s).pairState k == 2)) ∧
      (¬ (Valid e ∧ Valid o) →
        Traps c s (if ant then .iAntv c wd wa slot 0 else .iEqv c wd wa slot 0) (Trap.plain .scode) true)) ∧
    (∀ ps a0 new, e = safeCode ((here c s).w false wa) 0 → o = safeCode ((here c s).w false wa) 1 →
      (if (e == 2) = (o == if ant then 1 else 2) then ps = 0 ∧ a0 = (0 : Word)
       else if ((here c s).slot slot.val 0x20).getLsbD 63 = false then ps = 1 ∧ a0 = armNow (here c s)
       else a0 = (here c s).slot slot.val 0x20 ∧ ps = if expired (here c s) slot.val 0 then 3 else 2) →
      new = firstOf (slotCode (here c s) slot.val) (eqvTable ((here c s).cfgA slot.val 22 22 == 1) (e == 2)
        (o == if ant then 1 else 2) ps (slotCode (here c s) slot.val)) →
      (Valid e → Valid o → Room (here c s) 3 →
        SlotDone c s (if ant then .iAntv c wd wa slot 1 else .iEqv c wd wa slot 1) slot.val (onDie c 7 9) 3 wd
          (stateWord new (slotCause (here c s) slot.val) (slotPrev (here c s) slot.val)) a0
          ((here c s).slot slot.val 0x28) (entered 4 (slotCode (here c s) slot.val) new)
          (new == 2) (new == 4) (ps == 1 || ps == 2)) ∧
      (¬ (Valid e ∧ Valid o) →
        Traps c s (if ant then .iAntv c wd wa slot 1 else .iEqv c wd wa slot 1) (Trap.plain .scode) true))

/-- R155: TWOH follows its state table on the contacts of two buttons; timer 1 runs while a button is between. -/
def Sys2Proof.Claims.TwoHandControl : Prop :=
  ∀ c wd (slot : Fin 1024) s (b1 b2 : Nat × Nat) (p1 r1 p2 r2 : Bool) (q : Nat × Bool), FoldReady c s →
    (here c s).slotType slot.val = 3 → Room (here c s) 3 →
    b1 = (inputCode (here c s) (2 * (here c s).cfgA slot.val 21 16), inputCode (here c s) (2 * (here c s).cfgA slot.val 21 16 + 1)) →
    b2 = (inputCode (here c s) (2 * (here c s).cfgA slot.val 29 24), inputCode (here c s) (2 * (here c s).cfgA slot.val 29 24 + 1)) →
    Valid b1.1 → Valid b1.2 → Valid b2.1 → Valid b2.2 →
    p1 = (b1.1 == 2 && b1.2 == 1) → r1 = (b1.1 == 1 && b1.2 == 2) → p2 = (b2.1 == 2 && b2.2 == 1) →
    r2 = (b2.1 == 1 && b2.2 == 2) →
    q = firstOf (slotCode (here c s) slot.val, false) (twohTable p1 r1 p2 r2 (expired (here c s) slot.val 0)
      (expired (here c s) slot.val 1) (slotCode (here c s) slot.val)) →
    SlotDone c s (.iTwoh c wd 0 slot 0) slot.val (onDie c 9 12) 3 wd
      (stateWord q.1 (slotCause (here c s) slot.val) (slotPrev (here c s) slot.val))
      (if q.2 then armNow (here c s) else (here c s).slot slot.val 0x20)
      (if (p1 || r1) && (p2 || r2) then 0
       else if ((here c s).slot slot.val 0x28).getLsbD 63 then (here c s).slot slot.val 0x28 else armNow (here c s))
      (entered 5 (slotCode (here c s) slot.val) q.1) (q.1 == 3) (q.1 == 5) (!((p1 || r1) && (p2 || r2)))

/-- R156: RSTI follows its state table; an acknowledgement counts only from a press that began with the slot permissive, folds
started and not blocked, PREV set, and that ends between its two times. -/
def Sys2Proof.Claims.RestartInterlock : Prop :=
  ∀ c wd wa (slot : Fin 1024) (v : Fin 64) s perm reset (q : Nat × Option Nat × Bool), FoldReady c s →
    (here c s).slotType slot.val = 4 → v.val ≤ 1 → Room (here c s) 3 →
    perm = safeCode ((here c s).w false wa) 0 →
    reset = (if v = 0 then inputCode (here c s) ((here c s).cfgA slot.val 22 16) else safeCode ((here c s).w false wa) 1) →
    Valid perm → Valid reset →
    q = firstOf (slotCode (here c s) slot.val, none, false) (rstiTable (here c s).imgStarted (perm == 2)
      ((here c s).blocked slot.val) (reset == 2) (slotPrev (here c s) slot.val) (expired (here c s) slot.val 0)
      (expired (here c s) slot.val 1) (slotCode (here c s) slot.val)) →
    SlotDone c s (.iRsti c wd wa slot v) slot.val (onDie c 7 9) 3 wd
      (stateWord q.1 (q.2.1.getD (slotCause (here c s) slot.val)) (if reset = 1 then 1 else 0))
      (if q.2.2 then armNow (here c s) else (here c s).slot slot.val 0x20)
      (if q.2.2 then armNow (here c s) else (here c s).slot slot.val 0x28)
      none (q.1 == 2) false ((here c s).blocked slot.val)

/-- R157, R158: EDM and MUTE follow their state tables. -/
def Sys2Proof.Claims.DeviceMonitoringAndMuting : Prop :=
  ∀ c wd wa (slot : Fin 1024) s, FoldReady c s → Room (here c s) 3 →
    (∀ (v : Fin 64) cm ac fb (q : Nat × Bool × Bool), (here c s).slotType slot.val = 5 → v.val ≤ 1 →
      cm = safeCode ((here c s).w false wa) 0 → ac = safeCode ((here c s).w false wa) 1 →
      fb = (if v = 0 then inputCode (here c s) ((here c s).cfgA slot.val 22 16) else safeCode ((here c s).w false wa) 2) →
      Valid cm → Valid ac → Valid fb →
      q = firstOf (slotCode (here c s) slot.val, false, false) (edmTable (cm == 2) (ac == 2) (fb == 2)
        (expired (here c s) slot.val 0) (expired (here c s) slot.val 1) (slotCode (here c s) slot.val)) →
      SlotDone c s (.iEdm c wd wa slot v) slot.val (onDie c 7 9) 3 wd
        (stateWord q.1 (slotCause (here c s) slot.val) (slotPrev (here c s) slot.val))
        (if q.2.1 then armNow (here c s) else (here c s).slot slot.val 0x20)
        (if q.2.2 then armNow (here c s) else (here c s).slot slot.val 0x28)
        (entered 4 (slotCode (here c s) slot.val) q.1) (q.1 == 1 || q.1 == 2) (q.1 == 4) (fb == 2)) ∧
    (∀ dev a b en (q : Nat × Bool × Bool), (here c s).slotType slot.val = 6 →
      dev = safeCode ((here c s).w false wa) 0 → a = safeCode ((here c s).w false wa) 1 →
      b = safeCode ((here c s).w false wa) 2 → en = safeCode ((here c s).w false wa) 3 →
      Valid dev → Valid a → Valid b → Valid en →
      q = firstOf (slotCode (here c s) slot.val, false, false) (muteTable (dev == 2) (a == 2) (b == 2) (en == 2)
        (expired (here c s) slot.val 0) (expired (here c s) slot.val 1) (slotCode (here c s) slot.val)) →
      SlotDone c s (.iMute c wd wa slot 0) slot.val (onDie c 8 11) 3 wd
        (stateWord q.1 (slotCause (here c s) slot.val) (slotPrev (here c s) slot.val))
        (if q.2.1 then armNow (here c s) else (here c s).slot slot.val 0x20)
        (if q.2.2 then armNow (here c s) else (here c s).slot slot.val 0x28)
        (entered 3 (slotCode (here c s) slot.val) q.1) (q.1 == 2 || dev == 2) (q.1 == 3) (q.1 == 2))

/-- R152, R159, R160: TON, TOF and LIMIT follow their state tables; the delays write two words, LIMIT three. -/
def Sys2Proof.Claims.DelaysAndLimit : Prop :=
  ∀ c wd wa (slot : Fin 1024) s, FoldReady c s → Valid (safeCode ((here c s).w false wa) 0) →
    (∀ q : Nat × Option Bool, (here c s).slotType slot.val = 7 → Room (here c s) 2 →
      q = firstOf (slotCode (here c s) slot.val, none) (tonTable (safeCode ((here c s).w false wa) 0 == 2)
        (expired (here c s) slot.val 0) (slotCode (here c s) slot.val)) →
      SlotDone c s (.iTon c wd wa slot) slot.val (onDie c 5 7) 2 wd
        (stateWord q.1 (slotCause (here c s) slot.val) (slotPrev (here c s) slot.val))
        (armBy (here c s) ((here c s).slot slot.val 0x20) q.2) ((here c s).slot slot.val 0x28) none
        (q.1 == 2) false (q.1 == 1)) ∧
    (∀ q : Nat × Option Bool, (here c s).slotType slot.val = 8 → Room (here c s) 2 →
      q = firstOf (slotCode (here c s) slot.val, none) (tofTable (safeCode ((here c s).w false wa) 0 == 2)
        (expired (here c s) slot.val 0) (slotCode (here c s) slot.val)) →
      SlotDone c s (.iTof c wd wa slot) slot.val (onDie c 5 7) 2 wd
        (stateWord q.1 (slotCause (here c s) slot.val) (slotPrev (here c s) slot.val))
        (armBy (here c s) ((here c s).slot slot.val 0x20) q.2) ((here c s).slot slot.val 0x28) none
        (q.1 == 2 || q.1 == 1) false (q.1 == 1)) ∧
    (∀ (q : Nat × Option Bool) (a b : Nat) (v : Word), (here c s).slotType slot.val = 9 → Room (here c s) 3 →
      a = leNum (here c s).mem8 (0x20000050 + 2 * (here c s).cfgA slot.val 18 16) 2 →
      b = leNum (here c s).mem8 (0x20000060 + 2 * (here c s).cfgA slot.val 18 16) 2 →
      v = (here c s).slot slot.val 0x10 →
      q = firstOf (slotCode (here c s) slot.val, none) (limitTable a b (Word.bits v 15 0) (Word.bits v 31 16)
        (Word.bits v 47 32) (Word.bits v 63 48) (safeCode ((here c s).w false wa) 0 == 2)
        (expired (here c s) slot.val 0) (slotCode (here c s) slot.val)) →
      SlotDone c s (.iLimit c wd wa slot 0) slot.val (onDie c 8 11) 3 wd
        (stateWord q.1 (slotCause (here c s) slot.val) (slotPrev (here c s) slot.val))
        (armBy (here c s) ((here c s).slot slot.val 0x20) q.2) ((here c s).slot slot.val 0x28)
        (entered 3 (slotCode (here c s) slot.val) q.1) (q.1 == 1) (q.1 == 3) (q.1 == 2))

/-- R142, R161: ZONE runs on a demand while folds are started and its RSTI slot is released, and stops where either ends; a stop locks
a released RSTI slot with cause 5. ZONE.Q reads the zone-state bit. A slot of another TYPE makes both unassigned. -/
def Obligations.Zones : Prop :=
  ∀ c wd wa (z : Fin 16) s, FoldReady c s →
    (∀ (run stop : Bool) (r : Nat), (here c s).slotType (1008 + z.val) = 10 → Valid (safeCode ((here c s).w false wa) 0) →
      Room (here c s) 3 → r = (here c s).cfgA (1008 + z.val) 25 16 → r < 1008 →
      stop = (slotCode (here c s) (1008 + z.val) == 1 &&
        (safeCode ((here c s).w false wa) 0 == 1 || slotCode (here c s) r != 2)) →
      run = (if slotCode (here c s) (1008 + z.val) = 0
        then safeCode ((here c s).w false wa) 0 == 2 && (here c s).imgStarted && slotCode (here c s) r == 2
        else slotCode (here c s) (1008 + z.val) == 1 && !stop) →
      ∃ (y : LogicDie) (new : List JEntry),
        y.slot (1008 + z.val) 0x18 = stateWord (if run then 1 else 0) (slotCause (here c s) (1008 + z.val))
          (slotPrev (here c s) (1008 + z.val)) ∧
        y.slot r 0x18 = (if stop = true ∧ slotCode (here c s) r = 2 then stateWord 0 5 (slotPrev (here c s) r)
          else stateWord (slotCode (here c s) r) (slotCause (here c s) r) (slotPrev (here c s) r)) ∧
        (∀ i, i < 32 → safeCode (y.ld64 0x20001010) i =
          if i = z.val then (if run then 2 else 1) else safeCode ((here c s).ld64 0x20001010) i) ∧
        (∀ a, (a < slotAddr (1008 + z.val) 0x18 ∨ slotAddr (1008 + z.val) 0x20 ≤ a) →
          (a < slotAddr r 0x18 ∨ slotAddr r 0x20 ≤ a) → (a < 0x20001010 ∨ 0x20001018 ≤ a) →
          y.mem8 a = (here c s).mem8 a) ∧
        new.length = 3 ∧
        y = { atIssue c s (.iZone c wd wa z) with
          mem := y.mem
          core := { (atIssue c s (.iZone c wd wa z)).core with journal := new ++ (here c s).core.journal } } ∧
        FoldDoes c s (.iZone c wd wa z) (onDie c 7 9) (fun _ => y.setW false wd
          (safeBits (fun j => (j == 0 && run) ||
            (j == 1 && slotCode (here c s) r != 2))))) ∧
    ((here c s).slotType (1008 + z.val) = 10 →
      WritesReg c s (.iZoneQ c wd 0 z) wd
        (codes (fun j => if j = 0 then safeCode ((here c s).ld64 0x20001010) z.val else 1)) (onDie c 3 4)) ∧
    ((here c s).slotType (1008 + z.val) ≠ 10 →
      Refused c s (.iZone c wd wa z) .illegal ∧ Refused c s (.iZoneQ c wd 0 z) .illegal)

/-- R108-R111, R293, R506: a fold-task trap ends the attempt and records its cause. On the first attempt, with the journal whole and the
class not MEMECC, the held effects are discarded and the rollback starts; on the retry BUDGET leaves the fold without result; every
other trap is lasting and raises source 6, with 17 + 2m beside it for MEMECC. In window compare mode the trap waits for the compare of
the signatures (R288). -/
def Sys2Proof.Claims.FoldTrapReaction : Prop :=
  ∀ (x : LogicDie) d (t : Trap), (x.windowMode = false →
    (x.core.jovf = false → t.cls ≠ .memecc → x.core.attempt = 0 →
      x.foldTrap d t = { trapped x t with core := { discarded (trapped x t).core with
        rolling := true, firstCause := t.cls.code, firstCycles := x.core.cycles } }) ∧
    (x.core.jovf = false → t.cls = .budget → x.core.attempt ≠ 0 →
      x.foldTrap d t = { trapped x t with core := discarded (trapped x t).core }) ∧
    (t.cls ≠ .memecc → (x.core.jovf = true ∨ (x.core.attempt ≠ 0 ∧ t.cls ≠ .budget)) →
      ∃ detail, x.foldTrap d t = (trapped x t).raise d 6 detail) ∧
    (t.cls = .memecc → ∃ detail, x.foldTrap d t = (trapped x t).raiseAll d
      [⟨6, detail, none, false, false⟩, ⟨17 + 2 * t.mem, t.word, none, false, false⟩])) ∧
    (x.windowMode = true → x.foldTrap d t = { trapped x t with core := { (trapped x t).core with
      running := x.core.running, ending := some (.trap t) } })

/-- R105, R112: a word of an unassigned encoding traps ILLEGAL in both roles: the fold task on its first attempt starts its rollback, the
companion core continues at TRAP_VBASE + 8. -/
def Sys2Proof.Claims.UnassignedEncodings : Prop :=
  ∀ c s,
    (FoldReady c s → (here c s).windowMode = false → (here c s).core.jovf = false → (here c s).core.attempt = 0 →
      exec (.unassigned c) s = .next (s.setDie c.die { trapped ((here c s).fetched c) ⟨.illegal, 0, 0, 0⟩ with
        core := { discarded (trapped ((here c s).fetched c) ⟨.illegal, 0, 0, 0⟩).core with
          rolling := true, firstCause := 1, firstCycles := ((here c s).fetched c).core.cycles } })) ∧
    (CompReady c s →
      exec (.unassigned c) s = .next (s.setDie c.die { atIssue c s (.unassigned c) with comp := { (here c s).comp with
        epc := BitVec.ofNat 64 (here c s).comp.pc
        ecause := 0x81
        eaddr := 0
        estatus := BitVec.ofNat 64 (2 * Word.bits (here c s).comp.estatus 0 0)
        pc := ((here c s).comp.trapVbase.toNat + 8) % 2 ^ 64
        waiting := false
        stepping := false } }))

/-- R112, R113, R115, R137: words of the encoding tables and the instructions they stand for; the words 0 and 2^32 - 1, and those of a major opcode that the opcode map leaves unassigned,
stand for none. -/
def Sys2Proof.Claims.EncodedWords : Prop :=
  ∀ c : Ctx, (∀ p ∈ [(0x28A11000#32, Instr.iMovz c 5 1 0x1000), (0x00E73001, .iAdd c 7 7 6), (0x10A50008, .iAddi c 5 5 8), (0x4CC50000, .iLdd c 6 5 0),
      (0x5CE50040, .iStd c 7 5 64), (0x64030008, .iLoopn c 3 8), (0xA4C70001, .iOut c 6 7), (0xA8000000, .iFold c), (0x70611020, .iSand c 3 1 2),
      (0x74C50003, .iSbcast c 6 5 0), (0x80200014, .iEqv c 1 0 20 0), (0x8C830028, .iRsti c 4 3 40 0), (0x7CA30002, .iZone c 5 3 2)],
      decodeInstr c p.1 = some p.2) ∧
    decodeInstr c 0 = none ∧ decodeInstr c 0xFFFFFFFF = none ∧
    (∀ w, majorOf w ∈ [0x02, 0x03, 0x0E, 0x0F, 0x2B, 0x34, 0x35, 0x36, 0x37, 0x38, 0x39, 0x3A, 0x3B, 0x3C, 0x3D, 0x3E, 0x3F] →
      decodeInstr c w = none)

/-- R171, R172, R174, R175, R177, R178, R189, R194, R196: a regular sample of an unbound input, held at most 350 ns after the end of its
window, moves its counter by one between 0 and N, and the filtered state follows at N and at 0 with its change bit; a dark sample that
reads high counts and is pending, the second one is DARKFAIL; a group whose report differs from its configuration is recorded with
source 160 + g; an analog input in current mode opens its shunt at overcurrent and reconnects 100 ms later; the SI_ lock starts
sampling with the groups applied and every test state at its start. -/
def Obligations.InputSampling : Prop :=
  ∀ (s : State) d t (x : LogicDie), x = (s.die d).at t →
    (∀ (g : Fin 12) (k : Fin 4) (i : Nat) start high c (y : LogicDie), i = 4 * g.val + k.val → x.sampled i = true → WindowDue x d i start t →
      x.g F.SI_CFG_BIND i ≠ 1 → x.g F.SI_STAT_TEST i < 3 → x.g F.SI_CFG_CAPEN i ≠ 1 →
      c = (if high then min (x.g F.SI_STAT_COUNT i + 1) (x.g F.SI_CFG_N i) else x.g F.SI_STAT_COUNT i - 1) →
      0 < x.g F.SI_CFG_N i →
      y = sampleShows (x.setInp i { x.inp i with lastWin := some start }) i high c →
      (¬ (c = x.g F.SI_CFG_N i ∧ x.g F.SI_STAT_FILT i ≠ 1) → ¬ (c = 0 ∧ x.g F.SI_STAT_FILT i = 1) →
        DieDoes (.sampleWindow d g k start t high) s d t (fun _ => y)) ∧
      (c = x.g F.SI_CFG_N i → x.g F.SI_STAT_FILT i ≠ 1 →
        DieDoes (.sampleWindow d g k start t high) s d t (fun x =>
          ((y.p F.SI_STAT_FILT 1 i).setB F.SI_CHG_BITS i true).setInp i { x.inp i with
            lastWin := some start, filtAt := x.g F.GT_TBASE_TIME, highAt := x.g F.GT_TBASE_TIME
            filtWas := (x.inp i).filtAt == x.g F.GT_TBASE_TIME && (x.inp i).filtWas })) ∧
      (c = 0 → x.g F.SI_STAT_FILT i = 1 →
        DieDoes (.sampleWindow d g k start t high) s d t (fun x =>
          ((y.p F.SI_STAT_FILT 0 i).setB F.SI_CHG_BITS i true).setInp i { x.inp i with
            lastWin := some start, filtAt := x.g F.GT_TBASE_TIME
            filtWas := !((x.inp i).filtAt == x.g F.GT_TBASE_TIME) || (x.inp i).filtWas }))) ∧
    (∀ (i : Fin 48) start, x.sampled i.val = true → x.g F.SI_CFG_DARK i.val = 1 → x.darkDue d i.val start = true →
      start + x.g F.SI_GRP_WIN (i.val / 4) * 25 ≤ t → t ≤ start + x.g F.SI_GRP_WIN (i.val / 4) * 25 + 350 →
      (x.g F.SI_STAT_DARKPEND i.val ≠ 1 →
        DieDoes (.darkSample d i ⟨start, true⟩ t) s d t (fun x =>
          ((x.setInp i.val { x.inp i.val with lastDark := some start }).count F.SI_CNT_DARKERR 1 i.val).p
            F.SI_STAT_DARKPEND 1 i.val)) ∧
      (x.g F.SI_STAT_DARKPEND i.val = 1 → x.g F.SI_STAT_TEST i.val < 3 →
        DieDoes (.darkSample d i ⟨start, true⟩ t) s d t (fun x =>
          let y := ((x.setInp i.val { x.inp i.val with lastDark := some start }).count F.SI_CNT_DARKERR 1 i.val).p
            F.SI_STAT_DARKPEND 0 i.val
          let y := (y.p F.SI_STAT_TEST 5 i.val).p F.SI_STAT_CAUSE 0 i.val
          (y.setInp i.val { x.inp i.val with lastDark := some start, darkZero := false }).raise d (112 + i.val) 5)) ∧
      (x.g F.SI_STAT_TEST i.val ≠ 5 →
        DieDoes (.darkSample d i ⟨start, false⟩ t) s d t (fun x =>
          (x.setInp i.val { x.inp i.val with lastDark := some start }).p F.SI_STAT_DARKPEND 0 i.val))) ∧
    (∀ (g : Fin 12) (type wet : Bool),
      (x.g F.SI_GRP_TYPE g.val ≠ (if type then 1 else 0) ∨ x.g F.SI_GRP_WET g.val ≠ (if wet then 1 else 0)) →
      ∃ detail, DieDoes (.frontEndMismatch d g type wet t) s d t (fun x =>
        LogicDie.raise { x.setB F.SI_FEMIS_GROUP g.val true with
          inSide := { x.inSide with feMis := setBit x.inSide.feMis g.val } } d (160 + g.val) detail)) ∧
    (∀ n : Fin 8, (x.g F.SI_AICFG_MODE n.val = 1 →
        DieDoes (.analogOvercurrent d n t) s d t (fun x => { x.p F.SI_AICFG_OVC 1 n.val with inSide := { x.inSide with
          openedAt := Sparse.put (fun _ => 0) x.inSide.openedAt n.val t } })) ∧
      (Sparse.get (fun _ => 0) x.inSide.openedAt n.val + 100000000 ≤ t →
        DieDoes (.analogReconnect d n t) s d t (fun x => x.p F.SI_AICFG_OVC 0 n.val))) ∧
    (x.g F.SI_CTRL_LOCK ≠ 1 → DieDoes (.siLock d t) s d t (fun x =>
      let x := (x.p F.SI_CTRL_LOCK 1).p F.SI_CTRL_SAMPLING 1
      let x := (List.range 6).foldl (fun x k =>
        (x.p F.SI_FE_TYPE (x.g F.SI_GRP_TYPE (6 * d.num + k)) k).p F.SI_FE_WET (x.g F.SI_GRP_WET (6 * d.num + k)) k) x
      (List.range 48).foldl (fun x i => x.p F.SI_STAT_TEST (if x.g F.SI_CFG_BIND i = 1 then 1 else 0) i) x))

/-- R180-R187, R195: a driven source's readback gives a valid pulse, with its blanking interval, where its width lies between WMIN and
WMAX, and BADWIDTH otherwise or at WMAX; SHORTLOW and STUCKHIGH, after 2 µs, and NOPULSE are found once per episode; an overheated
driver shows OVT and no command until it has cooled; at the end of a blanking interval each bound input that is sampled, was high and missed its
pulse is pending, then MISSING; so is one that sees no valid pulse in time. -/
def Obligations.TestPulses : Prop :=
  ∀ (s : State) d t (j : Fin 8) (x : LogicDie) (q : SourceSt), x = (s.die d).at t → q = x.src j.val →
    (∀ b, x.tpChecked d j.val = true → q.blanks = [b] → b.ended = false → b.start < t → b.sawLow = true →
      (x.g F.TP_CFG_WMIN j.val * 100 ≤ t - b.start → t - b.start ≤ x.g F.TP_CFG_WMAX j.val * 100 →
        DieDoes (.readbackChange d j true t) s d t (fun x =>
          (((x.p F.TP_STAT_RB 1 j.val).p F.TP_DRV_RB 1 j.val).setSrc j.val
            { q with
              rbAt := t, epShort := false, epStuck := false, lastValid := max q.lastValid b.start,
              blanks := [{ b with
                ended := true, valid := true
                stop := some (min t (b.start + x.g F.TP_CFG_WMAX j.val * 100) + x.g F.TP_CFG_SETTLE j.val * 100) }] }).count
                  F.TP_CNT_VALID 1 j.val)) ∧
      ((t - b.start < x.g F.TP_CFG_WMIN j.val * 100 ∨ x.g F.TP_CFG_WMAX j.val * 100 < t - b.start) →
        DieDoes (.readbackChange d j true t) s d t (fun x =>
          pulseFinding ((((x.p F.TP_STAT_RB 1 j.val).p F.TP_DRV_RB 1 j.val).setSrc j.val
            { q with
              rbAt := t, epShort := false, epStuck := false,
              blanks := [{ b with
                ended := true, valid := false
                stop := some (min t (b.start + x.g F.TP_CFG_WMAX j.val * 100) + x.g F.TP_CFG_SETTLE j.val * 100) }] }).count
                  F.TP_CNT_INVALID 1 j.val) d j.val 4))) ∧
    (∀ b, x.tpChecked d j.val = true → q.blanks = [b] → b.ended = false → b.start < t → b.sawLow = false →
      DieDoes (.readbackChange d j false t) s d t (fun x =>
        ((x.p F.TP_STAT_RB 0 j.val).p F.TP_DRV_RB 0 j.val).setSrc j.val
          { q with
            rbAt := t, epShort := false, epStuck := false, epNone := false, lastLow := max q.lastLow b.start,
            blanks := [{ b with sawLow := true }] })) ∧
    (x.tpChecked d j.val = true →
      (x.g F.TP_STAT_CMD j.val = 1 → x.g F.TP_STAT_RB j.val = 0 → q.epShort = false → max q.cmdAt q.rbAt + 2000 < t →
        DieDoes (.shortlow d j t) s d t (fun x => pulseFinding (x.setSrc j.val { q with epShort := true }) d j.val 2)) ∧
      (x.g F.TP_STAT_OVT j.val ≠ 1 → x.g F.TP_STAT_CMD j.val = 0 → x.g F.TP_STAT_RB j.val = 1 → q.epStuck = false →
        max q.cmdAt q.rbAt + 2000 < t →
        DieDoes (.stuckhigh d j t) s d t (fun x => pulseFinding (x.setSrc j.val { q with epStuck := true }) d j.val 3)) ∧
      (∀ b, q.blanks = [b] → b.ended = false → b.start + x.g F.TP_CFG_WMAX j.val * 100 ≤ t →
        DieDoes (.badwidth d j t) s d t (fun x =>
          pulseFinding ((x.setSrc j.val
            { q with blanks := [{ b with
                ended := true
                stop := some (b.start + x.g F.TP_CFG_WMAX j.val * 100 + x.g F.TP_CFG_SETTLE j.val * 100) }] }).count
                F.TP_CNT_INVALID 1 j.val) d j.val 4)) ∧
      (q.epNone = false → max q.lastLow x.inSide.activeAt + x.g F.TP_PER_PMAX j.val * 1000 ≤ t →
        DieDoes (.nopulse d j t) s d t (fun x => pulseFinding (x.setSrc j.val { q with epNone := true }) d j.val 5))) ∧
    DieDoes (.sourceOverheat d j t) s d t (fun x =>
      ((((x.p F.TP_STAT_OVT 1 j.val).p F.TP_DRV_HOT 1 j.val).p F.TP_STAT_CMD 0 j.val).p F.TP_DRV_CMD 0 j.val).setSrc j.val
        { q with epShort := false, epStuck := false }) ∧
    (x.g F.TP_STAT_OVT j.val ≠ 1 → DieDoes (.sourceCooled d j t) s d t id) ∧
    (x.g F.TP_STAT_OVT j.val = 1 →
      (x.g F.TP_CTRL_ACTIVE ≠ 1 →
        DieDoes (.sourceCooled d j t) s d t (fun x => (x.p F.TP_STAT_OVT 0 j.val).p F.TP_DRV_HOT 0 j.val)) ∧
      (x.g F.TP_CTRL_ACTIVE = 1 → (x.g F.TP_CTRL_EN).testBit j.val = true → x.g F.GT_STAT_PIN j.val = 1 →
        DieDoes (.sourceCooled d j t) s d t (fun x =>
          ((((x.p F.TP_STAT_OVT 0 j.val).p F.TP_DRV_HOT 0 j.val).p F.TP_STAT_CMD 1 j.val).p F.TP_DRV_CMD 1 j.val).setSrc j.val
            { q with cmdAt := t, epShort := false, epStuck := false }))) ∧
    (∀ b bs e, q.blanks = b :: bs → b.stop = some e → e ≤ t → x.tpChecked d j.val = true →
      (∀ i ∈ x.boundTo j.val, x.windowsIn d i b.start e = true) →
      DieDoes (.blankingEnd d j t) s d t (fun x =>
        ((List.range 48).filter (fun i => x.g F.SI_CFG_BIND i == 1 && x.g F.SI_CFG_SRC i == j.val && x.sampled i)).foldl (fun x i =>
          if b.valid = false ∨ b.high.testBit i = false then x
          else if b.low.testBit i then
            if x.g F.SI_STAT_TEST i = 1 ∨ x.g F.SI_STAT_TEST i = 2 then x.p F.SI_STAT_TEST 1 i else x
          else if x.g F.SI_STAT_TEST i = 1 then (x.count F.SI_CNT_MISSED 1 i).p F.SI_STAT_TEST 2 i
          else if x.g F.SI_STAT_TEST i = 2 then (x.count F.SI_CNT_MISSED 1 i).enterTest d i 3 0
          else x.count F.SI_CNT_MISSED 1 i) x |> fun y => y.setSrc j.val { y.src j.val with blanks := bs })) ∧
    (∀ i : Fin 48, x.sampled i.val = true → x.g F.SI_CFG_BIND i.val = 1 → x.g F.SI_CFG_SRC i.val = j.val → x.g F.SI_STAT_FILT i.val = 1 →
      (x.g F.SI_STAT_TEST i.val = 1 ∨ x.g F.SI_STAT_TEST i.val = 2) →
      max (max q.lastValid (x.inp i.val).highAt) x.inSide.activeAt + (x.g F.TP_PER_PMAX j.val * 1000 +
        (x.g F.TP_CFG_WMAX j.val + x.g F.TP_CFG_SETTLE j.val) * 100) ≤ t →
      DieDoes (.noValidSourcePulse d i t) s d t (fun x =>
        let x := (x.p F.SI_STAT_TEST 3 i.val).p F.SI_STAT_CAUSE 1 i.val
        (x.setInp i.val { x.inp i.val with darkZero := false }).raise d (112 + i.val) 11))

/-- Folds run on a die: RUNNING, not safe, not held by the debugger. -/
def Sys2Proof.Claims.Folding (x : LogicDie) : Prop :=
  x.g F.FOLD_STATUS_RUNNING = 1 ∧ x.g F.FOLD_STATUS_SAFE ≠ 1 ∧ x.g F.DBG_STAT_HOLD ≠ 1

/-- The fold period of a die in ns (R40). -/
def Sys2Proof.Claims.periodNs (x : LogicDie) : Nat := x.g F.FOLD_PERIOD_PERIOD * 1000

/-- The frames on their way from a die after a new item of a fold slot, which takes the place of an older one (R32, R33): one frame for
each 64 bytes of its payload, each with its own number. -/
def Sys2Proof.Claims.sends (x : LogicDie) (slot : Nat) (i : XItem) : XlinkSt :=
  { x.xl with
    seq := x.xl.seq + max 1 ((i.bytes.length + 63) / 64)
    tx := x.xl.tx.eraseP (fun q => q.item.slot == slot) ++
      (List.range (max 1 ((i.bytes.length + 63) / 64))).map (fun k => ⟨x.xl.seq + k, i, k, false⟩) }

/-- The contents of an exchange frame are within their fields (R49). -/
def Sys2Proof.Claims.FrameFits (f : XFrame) : Prop :=
  f.start < 2 ^ 32 ∧ f.digest < 2 ^ 64 ∧ f.halves.length = 48 ∧ (∀ v ∈ f.halves, v < 4) ∧ f.crooks < 4 ∧ f.analog.length = 8 ∧
    (∀ v ∈ f.analog, v < 65536) ∧ f.proofs < 2 ^ 128

/-- R32, R49: the payload of an exchange frame fills the 64 bytes that a frame may carry, and the other channel reads from it what was
frozen into it. -/
def Sys2Proof.Claims.ExchangeFrameContents : Prop :=
  ∀ f : XFrame, FrameFits f → f.payload.length = 64 ∧ XFrame.ofPayload f.payload = f

/-- R37, R38, R45, R49, R53, R54, R146: the phases of a fold on one die. A fold starts at an instant of the die's grid from rest, once; the
exchange frame goes out 100 ns later; the slot timers are judged before the checkpoint; the received exchange frame makes the combined
image; output agreement starts from a completed attempt, 700 ns before the end of the fold, with the four words sent; a frame that
differs raises source 35, an equal one ends in agreement; without a frame both dies raise source 49. -/
def Obligations.FoldPhases : Prop :=
  ∀ (s : State) d t (x : LogicDie), x = (s.die d).at t → Folding x →
    (∀ inA inB, x.fold.phase = .idle → x.onGrid t = true → x.g F.GT_TBASE_TIME = t → (∀ b, x.fold.begun = some b → b < t) →
      DieDoes (.foldStart d t inA inB t) s d t (fun x => x.foldStart (s.die (other d)) d t inA inB t)) ∧
    (x.fold.phase = .sample → t = x.fold.start + 100 → DieDoes (.exchange d t) s d t (fun x => { x with
      fold := { x.fold with phase := .exchange }, xl := sends x 0 (.exchange x.fold.frame.payload) })) ∧
    (∀ p, x.fold.phase = .exchange → x.fold.start + 100 < t → t ≤ x.fold.start + 550 → x.xl.rxExchange = some p →
      DieDoes (.exchangeFrame d t) s d t (fun x =>
        LogicDie.combine { x with xl := { x.xl with rxExchange := none } } d (XFrame.ofPayload p))) ∧
    ((x.fold.phase = .sample ∨ x.fold.phase = .exchange ∨ x.fold.phase = .ready) → x.fold.start < t → t ≤ x.fold.start + 550 →
      DieDoes (.slotTimerExpiry d t) s d t (fun x => (List.range 1024).foldl (fun x n =>
        x.st64 (slotAddr n 0x30) (BitVec.ofNat 64
          ((if (x.slot n 0x20).getLsbD 63 ∧
              (x.slot n 0x20).toNat % 2 ^ 63 + 1000 * Word.bits (x.slot n 0x08) 31 0 ≤ x.fold.start then 1 else 0) +
           (if (x.slot n 0x28).getLsbD 63 ∧
              (x.slot n 0x28).toNat % 2 ^ 63 + 1000 * Word.bits (x.slot n 0x08) 63 32 ≤ x.fold.start then 2 else 0)))) x)) ∧
    (x.fold.phase = .execute → t + 700 = x.fold.start + periodNs x → x.core.complete = true →
      (s.die (other d)).core.complete = true →
      DieDoes (.outputAgreement d t) s d t (fun x =>
        let x := if x.g F.FOLD_STATUS_STARTED = 1 then x
          else ((x.st64 0x20001000 0x5555555555555555).st64 0x20001008 0x5555555555555555).st64 0x20001010 0x5555555555555555
        let x := x.deenergise d s.ioReady (x.ld64 0x20001000) (x.ld64 0x20001008) (x.ld64 0x20001010) t
        { x with
          fold := { x.fold with
            phase := .agree, sent := [x.ld64 0x20001000, x.ld64 0x20001008, x.ld64 0x20001010, x.ld64 0x20001018] }
          xl := sends x 1 (.agreement (bytesLE 8 (x.ld64 0x20001000).toNat ++ bytesLE 8 (x.ld64 0x20001008).toNat ++
            bytesLE 8 (x.ld64 0x20001010).toNat ++ bytesLE 8 (x.ld64 0x20001018).toNat)) })) ∧
    (∀ p, x.fold.phase = .agree → x.fold.start + periodNs x < t + 700 → t + 260 ≤ x.fold.start + periodNs x →
      x.xl.rxAgreement = some p →
      (p = imageBytes x.fold.sent →
        DieDoes (.outputAgreementFrame d t) s d t (fun x => { x with
          fold := { x.fold with phase := .agreed }, xl := { x.xl with rxAgreement := none } })) ∧
      (∀ i, firstDiff (imageBytes x.fold.sent) p = some i →
        DieDoes (.outputAgreementFrame d t) s d t (fun x =>
          LogicDie.raise { x with xl := { x.xl with rxAgreement := none } } d 35 i))) ∧
    (∀ u, u = s.setDie d x → x.fold.owed ≠ some t → x.fold.phase = .agree → t + 250 = x.fold.start + periodNs x →
      (∀ c, (u.die c).g F.DBG_STAT_HOLD ≠ 1) →
      exec (.endOfY d t) s = .next { u with la := u.la.raise .la 49 1, lb := u.lb.raise .lb 49 1 })

/-- R55, R57, R128: at the end of an agreeing Y the die commands its energising transitions and then, where it has not gone safe, commits: its
number advances by one, the held effects follow in the order stores, domain requests, check steps, telegrams, log records, and the other
die's view of its images is sent. -/
def Obligations.CommitAtEndOfY : Prop :=
  ∀ (s u : State) d t (x : LogicDie), x = (s.die d).at t → Folding x → x.fold.owed ≠ some t → x.fold.phase = .agreed →
    t + 250 = x.fold.start + periodNs x →
    u = (s.setDie d x).modDie d (fun x => x.endY d (s.setDie d x).ioReady ((s.setDie d x).la.dom 4 == 2) t) →
    ((u.die d).g F.FOLD_STATUS_SAFE = 1 → exec (.endOfY d t) s = .next u) ∧
    ((u.die d).g F.FOLD_STATUS_SAFE ≠ 1 → exec (.endOfY d t) s = .next (u.commit d t) ∧
      ((u.die d).advance.g F.FOLD_NUMBER_NUMBER = (u.die d).recFold ∧
       (u.die d).advance.core.wCommit = (u.die d).core.w ∧ (u.die d).advance.core.journal = []))

/-- R42, R100, R108-R111, R288-R296: the attempt of a fold. The checkpoint, 550 ns after the fold start, starts it from the last commit's
registers at the fold entry, or raises source 2 on a difference; a mismatch of the first attempt with the journal whole starts the
rollback, any other raises source 1; the rollback writes the journal back and starts the retry, or raises source 25 where an entry is
lost; a triad minority is masked once. -/
def Sys2Proof.Claims.AttemptAndRetry : Prop :=
  ∀ (s : State) d t (x : LogicDie), x = (s.die d).at t →
    (Folding x → x.fold.phase = .ready → t = x.fold.start + 550 → ∀ corrected,
      DieDoes (.checkpoint d none ⟨none, corrected⟩ t) s d t (fun x =>
        let x := { x with fold := { x.fold with phase := .execute } }.count F.FC_ECCCNT_CORR corrected
        { x with
          core := { x.core with
            w := x.core.wCommit, pc := x.hdr.entry, running := true, complete := false, rolling := false, firstCause := 0,
            firstCycles := 0, attempt := 0, cycles := 0, window := 0, ending := none, callDepth := 0, rets := [], loops := [],
            journal := [], jovf := false, masked := none, maskedAt := 0 }
          pipe := { x.pipe with ready := [], buf := [], lastStore := none } }) ∧
      ∀ r m, DieDoes (.checkpoint d (some r) ⟨m, corrected⟩ t) s d t (fun x =>
        (LogicDie.count { x with fold := { x.fold with phase := .execute } } F.FC_ECCCNT_CORR corrected).raise d 2 r.val)) ∧
    (x.core.running = true → x.core.attempt = 0 → x.core.jovf = false →
      (x.windowMode = false → DieDoes (.lockstepMismatch d t) s d t (fun x => { x with core := { discarded x.core with
        running := false, ending := none, rolling := true, firstCause := 0xF, firstCycles := x.core.cycles } })) ∧
      (x.windowMode = true → (x.core.ending.isSome = true ∨ x.core.window + x.g F.FC_LSCFG_WIN ≤ x.core.cycles) →
        DieDoes (.windowCompare d true t) s d t (fun x => { x with core := { discarded x.core with
          running := false, ending := none, rolling := true, firstCause := 0xF, firstCycles := x.core.cycles } }))) ∧
    (x.core.running = true → x.windowMode = false → (x.core.attempt ≠ 0 ∨ x.core.jovf = true) →
      ∃ detail, DieDoes (.lockstepMismatch d t) s d t (fun x =>
        LogicDie.raise { x with core := { discarded x.core with running := false, ending := none } } d 1 detail)) ∧
    (x.core.running = true → x.windowMode = true → x.core.ending = none → x.core.window + x.g F.FC_LSCFG_WIN ≤ x.core.cycles →
      DieDoes (.windowCompare d false t) s d t (fun x =>
        { x with core := { x.core with window := x.core.window + x.g F.FC_LSCFG_WIN } })) ∧
    (x.core.running = true → x.windowMode = true → x.core.ending = some .fold →
      DieDoes (.windowCompare d false t) s d t (fun x => x.completeAttempt d x.core.cycles)) ∧
    (x.hdr.triad = true → x.core.running = true → x.core.masked = none → ∀ c : Fin 3,
      DieDoes (.triadMinority d c t) s d t (fun x =>
        { x with core := { x.core with masked := some c.val, maskedAt := x.core.cycles } })) ∧
    (x.foldRuns = true → x.g F.FOLD_BUDGET_BUDGET ≤ x.core.cycles →
      DieDoes (.budget d t) s d t (fun x => x.foldTrap d ⟨.budget, 0, 0, 0⟩)) ∧
    (x.core.rolling = true → ∀ corrected,
      DieDoes (.rollback d ⟨none, .clean, corrected⟩ t) s d t (fun x =>
        let x := x.count F.FC_ECCCNT_CORR corrected
        { x with
          mem := unwind x.mem x.core.journal
          core := { discarded x.core with
            journal := [], jovf := false, ending := none, w := x.core.wCommit, loops := [], rets := [], callDepth := 0,
            rolling := false, running := true, complete := false, attempt := 1, cycles := 0, window := 0, pc := x.hdr.entry,
            masked := none }
          pipe := { x.pipe with ready := [], buf := [], dcache := [], lastStore := none } }) ∧
      ∀ a store, DieDoes (.rollback d ⟨some (a, true), store, corrected⟩ t) s d t (fun x =>
        let x := x.count F.FC_ECCCNT_CORR corrected
        LogicDie.raise { x with
          mem := unwind x.mem (x.core.journal.filter (fun e => e.addr != a - a % 8))
          core := { discarded x.core with
            journal := [], jovf := false, ending := none, w := x.core.wCommit, loops := [], rets := [], callDepth := 0,
            rolling := false }
          pipe := { x.pipe with ready := [], buf := [], dcache := [] } } d 25 a))

/-- R44, R60-R63, R109-R111: a fold whose attempt is not complete at the end of E, 700 ns before the end of the fold, is missed on both
dies: each rolls back, counts it, lets the zones react, owes FOLD_DONE marked missed in C, and raises source 32 and, for a second miss
within 16 folds, source 33. A die that completed with the journal overflowed goes safe instead, and the other, whose fold has no result,
awaits the agreement frame that will not come; so does a die whose attempt is not complete while the other die runs no folds. -/
def Sys2Proof.Claims.MissedFolds : Prop :=
  ∀ (s : State) t (a b : LogicDie), a = s.la.at t → b = s.lb.at t → Folding a → Folding b →
    a.fold.phase = .execute → b.fold.phase = .execute → t + 700 = a.fold.start + periodNs a → t + 700 = b.fold.start + periodNs b →
    a.core.running = false → b.core.running = false →
    ((a.core.complete = false ∨ b.core.complete = false) → (a.core.complete = true → a.core.jovf = false) →
      (b.core.complete = true → b.core.jovf = false) →
      exec (.missedFold t) s = .next { s with la := a.missFold .la t, lb := b.missFold .lb t }) ∧
    (a.core.complete = true → a.core.jovf = true → b.core.complete = false → a.goSafe.g F.FOLD_STATUS_SAFE = 1 →
      exec (.missedFold t) s = .next { s with la := a.goSafe, lb := { b with fold := { b.fold with
        phase := .agree, sent := [b.ld64 0x20001000, b.ld64 0x20001008, b.ld64 0x20001010, b.ld64 0x20001018] } } }) ∧
    (∀ (x : LogicDie) d, (x.missFold d t).fold.sinceMiss = 0 ∧ (x.missFold d t).core.running = false ∧
      (x.missFold d t).fold.owed = some (x.fold.start + periodNs x - 250) ∧
      ((x.missFold d t).fold.phase = .missed ∨ ((x.missFold d t).fold.phase = .idle ∧ (x.missFold d t).g F.FC_CTRL_SAFE = 1))) ∧
    (∀ (s : State) (x y : LogicDie) d, x = (s.die d).at t → y = (s.die (other d)).at t → Folding x → x.fold.phase = .execute →
      t + 700 = x.fold.start + periodNs x → x.core.running = false → x.core.complete = false → y.g F.FOLD_STATUS_SAFE = 1 →
      exec (.missedFold t) s = .next ((s.setDie (other d) y).setDie d { x with fold := { x.fold with
        phase := .agree, sent := [x.ld64 0x20001000, x.ld64 0x20001008, x.ld64 0x20001010, x.ld64 0x20001018] } }))

/-- R41, R306: both dies READY, each with a proposal of its own and the other's present one, and neither LOCKED, NORESUME nor CFG_REJECT
resume at the later instant with the larger fold number; before that instant nothing happens, nor while a die holds a proposal that the
other has replaced. -/
def Sys2Proof.Claims.Resumption : Prop :=
  ∀ (s : State) t n na nb ia ib ta tb,
    s.la.fc.mine = some (na, ia) → s.lb.fc.mine = some (nb, ib) → s.la.fc.theirs = some ta → s.lb.fc.theirs = some tb →
    ((ta = (nb, ib) ∧ tb = (na, ia)) ∨ exec (.resumption t) s = .next s) ∧
    (ta = (nb, ib) → tb = (na, ia) →
    (∀ d, (s.die d).g F.FC_CTRL_READY = 1 ∧ (s.die d).g F.FC_CTRL_LOCKED ≠ 1 ∧ (s.die d).g F.FC_CTRL_NORESUME ≠ 1 ∧
      (s.die d).g F.FOLD_STATUS_CFG_REJECT ≠ 1) →
    n = max (s.la.g F.FOLD_NUMBER_NUMBER) (s.lb.g F.FOLD_NUMBER_NUMBER) →
    (t = max ia ib → exec (.resumption t) s = .next { s with la := (s.la.at t).resume n, lb := (s.lb.at t).resume n }) ∧
    (t ≠ max ia ib → exec (.resumption t) s = .next s)) ∧
    (∀ x : LogicDie, n < 2 ^ 64 → (x.resume n).g F.FOLD_NUMBER_NUMBER = n ∧ (x.resume n).g F.FC_CTRL_SAFE = 0 ∧
      (x.resume n).g F.FOLD_STATUS_RUNNING = 1 ∧ (x.resume n).fold.omitDigest = true)

/-- R30, R32-R34, R54, R311, R470: a crosslink frame that is acknowledged leaves its sender, and with the last frame of an item the item
reaches the other die; a frame that is not acknowledged is sent once more with source 48, and a second miss is lasting: the frames of its item are given up and both dies raise source 49.
No background frame goes while the running fold's frame or a device-safe note waits. A control-link frame sent again raises source
52; a lasting fault of the control link raises 53, of the sense link from PD0 54 and from PD1 55, and their effects stay. -/
def Sys2Proof.Claims.CrosslinkAndPowerLinks : Prop :=
  ∀ (s : State) d t (x : LogicDie) (slot : Fin 3), x = (s.die d).at t →
    (∀ q, x.xhead slot.val = some q → x.boot.xlCut = false → (s.die (other d)).boot.xlCut = false →
      (q.item.devsafe = true ∨ ((∀ p ∈ x.xl.tx, p.item.devsafe = false) ∧ (slot.val ≠ 2 ∨ (x.fold.phase ≠ .exchange ∧ x.fold.phase ≠ .agree ∧
        x.fold.phase ≠ .agreed)))) →
      (q.part + 1 = max 1 ((q.item.bytes.length + 63) / 64) →
        exec (.crosslinkFrame d slot t) s = .next
          ((s.setDie d { x with xl := { x.xl with tx := x.xl.tx.eraseP (fun q => q.item.slot == slot.val) } }).setDie (other d)
            ((s.die (other d)).xreceive q.item))) ∧
      (q.part + 1 ≠ max 1 ((q.item.bytes.length + 63) / 64) →
        DieDoes (.crosslinkFrame d slot t) s d t (fun x =>
          { x with xl := { x.xl with tx := x.xl.tx.eraseP (fun q => q.item.slot == slot.val) } }))) ∧
    (∀ q p, x.xhead slot.val = some q → q.item.devsafe = false → p ∈ x.xl.tx →
      (p.item.devsafe = true ∨ (slot.val = 2 ∧ x.fold.phase = .exchange ∧ p.item.slot = 0)) → DieDoes (.crosslinkFrame d slot t) s d t id) ∧
    (∀ (y : LogicDie) p n, y.xreceive (.exchange p) = { y with xl := { y.xl with rxExchange := some p } } ∧
      y.xreceive (.agreement p) = { y with xl := { y.xl with rxAgreement := some p } } ∧
      y.xreceive (.note n) = { y with xl := { y.xl with inbox := y.xl.inbox ++ [n] } }) ∧
    (∀ q, x.xhead slot.val = some q → q.resent = false → x.g F.DBG_STAT_HOLD ≠ 1 →
      DieDoes (.crosslinkResend d slot t) s d t (fun x =>
        LogicDie.raise { x with xl := { x.xl with tx := x.xl.tx.map (fun p =>
          if p.seq = q.seq then { p with resent := true } else p) } } d 48 slot.val)) ∧
    (∀ q, x.xhead slot.val = some q → q.resent = true → (∀ c, ((s.die c).at t).g F.DBG_STAT_HOLD ≠ 1) →
      ∀ u, u = ((s.setDie .la (s.la.at t)).setDie .lb (s.lb.at t)).modDie d (fun x => { x with xl := { x.xl with
        tx := x.xl.tx.filter (fun p => p.item.slot != slot.val || p.seq - p.part != q.seq - q.part) } }) →
      exec (.lastingCrosslinkFault d slot t) s = .next { u with
        la := u.la.raise .la 49 slot.val, lb := u.lb.raise .lb 49 slot.val }) ∧
    (∀ frame : Fin 65536,
      DieDoes (.controlLinkResend d frame t) s d t (fun x => x.raise d 52 frame.val) ∧
      DieDoes (.controlLinkFault d 0 frame t) s d t (fun x =>
        LogicDie.raise { x with pw := { x.pw with ctlFail := true } } d 53 frame.val) ∧
      DieDoes (.controlLinkFault d 1 frame t) s d t (fun x =>
        LogicDie.raise { x with inSide := { x.inSide with senseFail := setBit x.inSide.senseFail 0 } } d 54 frame.val) ∧
      DieDoes (.controlLinkFault d 2 frame t) s d t (fun x =>
        LogicDie.raise { x with inSide := { x.inSide with senseFail := setBit x.inSide.senseFail 1 } } d 55 frame.val))

/-- R9, R10, R13, R465, R466: a write to a register of a logic die. One that is not 8 bytes at a multiple of 8, that hits no register, or that sets a bit no
field names is discarded whole and is fault source 9 with its address and writer; a permitted write of a register whose block states nothing more
gives every field what its access type says and changes nothing else of the device; a W1C bit that hardware sets in the same cycle stays set. Of two
writes of one instant, in either order, an RW field keeps that of the party that R466 applies last. -/
def Sys2Proof.Claims.DieRegisterWrites : Prop :=
  ∀ (s : State) d p a width v hw t,
    ((width ≠ 8 ∨ a % 8 ≠ 0 ∨ (regAt d a = none ∧ ¬ (0x40024000 ≤ a ∧ a < 0x40028000)) ∨
        (∃ r i b, regAt d a = some (r, i) ∧ unnamed r b ∧ v.getLsbD b = true)) →
      DieDoes (.writeAccess (some d) p a width ⟨v, hw⟩ t) s d t (fun x => x.raise d 9 (errDetail p a))) ∧
    (∀ r i (x : LogicDie), x = (s.die d).at t → width = 8 → a % 8 = 0 → regAt d a = some (r, i) → r ∉ ownDieRule →
      x.busDenies d p a v = false → x.before = x.regs →
      ((∀ w ∈ x.posts, w.2.1 = a → partyRank w.1 ≤ partyRank p) →
        ∃ new, DieDoes (.writeAccess (some d) p a width ⟨v, hw⟩ t) s d t (fun x => { x.wr r i new with posts := (p, a, v) :: x.posts }) ∧
          FieldRule r (x.locked r) (x.rd r i) v hw new) ∧
      (∀ q w l, x.posts = (q, a, w) :: l → partyRank p < partyRank q →
        ∃ new l', DieDoes (.writeAccess (some d) p a width ⟨v, hw⟩ t) s d t (fun x => { x.wr r i new with posts := l' :: x.posts }) ∧
          ∀ f ∈ r.layout.fields, f.acc = .rw → Word.bits new f.hi f.lo = Word.bits w f.hi f.lo)) ∧
    ((s.die d).g F.GT_TBASE_TIME < t → ((s.die d).at t).before = ((s.die d).at t).regs ∧ ((s.die d).at t).posts = [])

/-- R9, R10, R13, R329: the same of the host die's registers, at BAR0 offsets, with host source 33; while the host die is held in reset a write changes
nothing. -/
def Sys2Proof.Claims.HostRegisterWrites : Prop :=
  ∀ (s : State) p a width v hw t,
    (s.host.pw.nrstAt.isSome = true → HostDoes (.writeAccess none p a width ⟨v, hw⟩ t) s t id) ∧
    (s.host.pw.nrstAt = none →
      ((width ≠ 8 ∨ a % 8 ≠ 0 ∨ hostRegAt a = none ∨
          (∃ r i b, hostRegAt a = some (r, i) ∧ unnamed r b ∧ v.getLsbD b = true)) →
        HostDoes (.writeAccess none p a width ⟨v, hw⟩ t) s t (fun h => h.raise 33 (errDetail p a))) ∧
      (∀ r i, width = 8 → a % 8 = 0 → hostRegAt a = some (r, i) → r ∉ ownHostRule → (s.host.at t).busDenies p a v = false →
        (s.host.at t).before = (s.host.at t).regs →
        ∃ new, HostDoes (.writeAccess none p a width ⟨v, hw⟩ t) s t (fun h => h.wr r i new) ∧
          FieldRule r ((s.host.at t).locked r) ((s.host.at t).rd r i) v hw new))

/-- R12, R41: a block's lock bit is set; writing it again changes nothing. The SI_ and GT_ locks are SI_LOCK and GT_LOCK. The FOLD_ lock checks the configuration for the present level: what is not
admitted sets CFG_REJECT. -/
def Sys2Proof.Claims.LockBits : Prop :=
  ∀ (s : State) d t (x : LogicDie), x = (s.die d).at t →
    (∀ b, x.g (DieBlock.bit b) = 1 → DieDoes (.lock (.die d b) t) s d t id) ∧
    (∀ b ∈ [DieBlock.fc, .pwr, .tp, .so, .lmp, .vct, .bist, .pd], x.g (DieBlock.bit b) ≠ 1 →
      DieDoes (.lock (.die d b) t) s d t (fun x => x.p (DieBlock.bit b) 1)) ∧
    (s.host.pw.nrstAt = none → ∀ b, HostDoes (.lock (.host b) t) s t (fun h => h.p (HostBlock.bit b) 1)) ∧
    exec (.lock (.die d .si) t) s = exec (.siLock d t) s ∧ exec (.lock (.die d .gt) t) s = exec (.gtLock d t) s ∧
    (x.g F.ADC_CTRL_LOCK ≠ 1 → DieDoes (.lock (.die d .adc) t) s d t LogicDie.adcLock) ∧
    (∀ i ∈ [Instr.lock (.die d .fold) t, .foldLock d t], x.g F.FOLD_CTRL_LOCK ≠ 1 →
      (x.admits (x.g F.PWR_PL_CUR) = true → DieDoes i s d t (fun x => x.p F.FOLD_CTRL_LOCK 1)) ∧
      (x.admits (x.g F.PWR_PL_CUR) = false →
        DieDoes i s d t (fun x => (x.p F.FOLD_CTRL_LOCK 1).p F.FOLD_STATUS_CFG_REJECT 1)))

/-- R9, R13, R292, R431, R437: FOLD_EXEC.MAX clears at once when a party other than the fold task reads it, unless hardware sets it in the same
cycle, and only in commit after a fold-task load, which
holds the clear with what it returned; a DMA run that ends without an ECC finding feeds its bytes to its unit and leaves BUSY, and one that
meets a lasting finding raises the source of its memory. -/
def Sys2Proof.Claims.ReadClearAndDma : Prop :=
  ∀ (s : State) d t (x : LogicDie), x = (s.die d).at t →
    (∀ p a, a - a % 8 = regAddr .FOLD_EXEC 0 →
      (p ≠ .foldTask → DieDoes (.rcFieldRead d p ⟨a, false⟩ t) s d t (fun x => x.p F.FOLD_EXEC_MAX 0) ∧
        DieDoes (.rcFieldRead d p ⟨a, true⟩ t) s d t id) ∧
      (x.core.stores.length < 32 → ∀ w,
        DieDoes (.rcFieldRead d .foldTask ⟨a, w⟩ t) s d t (fun x => { x with
          core := { x.core with stores := x.core.stores ++ [.rcClear (a - a % 8) (x.rd .FOLD_EXEC 0)] } }))) ∧
    (∀ u : Fin 4, ∀ at_ e, x.g F.CK_STAT_BUSY u.val ≠ 1 → DieDoes (.dmaRunEnd d u e at_ t) s d t id) ∧
    (∀ u : Fin 4, ∀ at_, x.g F.CK_STAT_BUSY u.val = 1 → (x.region at_).memory = none →
      DieDoes (.dmaRunEnd d u .clean at_ t) s d t (fun x => (x.dmaRead d u.val).1.ckDmaEnd d u.val .clean (x.dmaRead d u.val).2)) ∧
    (∀ u : Fin 4, ∀ at_ m, x.g F.CK_STAT_BUSY u.val = 1 → (x.region at_).memory = some m →
      DieDoes (.dmaRunEnd d u .lasting at_ t) s d t (fun x =>
        let r := (x.raise d (17 + 2 * m) at_).dmaRead d u.val
        r.1.ckDmaEnd d u.val .lasting r.2))

/-- R329, R330, R338: the download window and the quad-SPI target. READ ID, READ STATUS (which clears CRCERR), window and register accesses; while a
submission or download is in progress every command but READ STATUS is ignored; a burst whose CRC-32C does not match is discarded with CRCERR
and host source 18; a window write to a validated image is an access error. -/
def Sys2Proof.Claims.QuadSpiAndWindow : Prop :=
  ∀ (s : State) t (h : HostDie), h = s.host.at t → h.pw.nrstAt = none →
    HostDoes (.readStatus t) s t (fun h => { h with
      answer := [h.g F.HSTL_DL_STAT_BUSY + 2 * (if h.crcErr then 1 else 0) + 4 * h.g F.HSTL_STAT_CACHE_VALID +
        8 * h.g F.HSTL_DL_STAT_READY]
      crcErr := false }) ∧
    (h.g F.HSTL_DL_STAT_BUSY = 1 → ∀ i, (i = .readId t ∨ (∃ o b c, i = .windowWrite o b c t) ∨ (∃ o n, i = .windowRead o n t) ∨
      (∃ o v c, i = .registerWrite o v c t) ∨ (∃ o, i = .registerRead o t)) → HostDoes i s t id) ∧
    (h.g F.HSTL_DL_STAT_BUSY ≠ 1 →
      HostDoes (.readId t) s t (fun h => { h with answer := [0x47, 0x58, 0x96, 0x40] }) ∧
      (∀ (o : Fin 16777216) (n : Nat), HostDoes (.windowRead o n t) s t (fun h => { h with
        answer := (List.range n).map (fun i => if o.val + i < 0x1000000 then h.byte (0x1000000 + o.val + i) else 0) })) ∧
      (∀ (o : Fin 16777216) (b : List Byte) (c : BitVec 32), 8 ≤ b.length → b.length ≤ 4096 →
        (crc32c (b.map (·.toNat)) ≠ c.toNat → HostDoes (.windowWrite o b c t) s t (fun h => HostDie.raise { h with crcErr := true } 18 0)) ∧
        (crc32c (b.map (·.toNat)) = c.toNat →
          (h.g F.HSTL_STAT_CACHE_VALID = 1 →
            HostDoes (.windowWrite o b c t) s t (fun h => h.raise 33 (errDetail .hostBar o.val))) ∧
          (h.g F.HSTL_STAT_CACHE_VALID ≠ 1 → ∃ m, HostDoes (.windowWrite o b c t) s t (fun h => { h with mem := m }) ∧
            (∀ k, k < b.length → o.val + k < 0x1000000 →
              Sparse.get (fun _ => 0#8) m (0x1000000 + o.val + k) = b.getD k 0) ∧
            (∀ y, y < 0x1000000 + o.val ∨ 0x1000000 + o.val + b.length ≤ y ∨ 0x2000000 ≤ y →
              Sparse.get (fun _ => 0#8) m y = Sparse.get (fun _ => 0#8) h.mem y)))) ∧
      (∀ (o : Fin 16777216) (v : Word) (c : BitVec 32), crc32c (bytesLE 8 v.toNat) ≠ c.toNat →
        HostDoes (.registerWrite o v c t) s t (fun h => HostDie.raise { h with crcErr := true } 18 0)) ∧
      (∀ (o : Fin 16777216) (v : Word) (c : BitVec 32), crc32c (bytesLE 8 v.toNat) = c.toNat →
        exec (.registerWrite o v c t) s = exec (.writeAccess none .hostBar o.val 8 ⟨v, 0⟩ t) s) ∧
      (∀ o : Fin 16777216, o.val % 8 = 0 → hostRegAt o.val ≠ some (.FOLD_SNAP_LEASE, 0) →
        HostDoes (.registerRead o t) s t (fun h => { h with answer := bytesLE 8 (h.busPeek o.val).toNat }) ∧
        HostDoes (.bar0Read o 8 t) s t (fun h => { h with answer := bytesLE 8 (h.busPeek o.val).toNat }))) ∧
    (∀ (o : Fin 16777216) (n : Fin 4097), ¬ (n.val = 4 ∧ o.val % 4 = 0) → (n.val = 0 ∨ n.val % 8 ≠ 0 ∨ o.val % 8 ≠ 0) →
      HostDoes (.bar0Read o n t) s t (fun h =>
        { h.raise 33 (errDetail .hostBar o.val) with answer := List.replicate n.val 0 })) ∧
    (∀ (o : Fin 16777216) (b : List Byte), h.g F.HSTL_STAT_CACHE_VALID = 1 →
      HostDoes (.downloadWindowWrite o b t) s t (fun h => h.raise 33 (errDetail .hostBar o.val))) ∧
    (∀ (o : Fin 16777216) (b : List Byte), h.g F.HSTL_STAT_CACHE_VALID ≠ 1 →
      ∃ m, HostDoes (.downloadWindowWrite o b t) s t (fun h => { h with mem := m }) ∧
        ∀ k, k < b.length → o.val + k < 0x1000000 → Sparse.get (fun _ => 0#8) m (0x1000000 + o.val + k) = b.getD k 0) ∧
    (∀ ofs : Fin 1048576, HostDoes (.bar2Write ofs t) s t (fun h => h.raise 33 (errDetail .hostBar ofs.val)))

/-- R64-R68, R70, R344: the snapshot's lease and the mirror. A release in the cycle of an expiry takes EXPIRED back (R66). A read of FOLD_SNAP_LEASE grants a lease, numbered 1 to 65,535 in turn, where none is
held; its release, or its expiry LEASE_US after the grant with EXPIRED, ends it and lets the buffer with the newer fold become current; a read of
the snapshot returns the current buffer; a mirror slot that completes sets HEAD and LAST and signals vector 1 where IRQ is set. -/
def Sys2Proof.Claims.SnapshotLease : Prop :=
  ∀ (s : State) t (h : HostDie), h = s.host.at t → h.pw.nrstAt = none →
    (h.snap.lease = none →
      (∃ id, 0 < id ∧ id ≤ 0xFFFF ∧ (h.snap.lastId < 0xFFFF → id = h.snap.lastId + 1) ∧
        HostDoes (.foldSnapLease t) s t (fun h =>
          let h := (h.p F.FOLD_SNAP_LEASE_LEASE_ID id).p F.FOLD_SNAP_CHECK_LEASE_ID id
          { h with
            snap := { h.snap with lease := some (id, h.now), lastId := id }
            answer := bytesLE 8 (h.rd .FOLD_SNAP_LEASE 0).toNat })) ∧
      (h.snap.expiredAt ≠ some h.now → HostDoes (.foldSnapRelease t) s t id) ∧
      (h.snap.expiredAt = some h.now → HostDoes (.foldSnapRelease t) s t (fun h =>
        { h.p F.FOLD_SNAP_STATUS_EXPIRED 0 with snap := { h.snap with expiredAt := none } })) ∧
      HostDoes (.leaseExpiry t) s t id) ∧
    (∀ n at_, h.snap.lease = some (n, at_) →
      HostDoes (.foldSnapLease t) s t (fun h => { h with answer := bytesLE 8 (h.rd .FOLD_SNAP_LEASE 0).toNat }) ∧
      HostDoes (.foldSnapRelease t) s t (fun h =>
        let h := (h.p F.FOLD_SNAP_LEASE_LEASE_ID 0).p F.FOLD_SNAP_CHECK_LEASE_ID 0
        { h with snap := { h.snap with lease := none, curB := h.snap.curB != h.snap.newer, newer := false } }) ∧
      (t < at_ + h.g F.FOLD_SNAP_CFG_LEASE_US * 1000 → HostDoes (.leaseExpiry t) s t id) ∧
      (at_ + h.g F.FOLD_SNAP_CFG_LEASE_US * 1000 ≤ t → HostDoes (.leaseExpiry t) s t (fun h =>
        let was := h.g F.FOLD_SNAP_STATUS_EXPIRED
        let h := ((h.p F.FOLD_SNAP_STATUS_EXPIRED 1).p F.FOLD_SNAP_LEASE_LEASE_ID 0).p F.FOLD_SNAP_CHECK_LEASE_ID 0
        { h with
          snap := { h.snap with
            lease := none, curB := h.snap.curB != h.snap.newer, newer := false
            expiredAt := if was = 1 then none else some h.now } }))) ∧
    (∀ (ofs : Fin 1048576) (n : Fin 4097), HostDoes (.snapshotRead ofs n t) s t (fun h => { h with
      answer := (List.range n.val).map (fun i => (Sparse.get (fun _ => 0#8) (if h.snap.curB then h.snap.bufB else h.snap.bufA)
        (ofs.val + i)).toNat) })) ∧
    (h.snap.slot = none → HostDoes (.mirrorSlotComplete t) s t id) ∧
    (∀ i n, h.snap.slot = some (i, n) → HostDoes (.mirrorSlotComplete t) s t (fun h =>
      let h := { h with snap := { h.snap with slot := none } }
      let h := (h.p F.HSTL_MIR_HEAD_NUMBER n).p F.HSTL_MIR_STAT_LAST i
      if h.g F.HSTL_MIR_CFG_IRQ = 1 then { h with msix := h.msix ++ [1] } else h))

/-- R36, R61, R324: a FOLD_DONE waits for its partner; two of one number with equal digests are published, with different digests the fold is withheld
with MISMATCH and host source 32; one that a later fold overtakes is withheld too; one marked missed is only remembered. A publication becomes current unless a lease granted
at an earlier instant is held. -/
def Sys2Proof.Claims.FoldDonePairing : Prop :=
  ∀ (s : State) t l master (f : FoldDone), (s.modHost (·.at t)).incoming l true = some (.foldDone f) →
    (f.missed = true → HostHears (.foldDone l master t) s l t (fun h => { h with
      folds := setBit h.folds l.num, snap := { h.snap with missed := true } })) ∧
    (f.missed = false → s.host.snap.wait l = none → s.host.snap.wait (other l) = none →
      HostHears (.foldDone l master t) s l t (fun h => { h with
        folds := setBit h.folds l.num, snap := h.snap.setWait l (some f) })) ∧
    (∀ old, f.missed = false → s.host.snap.wait l = some old → s.host.snap.wait (other l) = none →
      HostHears (.foldDone l master t) s l t (fun h =>
        let h : HostDie := { h with folds := setBit h.folds l.num }
        let h := (h.p F.FOLD_SNAP_STATUS_MISMATCH 1).raise 32 (old.word 0)
        { h with snap := h.snap.setWait l (some f) })) ∧
    (∀ g, f.missed = false → s.host.snap.wait l = none → s.host.snap.wait (other l) = some g → g.word 0 = f.word 0 →
      (g.word 3 ≠ f.word 3 → HostHears (.foldDone l master t) s l t (fun h =>
        let h := { h with folds := setBit h.folds l.num, snap := { h.snap with waitA := none, waitB := none } }
        (h.p F.FOLD_SNAP_STATUS_MISMATCH 1).raise 32 (f.word 0))) ∧
      (g.word 3 = f.word 3 → HostHears (.foldDone l master t) s l t (fun h =>
        HostDie.publish { h with folds := setBit h.folds l.num, snap := { h.snap with waitA := none, waitB := none } }
          (if l = .la then f else g) (if l = .la then g else f) master))) ∧
    (∀ h' : HostDie, ∀ a b m, (h'.publish a b m).g F.FOLD_SNAP_LAST_NUMBER = a.word 0 % 2 ^ 64 ∧
      (h'.publish a b m).snap.missed = false ∧
      ((h'.snap.lease = none ∨ ∃ n, h'.snap.lease = some (n, h'.now) ∧ h'.snap.newer = false) →
        (h'.publish a b m).snap.curB = !h'.snap.curB ∧ (h'.publish a b m).snap.newer = false) ∧
      (∀ n at_, h'.snap.lease = some (n, at_) → (at_ ≠ h'.now ∨ h'.snap.newer = true) →
        (h'.publish a b m).snap.curB = h'.snap.curB ∧ (h'.publish a b m).snap.newer = true))

/-- R316-R318: control words and acknowledgement at a logic die and at the host die. A control word sent names the last message accepted; what it names and every
earlier message leave the sender's unacknowledged list, the link carries control words, and queued messages may start. -/
def Sys2Proof.Claims.ControlWords : Prop :=
  ∀ (s : State) l t (e : LinkEnd) (u : State) (h : Bool), u = s.endAt l h t → e = u.linkEnd l h →
    (u.sendsCtl l h t = true → exec (.controlWordSend l h t) s = .next (u.setLinkEnd l h { e with
      cw := if e.heard = true ∧ e.down = false then some ((e.expect + (2 ^ 32 - 1)) % 2 ^ 32) else none })) ∧
    (u.sendsCtl l h t = false → exec (.controlWordSend l h t) s = .next u) ∧
    ((e.down = true ∨ u.ctlArrives l (!h) t = false ∨ u.hears l h = false) → exec (.controlWord l h t) s = .next u) ∧
    (e.down = false → u.sendsCtl l (!h) t = true → u.hears l h = true →
      ((u.linkEnd l (!h)).cw = none →
        exec (.controlWord l h t) s = .next ((u.setLinkEnd l h { e with missed := false, cwAt := t }).setCarries l h 1)) ∧
      (∀ done q rest, e.unacked = done ++ q :: rest → (∀ p ∈ done, p.seq ≠ q.seq) → (u.linkEnd l (!h)).cw = some q.seq →
        (h = false → exec (.controlWord l h t) s = .next (u.setDie l (LogicDie.pump
          ((({ (u.die l) with stl := { e with missed := false, cwAt := t, unacked := rest } } : LogicDie).p F.STL_STAT_LINK 1).logAcked
            (done ++ [q]))))) ∧
        (h = true → exec (.controlWord l h t) s = .next (u.modHost (fun k =>
          ((((k.setLink l { e with missed := false, cwAt := t, unacked := rest }).p (linkBit l) 1).reqAcked l (done ++ [q])).pump l)))))) ∧
    (∀ (x : LogicDie) done, (x.logAcked done).g F.LOG_STAT_UNSENT =
      x.g F.LOG_STAT_UNSENT - min x.logInFlight ((done.map (fun e => e.msg.records)).foldl (· + ·) 0))

/-- R318, R319, R320: a message that has its resend still to come and stays unacknowledged 2 µs after its last byte left is sent again with every
later one, each counted in RESENT with source 50 or host source 34; a silence of control words for 2 µs is a missed acknowledgement that sends the
oldest again; a second miss is a lasting link fault: the session ends, nothing stays unacknowledged, no control words for 10 µs; a logic die sets
LASTING and NORESUME and raises source 51, the host die ABSENT with host source 35. -/
def Sys2Proof.Claims.ResendAndLinkFault : Prop :=
  ∀ (s : State) l t,
    (∀ (e : LinkEnd) (x : LogicDie), x = (s.die l).at t → e = x.stl → e.down = false → x.boot.phase.alive = true →
      (∀ kept q rest, e.unacked = kept ++ q :: rest → (∀ p ∈ kept, p.resent = true ∨ t < p.left + 2000) → q.resent = false →
        q.left + 2000 ≤ t →
        DieDoes (.stileResend l false t) s l t (fun x =>
          (q :: rest).foldl (fun x q => (x.count F.STL_CNT_RESENT).raise l 50 q.msg.code)
            { x with stl := { e with
                unacked := kept ++ (sendAgain (max e.busy t) (q :: rest)).2, busy := (sendAgain (max e.busy t) (q :: rest)).1 } })) ∧
      ((∀ p ∈ e.unacked, p.resent = true ∨ t < p.left + 2000) → DieDoes (.stileResend l false t) s l t id) ∧
      (e.missed = false → e.cwAt + 2000 ≤ t →
        (∀ q rest, e.unacked = q :: rest → q.resent = false → DieDoes (.controlWordSilence l false t) s l t (fun x =>
          (({ x with stl := { e with
              missed := true, busy := max e.busy t + q.msg.span
              unacked := { q with resent := true, left := max e.busy t + q.msg.span } :: rest } } : LogicDie).count
            F.STL_CNT_RESENT).raise l 50 q.msg.code)) ∧
        ((∀ q ∈ e.unacked.head?, q.resent = true) → DieDoes (.controlWordSilence l false t) s l t (fun x =>
          { x with stl := { e with missed := true } }))) ∧
      (e.missed = true ∨ t < e.cwAt + 2000 → DieDoes (.controlWordSilence l false t) s l t id) ∧
      (∀ code, code = (match e.unacked with | [] => 0 | q :: _ => q.msg.code) →
        ((e.missed = true ∧ e.cwAt + 4000 ≤ t) ∨ ∃ q ∈ e.unacked, q.resent = true ∧ q.left + 2000 ≤ t) →
        ∃ n, DieDoes (.lastingLinkFault l false t) s l t (fun x =>
          LogicDie.raise ((((({ x with
            stl := { e with
              opened := false, heard := false, down := true, missed := false, unacked := [], cw := none, quiet := t + 10000 }
            logInFlight := n } : LogicDie).p F.STL_STAT_LINK 0).p F.STL_STAT_SESSION 0).p F.STL_STAT_LASTING 1).p
              F.FC_CTRL_NORESUME 1) l 51 code)) ∧
      ((e.missed = false ∨ t < e.cwAt + 4000) → (∀ q ∈ e.unacked, q.resent = false ∨ t < q.left + 2000) →
        DieDoes (.lastingLinkFault l false t) s l t id)) ∧
    (∀ (e : LinkEnd) (k : HostDie), k = s.host.at t → e = k.link l → e.down = false → k.muted = false → k.pw.nrstAt = none →
      k.xhCut = false →
      (∀ kept q rest, e.unacked = kept ++ q :: rest → (∀ p ∈ kept, p.resent = true ∨ t < p.left + 2000) → q.resent = false →
        q.left + 2000 ≤ t →
        HostDoes (.stileResend l true t) s t (fun k =>
          (q :: rest).foldl (fun k q => (k.count F.HSTL_CNT_RESENT).raise 34 q.msg.code)
            (k.setLink l { e with
              unacked := kept ++ (sendAgain (max e.busy t) (q :: rest)).2, busy := (sendAgain (max e.busy t) (q :: rest)).1 }))) ∧
      (e.missed = false → e.cwAt + 2000 ≤ t → (∀ q ∈ e.unacked.head?, q.resent = true) →
        HostDoes (.controlWordSilence l true t) s t (fun k => k.setLink l { e with missed := true })) ∧
      (∀ code, code = (match e.unacked with | [] => 0 | q :: _ => q.msg.code) →
        ((e.missed = true ∧ e.cwAt + 4000 ≤ t) ∨ ∃ q ∈ e.unacked, q.resent = true ∧ q.left + 2000 ≤ t) → k.down.busy = false →
        HostDoes (.lastingLinkFault l true t) s t (fun k =>
          ((((k.setLink l { e with
              opened := false, heard := false, down := true, missed := false, unacked := [], cw := none, quiet := t + 10000 }).p
            (linkBit l) 0).p (sessBit l) 0).p F.HSTL_STAT_ABSENT 1).raise 35 code)))

/-- R17, R317, R322: a message outside the set is discarded and counted. R320, R334: when control words arrive again at a logic die that a lasting fault has stopped
and both ends may send, it opens a new session with HELLO of reason 3, message number 0. -/
def Sys2Proof.Claims.DiscardAndReturn : Prop :=
  ∀ (s : State) l t,
    (((s.die l).at t).boot.phase.alive = true →
      DieDoes (.stileMessageDiscarded l false t) s l t (fun x => x.count F.STL_CNT_DISCARD)) ∧
    (s.host.muted = false → s.host.pw.nrstAt = none → s.host.xhCut = false →
      HostDoes (.stileMessageDiscarded l true t) s t (fun h => h.count F.HSTL_CNT_DISCARD)) ∧
    ((s.die l).stl.down = false → DieDoes (.linkReturned l false t) s l t id) ∧
    ((s.die l).stl.down = true → ((s.die l).at t).boot.phase.alive = true → (s.die l).stl.quiet ≤ t →
      (s.host.link l).quiet ≤ t → s.host.muted = false → s.host.pw.nrstAt = none → s.host.xhCut = false →
      ∃ v : LogicDie, exec (.linkReturned l false t) s = .next (s.setDie l v) ∧
        v.stl.opened = true ∧ v.stl.down = false ∧ v.stl.next = 1 ∧ v.stl.expect = 0 ∧
        (∃ (hl : Hello) (left : Nat), hl.reason = 3 ∧ v.stl.unacked = [⟨0, .hello hl, false, false, left⟩]) ∧
        v.g F.STL_STAT_REASON = 3 ∧ v.g F.STL_STAT_LINK = 1 ∧ v.g F.STL_VERD_VALID = 0)

/-- R47, R326: the host die sends its time on every open link; a logic die that receives a valid TIME_SYNC at its timebase t takes t − 80 ns − TIME as its
alignment error, and is ALIGNED within 1 µs; an invalid one clears VALID. -/
def Sys2Proof.Claims.TimeSynchronisation : Prop :=
  ∀ (s : State) d t time,
    ((s.modDie d (·.at t)).incoming d false = some (.timeSync time false) →
      DieHears (.timeSync d t) s d t (fun x => x.p F.FOLD_ALIGN_ERR_VALID 0)) ∧
    (∀ off : Int, off = (t : Int) - 80 - (time : Int) → -(2 ^ 31) ≤ off → off < 2 ^ 31 →
      (s.modDie d (·.at t)).incoming d false = some (.timeSync time true) →
      ∃ v : LogicDie, exec (.timeSync d t) s = .next ((onItsWay (s.modDie d (·.at t)) d false).setDie d v) ∧
        (v.rd .FOLD_ALIGN_ERR 0).toNat % 2 ^ 32 = (off % 2 ^ 32).toNat ∧ v.g F.FOLD_ALIGN_ERR_VALID = 1 ∧
        (v.g F.FOLD_STATUS_ALIGNED = 1 ↔ -1000 ≤ off ∧ off ≤ 1000) ∧ v.boot.sync = some (time, t)) ∧
    (s.host.pw.nrstAt = none →
      ((s.host.linkA.opened = false ∧ s.host.linkB.opened = false) → HostDoes (.timeSyncSend t) s t id) ∧
      ((∀ l, ((s.host.link l).opened = true ∧ (s.host.link l).heard = true)) → HostDoes (.timeSyncSend t) s t (fun h =>
        (h.send .la (.timeSync t h.timeValid)).send .lb (.timeSync t h.timeValid))))

/-- R303, R325: a fault note taken from the crosslink or from the host die. A note of class 2 or 3 that marks the device safe raises source 57 or 58 on a die that is
not safe; a note at the host die enters its receive ring. -/
def Sys2Proof.Claims.FaultNotes : Prop :=
  ∀ (s : State) d t (n : FaultNote),
    ((s.modDie d (·.at t)).incoming d false = some (.faultNote n) →
      DieHears (.faultNote .fromHost d t) s d t (fun x =>
        if n.devsafe then x.raiseAll d [⟨58, n.csrc, none, false, n.forced⟩] else x)) ∧
    ((s.modHost (·.at t)).incoming d true = some (.faultNote n) → n.cls < 2 →
      ∃ bs, bs.getD 0 0 = 0x0D ∧ HostHears (.faultNote .toHost d t) s d t (fun h => h.ringPut bs)) ∧
    ((∀ m, (s.modHost (·.at t)).incoming d true = some m → ∀ n, m ≠ .faultNote n) →
      HostDoes (.faultNote .toHost d t) s t id) ∧
    (∀ pre rest, (s.die d).xl.inbox = pre ++ .fault n :: rest → (∀ m, .fault m ∉ pre) →
      DieDoes (.faultNote .crosslink d t) s d t (fun x =>
        let x := { x with xl := { x.xl with inbox := pre ++ rest } }
        if n.devsafe then x.raiseAll d [⟨57, n.csrc, none, false, n.forced⟩] else x))

/-- The head of a transmit-ring entry at `a` (R322): FLAGS and the fields marked zero are zero, ROUTE names the host die as the sender, LEN is `n`. -/
def Sys2Proof.Claims.goodHead (h : HostDie) (a n : Nat) : Prop :=
  h.byte (a + 1) = 0 ∧ h.byte (a + 2) % 16 = 0 ∧ h.byte (a + 3) = 0 ∧ ofBytesLE (h.bytes (a + 6) 2) = 0 ∧
    ofBytesLE (h.bytes (a + 4) 2) = n

/-- R322, R345, R379, R412, R451: the host die's rings. A transmit-ring entry at TAIL goes to the die its ROUTE names, POWER_REQ and BIST_CMD by their type, as it
stands where it is outside the message set; one of another type, or a DEBUG_REQ the host die drops, is marked BAD; TAIL advances each time. Messages received enter the receive ring: state reports update
PWR_FREP, grants, refusals, results and debug replies only enter; a full ring drops them with OVF. -/
def Sys2Proof.Claims.HostRings : Prop :=
  ∀ (s : State) t (h : HostDie), h = s.host.at t → h.pw.nrstAt = none →
    (h.g F.HSTL_TXPTR_TAIL = h.g F.HSTL_TXPTR_HEAD → HostDoes (.transmitRingEntry t) s t id) ∧
    (∀ a k p, k = h.g F.HSTL_TXPTR_TAIL → k ≠ h.g F.HSTL_TXPTR_HEAD → a = h.g F.HSTL_TXRING_BASE * 4096 + 1040 * k →
      p = h.bytes (a + 12) (min (ofBytesLE (h.bytes (a + 4) 2)) 1028) →
      (h.byte (a + 2) / 16 ≠ 1 → h.byte (a + 2) / 16 ≠ 2 → HostDoes (.transmitRingEntry t) s t (fun h =>
        (h.p F.HSTL_TXPTR_TAIL ((k + 1) % 64)).p F.HSTL_TXPTR_FLAG 1)) ∧
      (∀ l : Ch, h.byte (a + 2) / 16 = l.num + 1 →
        (h.byte a = 0x0E → goodHead h a 16 → ofBytesLE ((p.drop 3).take 5) = 0 → HostDoes (.transmitRingEntry t) s t (fun h =>
          (h.p F.HSTL_TXPTR_TAIL ((k + 1) % 64)).send l (.powerReq (ofBytesLE (p.take 1)) (ofBytesLE ((p.drop 1).take 1))
            (ofBytesLE ((p.drop 2).take 1)) (ofBytesLE ((p.drop 8).take 8))))) ∧
        (h.byte a = 0x12 → goodHead h a 32 → ofBytesLE ((p.drop 8).take 24) = 0 → h.bistWait = [] → h.bistOut < 2 → HostDoes (.transmitRingEntry t) s t (fun h =>
          { (h.p F.HSTL_TXPTR_TAIL ((k + 1) % 64)).send l (.bistCmd (ofBytesLE (p.take 2)) (ofBytesLE ((p.drop 2).take 2))
              (ofBytesLE ((p.drop 4).take 4))) with bistOut := h.bistOut + 1 })) ∧
        (h.byte a = 0x12 → goodHead h a 32 → ofBytesLE ((p.drop 8).take 24) = 0 → 2 ≤ h.bistOut → HostDoes (.transmitRingEntry t) s t (fun h =>
          { h.p F.HSTL_TXPTR_TAIL ((k + 1) % 64) with bistWait := h.bistWait ++ [(l, ⟨ofBytesLE (p.take 2),
              ofBytesLE ((p.drop 2).take 2), ofBytesLE ((p.drop 4).take 4)⟩)] })) ∧
        (h.byte a ∈ [0x0E, 0x12] → (∀ n, ¬ goodHead h a n) → HostDoes (.transmitRingEntry t) s t (fun h =>
          (h.p F.HSTL_TXPTR_TAIL ((k + 1) % 64)).send l (.outside (h.byte a)
            (h.bytes a (12 + min (ofBytesLE (h.bytes (a + 4) 2)) 1028))))) ∧
        (h.byte a ∉ [0x0E, 0x10, 0x12] → HostDoes (.transmitRingEntry t) s t (fun h =>
          (h.p F.HSTL_TXPTR_TAIL ((k + 1) % 64)).p F.HSTL_TXPTR_FLAG 1)))) ∧
    (∀ h' : HostDie, ∀ bs, (h'.g F.HSTL_RXPTR_HEAD + 1) % 64 = h'.g F.HSTL_RXPTR_TAIL →
      h'.ringPut bs = h'.p F.HSTL_RXPTR_FLAG 1)

/-- R327, R379, R381, R413, R451: what the host die receives: each message enters the receive ring; a state report moves PWR_FREP and PAUSED, a grant or a refusal nothing more,
a BIST_RES frees the place of one command in flight. -/
def Sys2Proof.Claims.HostReceives : Prop :=
  ∀ (s : State) t l, ∀ m, (s.modHost (·.at t)).incoming l true = some m →
    (∃ bs, bs.getD 0 0 = m.code ∧
      ((∃ k st time, m = .powerReq 2 k st time) → HostHears (.powerReqGrant l t) s l t (fun h => h.ringPut bs)) ∧
      ((∃ k st time, m = .powerReq 3 k st time) → HostHears (.powerReqRefusal l t) s l t (fun h => h.ringPut bs)) ∧
      ((∃ n op data, m = .debugRsp n op data) → HostHears (.debugRsp l t) s l t (fun h => h.ringPut bs)) ∧
      ((∃ a b c e f g, m = .bistRes a b c e f g) → s.host.bistWait = [] →
        HostHears (.bistRes l t) s l t (fun h => { h.ringPut bs with bistOut := s.host.bistOut - 1 })) ∧
      (∀ k st time, m = .powerReq 4 k st time → s.host.g F.PWR_HWAKE_FIELD ≠ 1 → k < 10 → k ≠ 0 →
        HostHears (.powerReqStateReport l t) s l t (fun h => (h.ringPut bs).setB (frepOn l) k (st == domOn))))

/-- R343, R440-R442: log records. A LOG_RECORD's records enter the merged log in order; a full log overwrites the oldest and counts MLOST where it had not been streamed;
the stream writes the oldest unstreamed record to the host ring at HHEAD while there is room, counts HDROP where the bus master drops the write, and
signals vector 2 at the threshold; a logic die sends its unsent records with the count of those dropped. -/
def Sys2Proof.Claims.LogTransport : Prop :=
  (∀ (s : State) t l recs n, (s.modHost (·.at t)).incoming l true = some (.logRecord recs n) →
    HostHears (.logRecord l t) s l t (fun h => recs.foldl (fun h r => h.merge r) h)) ∧
  (∀ (h : HostDie) r, (h.merge r).g F.LOG_HSTAT_WRITE = (h.g F.LOG_HSTAT_WRITE + 1) % 32768 ∧
    Sparse.get (fun _ => LogRec.zero) (h.merge r).mlog (h.g F.LOG_HSTAT_WRITE) = r ∧
    (h.unstreamed < 32768 → (h.merge r).unstreamed = h.unstreamed + 1 ∧
      (h.merge r).g F.LOG_HSTAT_MLOST = h.g F.LOG_HSTAT_MLOST) ∧
    (32768 ≤ h.unstreamed → (h.merge r).unstreamed = h.unstreamed ∧ (h.merge r).g F.LOG_HSTAT_MLOST =
      min (h.g F.LOG_HSTAT_MLOST + 1) (2 ^ (F.LOG_HSTAT_MLOST.hi + 1 - F.LOG_HSTAT_MLOST.lo) - 1))) ∧
  (∀ (s : State) t (h : HostDie) n, h = s.host.at t → h.pw.nrstAt = none → n = 2 ^ h.g F.LOG_HSIZE_HSIZE →
    ((h.g F.LOG_HCTRL_EN ≠ 1 ∨ h.unstreamed = 0 ∨ n - 1 ≤ h.unread) → ∀ master, HostDoes (.logStream master t) s t id) ∧
    (h.g F.LOG_HCTRL_EN = 1 → h.unstreamed ≠ 0 → h.unread < n - 1 →
      HostDoes (.logStream false t) s t (fun h =>
        HostDie.count { h with unstreamed := h.unstreamed - 1 } F.LOG_HSTAT_HDROP) ∧
      (h.g F.LOG_HCTRL_IRQ ≠ 1 → HostDoes (.logStream true t) s t (fun h =>
        HostDie.p { h with
          unstreamed := h.unstreamed - 1
          posted := h.posted ++ [(h.g F.LOG_HBASE_BASE * 4096 + 32 * h.g F.LOG_HHEAD_HEAD, recBytes
            (Sparse.get (fun _ => LogRec.zero) h.mlog ((h.g F.LOG_HSTAT_WRITE + 32768 - h.unstreamed) % 32768)))] }
          F.LOG_HHEAD_HEAD ((h.g F.LOG_HHEAD_HEAD + 1) % n))))) ∧
  (∀ (s : State) d t (x : LogicDie), x = (s.die d).at t →
    (x.g F.LOG_STAT_UNSENT ≤ x.logInFlight → DieDoes (.logRecordSend d t) s d t id) ∧
    (x.logInFlight < x.g F.LOG_STAT_UNSENT → DieDoes (.logRecordSend d t) s d t (fun x =>
      let n := min 16 (x.g F.LOG_STAT_UNSENT - x.logInFlight)
      let oldest := x.g F.LOG_STAT_HEAD + 4096 - x.g F.LOG_STAT_UNSENT + x.logInFlight
      { x.send (.logRecord ((List.range n).map (fun k => Sparse.get (fun _ => LogRec.zero) x.logRing ((oldest + k) % 2048)))
          (x.g F.LOG_STAT_DROP - x.logDropSent)) with
        logInFlight := x.logInFlight + n
        logDropSent := x.g F.LOG_STAT_DROP })))

/-- R340-R342, R345: host requests on the host die. STL_REQ_CMD with GO sends HOST_REQ to the dies it names and is BUSY; one while BUSY is an access error; START without a
publication is refused as NOTRUN on both dies, and otherwise names the first start of the fold grid at least 50 µs ahead; a reply sets the die's status, DONE, the data of a READ, and clears BUSY with the last; one that is no longer
awaited changes nothing; a die that lets 100 µs pass is a TIMEOUT. -/
def Sys2Proof.Claims.HostRequests : Prop :=
  ∀ (s : State) t (h : HostDie), h = s.host.at t → h.pw.nrstAt = none →
    (h.g F.HSTL_REQ_CMD_BUSY = 1 → ∀ (dies : Fin 4) (tag : Fin 65536) p,
      ∀ i ∈ [Instr.stlReqRead dies tag p t, .stlReqWrite dies tag p t, .stlReqStart tag p t, .stlReqRestart tag p t],
        HostDoes i s t (fun h => h.raise 33 (errDetail p (regAddr .HSTL_REQ_CMD 0)))) ∧
    (h.g F.HSTL_REQ_CMD_BUSY ≠ 1 → ∀ (dies : Fin 4) (tag : Fin 65536) p,
      HostDoes (.stlReqRead dies tag p t) s t (fun h =>
        (((h.p F.HSTL_REQ_CMD_OP 1).p F.HSTL_REQ_CMD_DIES dies.val).p F.HSTL_REQ_CMD_TAG tag.val).sendReq 1 dies.val tag.val
          (h.g F.HSTL_REQ_ADDR_VALUE) 0) ∧
      HostDoes (.stlReqWrite dies tag p t) s t (fun h =>
        (((h.p F.HSTL_REQ_CMD_OP 2).p F.HSTL_REQ_CMD_DIES dies.val).p F.HSTL_REQ_CMD_TAG tag.val).sendReq 2 dies.val tag.val
          (h.g F.HSTL_REQ_ADDR_VALUE) (h.g F.HSTL_REQ_DATA_VALUE)) ∧
      (h.snapField 0x20 4 = 0 → HostDoes (.stlReqStart tag p t) s t (fun h =>
        let h := ((h.p F.HSTL_REQ_CMD_OP 3).p F.HSTL_REQ_CMD_DIES 3).p F.HSTL_REQ_CMD_TAG tag.val
        (((h.p F.HSTL_REQ_STAT_STATA 4).p F.HSTL_REQ_STAT_STATB 4).setDone .la).setDone .lb)) ∧
      (h.snapField 0x20 4 ≠ 0 → ∃ i k, i = h.snapField 8 8 + k * (h.snapField 0x20 4 * 1000) ∧ h.now + 50000 ≤ i ∧
        (k = 0 ∨ i < h.now + 50000 + h.snapField 0x20 4 * 1000) ∧
        HostDoes (.stlReqStart tag p t) s t (fun h =>
          ((((h.p F.HSTL_REQ_CMD_OP 3).p F.HSTL_REQ_CMD_DIES 3).p F.HSTL_REQ_CMD_TAG tag.val).p F.HSTL_REQ_DATA_VALUE i).sendReq
            3 3 tag.val i 0)) ∧
      HostDoes (.stlReqRestart tag p t) s t (fun h =>
        (((h.p F.HSTL_REQ_CMD_OP 4).p F.HSTL_REQ_CMD_DIES 3).p F.HSTL_REQ_CMD_TAG tag.val).sendReq 4 3 tag.val 0 0)) ∧
    (∀ l op st tag a data, (s.modHost (·.at t)).incoming l true = some (.hostRep op st tag a data) →
      (h.req.unanswered.testBit l.num = false → HostHears (.hostReqReply l t) s l t id) ∧
      (h.req.unanswered = 2 ^ l.num → h.req.unacked = 0 → op ≠ 1 → HostHears (.hostReqReply l t) s l t (fun h =>
        ((HostDie.p { h with req := { h.req with unanswered := 0 } } (reqStat l) st).setDone l).p F.HSTL_REQ_CMD_BUSY 0))) ∧
    (∀ l, h.req.unanswered.testBit l.num = false → h.req.unacked.testBit l.num = false →
      HostDoes (.requestTimeout l t) s t id) ∧
    (∀ l, h.req.unacked = 2 ^ l.num → h.req.unanswered = 2 ^ l.num → h.req.goAt + 100000 ≤ t →
      HostDoes (.requestTimeout l t) s t (fun h =>
        ((HostDie.p { (h.setLink l { h.link l with
            queue := (h.link l).queue.filter (fun m => match m with | .hostReq _ _ _ _ => false | _ => true) }) with
          req := { h.req with unacked := 0, unanswered := 0 } } F.HSTL_REQ_STAT_TIMEOUT 1).p F.HSTL_REQ_CMD_BUSY 0)))

/-- R340-R342: HOST_REQ at a logic die: a READ answers with the register or memory word it may read, else with MISALIGNED or DENIED; a WRITE takes the register rules; START is
DONE where STARTED holds, NOTRUN without folds, LATE less than 20 µs ahead, and otherwise keeps the earliest accepted instant; RESTART is a field restart of
both dies, which name the message in their last control word where it has arrived. -/
def Sys2Proof.Claims.RequestsAtADie : Prop :=
  ∀ (s : State) d t (x : LogicDie) tag a data, x = (s.die d).at t →
    ((s.modDie d (·.at t)).incoming d false = some (.hostReq 1 tag a data) →
      (a % 8 ≠ 0 → DieHears (.hostReqRead d t) s d t (fun x => x.send (.hostRep 1 1 tag a 0))) ∧
      (a % 8 = 0 → mayLoad true (x.region a) = false →
        DieHears (.hostReqRead d t) s d t (fun x => x.send (.hostRep 1 2 tag a 0))) ∧
      (a % 8 = 0 → mayLoad true (x.region a) = true → isRegs (x.region a) = false →
        DieHears (.hostReqRead d t) s d t (fun x => x.send (.hostRep 1 0 tag a (leNum (seen x true) a 8))))) ∧
    ((s.modDie d (·.at t)).incoming d false = some (.hostReq 2 tag a data) →
      (a % 8 ≠ 0 → DieHears (.hostReqWrite d t) s d t (fun x => x.send (.hostRep 2 1 tag a 0))) ∧
      (a % 8 = 0 → x.region a ≠ .dieRegs → DieHears (.hostReqWrite d t) s d t (fun x => x.send (.hostRep 2 2 tag a 0))) ∧
      (a % 8 = 0 → x.region a = .dieRegs → x.compMayWrite a = true →
        x.busDenies d .hostReq a (BitVec.ofNat 64 data) = false → DieHears (.hostReqWrite d t) s d t (fun x =>
          (x.busPost d .hostReq a 8 (BitVec.ofNat 64 data)).send (.hostRep 2 0 tag a 0)))) ∧
    ((s.modDie d (·.at t)).incoming d false = some (.hostReq 3 tag a data) →
      (x.g F.FOLD_STATUS_STARTED = 1 → DieHears (.hostReqStart d t) s d t (fun x => x.send (.hostRep 3 0 tag a 0))) ∧
      (x.g F.FOLD_STATUS_STARTED ≠ 1 → x.g F.FOLD_STATUS_RUNNING ≠ 1 →
        DieHears (.hostReqStart d t) s d t (fun x => x.send (.hostRep 3 4 tag a 0))) ∧
      (x.g F.FOLD_STATUS_STARTED ≠ 1 → x.g F.FOLD_STATUS_RUNNING = 1 →
        (a < x.now + 20000 → DieHears (.hostReqStart d t) s d t (fun x => x.send (.hostRep 3 3 tag a 0))) ∧
        (x.now + 20000 ≤ a → DieHears (.hostReqStart d t) s d t (fun x =>
          LogicDie.send { x with fold := { x.fold with startAt := some (match x.fold.startAt with | some b => min a b | none => a) } }
            (.hostRep 3 0 tag a 0))))) ∧
    ((s.modDie d (·.at t)).incoming d false = some (.hostReq 4 tag a data) →
      ∀ u : State, u = ((s.modDie d (·.at t)).accepted d false).modDie (other d) (·.at t) →
        (∀ o : Option Nat, ((∃ tag a data, u.incoming (other d) false = some (.hostReq 4 tag a data) ∧
              o = some (u.die (other d)).stl.expect) ∨
            ((∀ tag a data, u.incoming (other d) false ≠ some (.hostReq 4 tag a data)) ∧ o = none)) →
          exec (.hostReqRestart d t) s = .next
            ((((if o = none then u else u.accepted (other d) false).fieldRestart 2 true).modDie d (fun y => { y with
              stl := { y.stl with cw := some x.stl.expect } })).modDie (other d) (fun y => { y with stl := { y.stl with cw := o } }))))

/-- R424-R429, R431-R433: a tick of a timer that is not cascaded. It comes where t is a multiple of TICK, once at each instant. It counts where it is enabled, the GT_ lock is set and its IO domain is ON; it overflows to 0 at TOP
(periodic) or 2^32 − 1; a match sets M0 or M1 and its EVENTS bit; the pin actions follow in the order overflow, CMP0, CMP1. -/
def Sys2Proof.Claims.TimerTick : Prop :=
  ∀ (s : State) d (n : Fin 16) t (x : LogicDie), x = (s.die d).at t →
    ((x.g F.GT_CFG_CASC n.val = 1 ∨ t % (5 * (x.g F.GT_CFG_PRE n.val + 1)) ≠ 0 ∨
        Sparse.get (fun _ => none) x.gtTicked n.val = some t) → DieDoes (.timerTick d n t) s d t id) ∧
    ((x.g F.GT_CFG_EN n.val ≠ 1 ∨ x.g F.GT_CTRL_LOCK ≠ 1 ∨ x.ioOn = false) →
      ∃ ticked, DieDoes (.timerTick d n t) s d t (fun x => { x with gtTicked := ticked })) ∧
    (∀ c c' ov p0 p1 p2, x.g F.GT_CFG_CASC n.val ≠ 1 → t % (5 * (x.g F.GT_CFG_PRE n.val + 1)) = 0 →
      Sparse.get (fun _ => none) x.gtTicked n.val ≠ some t → x.g F.GT_CFG_EN n.val = 1 → x.g F.GT_CTRL_LOCK = 1 → x.ioOn = true →
      c = x.g F.GT_CNT_VALUE n.val →
      (ov = true ↔ if x.g F.GT_CFG_PERIOD n.val = 1 then x.g F.GT_TOP_VALUE n.val ≤ c else c = 2 ^ 32 - 1) →
      c' = (if ov then 0 else c + 1) →
      p0 = (if ov then pinAction (x.g F.GT_CFG_ACTOV n.val) (x.g F.GT_STAT_PIN n.val) else x.g F.GT_STAT_PIN n.val) →
      p1 = (if c' = x.g F.GT_CMP0_VALUE n.val then pinAction (x.g F.GT_CFG_ACT0 n.val) p0 else p0) →
      p2 = (if c' = x.g F.GT_CMP1_VALUE n.val then pinAction (x.g F.GT_CFG_ACT1 n.val) p1 else p1) →
      (ov = false ∨ n.val = 15 ∨ x.g F.GT_CFG_CASC (n.val + 1) ≠ 1) →
      ∃ v : LogicDie, exec (.timerTick d n t) s = .next (s.setDie d v) ∧
        v.g F.GT_CNT_VALUE n.val = c' ∧ v.g F.GT_STAT_PIN n.val = p2 ∧
        (v.g F.GT_STAT_OVF n.val = if ov then 1 else x.g F.GT_STAT_OVF n.val) ∧
        (v.g F.GT_STAT_M0 n.val = if c' = x.g F.GT_CMP0_VALUE n.val then 1 else x.g F.GT_STAT_M0 n.val) ∧
        (v.g F.GT_STAT_M1 n.val = if c' = x.g F.GT_CMP1_VALUE n.val then 1 else x.g F.GT_STAT_M1 n.val) ∧
        (c' = x.g F.GT_CMP0_VALUE n.val ∨ c' = x.g F.GT_CMP1_VALUE n.val → v.core.events.getLsbD n.val = true) ∧
        (∀ m, m ≠ n.val → m < 16 → v.g F.GT_CNT_VALUE m = x.g F.GT_CNT_VALUE m ∧ v.g F.GT_STAT_PIN m = x.g F.GT_STAT_PIN m) ∧
        v.mem = x.mem)

/-- R425, R428-R431: what else acts on a timer. A compare write reaches the comparator and matches at once where the timer counts and holds that value, except above TOP in
period mode; a count write takes
effect without a match; SNAP latches the whole cascade; a capture read by another party than the fold task takes the oldest entry; the GT_ lock sets counts. -/
def Sys2Proof.Claims.TimerCommands : Prop :=
  ∀ (s : State) d (n : Fin 16) t (x : LogicDie), x = (s.die d).at t →
    (∀ v : BitVec 32, x.g F.GT_CNT_VALUE n.val ≠ v.toNat →
      DieDoes (.gtCmpWrite d n 0 v t) s d t (fun x => x.p F.GT_CMP0_VALUE v.toNat n.val) ∧
      DieDoes (.gtCmpWrite d n 1 v t) s d t (fun x => x.p F.GT_CMP1_VALUE v.toNat n.val)) ∧
    (∀ v : BitVec 32, x.g F.GT_CFG_EN n.val = 1 → x.g F.GT_CTRL_LOCK = 1 → x.ioOn = true → x.g F.GT_CNT_VALUE n.val = v.toNat →
      (x.g F.GT_CFG_PERIOD n.val ≠ 1 ∨ v.toNat ≤ x.g F.GT_TOP_VALUE n.val) →
      ∃ y : LogicDie, exec (.gtCmpWrite d n 0 v t) s = .next (s.setDie d y) ∧ y.g F.GT_CMP0_VALUE n.val = v.toNat ∧
        y.g F.GT_STAT_M0 n.val = 1 ∧ y.core.events.getLsbD n.val = true ∧
        y.g F.GT_STAT_PIN n.val = pinAction (x.g F.GT_CFG_ACT0 n.val) (x.g F.GT_STAT_PIN n.val)) ∧
    (∀ v : BitVec 32, x.g F.GT_CFG_PERIOD n.val = 1 → x.g F.GT_TOP_VALUE n.val < v.toNat →
      DieDoes (.gtCmpWrite d n 0 v t) s d t (fun x => x.p F.GT_CMP0_VALUE v.toNat n.val)) ∧
    (∀ v : BitVec 32, ∃ recent,
      DieDoes (.gtCntWrite d n v false t) s d t (fun x => LogicDie.p { x with gtLog := recent } F.GT_CNT_VALUE v.toNat n.val)) ∧
    (x.g F.GT_CFG_CASC n.val ≠ 1 → x.g F.GT_CFG_CASC (n.val + 1) ≠ 1 →
      DieDoes (.snap d n t) s d t (fun x => x.p F.GT_SNAP_COUNT (x.g F.GT_CNT_VALUE n.val) n.val)) ∧
    (∀ p, p ≠ .foldTask → DieDoes (.gtCapRead d n p t) s d t (fun x => x.setCaps n.val (x.caps n.val).tail)) ∧
    (x.caps n.val = [] → DieDoes (.gtCapRead d n .foldTask t) s d t id) ∧
    (∀ k v rest, x.caps n.val = (k, v) :: rest → x.core.stores.length < 32 →
      DieDoes (.gtCapRead d n .foldTask t) s d t (fun x => { x with core := { x.core with
        stores := x.core.stores ++ [.rcClear (regAddr .GT_CAP n.val) (BitVec.ofNat 64 k)] } })) ∧
    (x.g F.GT_CTRL_LOCK = 1 → DieDoes (.gtLock d t) s d t id) ∧
    (x.g F.GT_CTRL_LOCK ≠ 1 → ∃ y : LogicDie, exec (.gtLock d t) s = .next (s.setDie d y) ∧ y.g F.GT_CTRL_LOCK = 1 ∧
      y.g F.GT_STAT_PIN n.val = x.g F.GT_CFG_INIT n.val ∧
      (x.g F.GT_CFG_ALIGN n.val ≠ 1 → y.g F.GT_CNT_VALUE n.val = 0) ∧
      (x.g F.GT_CFG_ALIGN n.val = 1 → x.g F.GT_CFG_PERIOD n.val = 1 → y.g F.GT_CNT_VALUE n.val =
        (x.now / (5 * (x.g F.GT_CFG_PRE n.val + 1))) % (x.g F.GT_TOP_VALUE n.val + 1)))

/-- R434, R435, R437: ownership of a check-value unit and its DMA runs. The fold task and the companion core claim a free unit by writing their own code and the owner
releases it; any other write sets DENIED, and CK3 belongs to the tally; only the owner of a unit at rest starts a run, an empty run completes at once. -/
def Obligations.CheckValueUnits : Prop :=
  ∀ (s : State) d t (x : LogicDie) (u : Fin 4) (p : Party) (me : Nat), x = (s.die d).at t →
    (p = .foldTask ∧ me = 1 ∨ p = .companion ∧ me = 2) →
    (u.val < 3 → x.g F.CK_OWN_OWNER u.val = 0 →
      DieDoes (.ckClaim d u p t) s d t (fun x => (x.p F.CK_OWN_OWNER me u.val).setCk u.val ⟨none, 0, false, false⟩) ∧
      DieDoes (.ckRelease d u p t) s d t (fun x => x.p F.CK_STAT_DENIED 1 u.val)) ∧
    (u.val < 3 → x.g F.CK_OWN_OWNER u.val ≠ 0 → DieDoes (.ckClaim d u p t) s d t (fun x => x.p F.CK_STAT_DENIED 1 u.val)) ∧
    (u.val < 3 → x.g F.CK_OWN_OWNER u.val = me → DieDoes (.ckRelease d u p t) s d t (fun x =>
      (((x.p F.CK_OWN_OWNER 0 u.val).p F.CK_STAT_BUSY 0 u.val).p F.CK_DMA_GO 0 u.val).setCk u.val ⟨none, 0, false, false⟩)) ∧
    (u.val < 3 → x.g F.CK_OWN_OWNER u.val ≠ me → DieDoes (.ckRelease d u p t) s d t (fun x => x.p F.CK_STAT_DENIED 1 u.val)) ∧
    (u.val < 3 → ∀ q, q ≠ .foldTask → q ≠ .companion → ∀ i ∈ [Instr.ckClaim d u q t, .ckRelease d u q t],
      DieDoes i s d t (fun x => x.p F.CK_STAT_DENIED 1 u.val)) ∧
    (u = 3 → ∀ i ∈ [Instr.ckClaim d u p t, .ckRelease d u p t],
      DieDoes i s d t (fun x => x.raise d 9 (errDetail p (regAddr .CK_OWN 3)))) ∧
    ((u = 3 ∨ x.g F.CK_OWN_OWNER u.val ≠ me ∨ x.ckBusy u.val = true) →
      DieDoes (.go d u p t) s d t (fun x => x.raise d 9 (errDetail p (regAddr .CK_DMA u.val)))) ∧
    (u.val < 3 → x.g F.CK_OWN_OWNER u.val = me → x.ckBusy u.val = false →
      (x.g F.CK_DMA_LEN u.val ≠ 0 → DieDoes (.go d u p t) s d t (fun x =>
        ((x.setCk u.val { x.ckSt u.val with owner := me }).p F.CK_STAT_BUSY 1 u.val).p F.CK_DMA_GO 1 u.val)) ∧
      (x.g F.CK_DMA_LEN u.val = 0 → ∃ y : LogicDie, exec (.go d u p t) s = .next (s.setDie d y) ∧ y.g F.CK_STAT_DONE u.val = 1))

/-- R201: close(n) = permit(n) ∧ ((cmd(n) ∧ no own off-pulse) ∨ own on-pulse), with permit(n) as R201 lists it: what the own switch of SOn takes whenever the die drives it,
while the other switches stay. -/
def Sys2Proof.Claims.OwnSwitch : Prop :=
  ∀ (x : LogicDie) d n t, n < 32 →
    (((x.drive d n t).g F.SO_CMD_CLOSED).testBit n = true ↔
      x.g F.FOLD_STATUS_RUNNING = 1 ∧ x.g F.FOLD_STATUS_SAFE ≠ 1 ∧ x.g F.PWR_DOM_STATE 6 = 2 ∧ x.g (crookBit d) = 1 ∧
      (x.g F.SO_HELD_BITS).testBit n = false ∧ x.g F.SO_STAT_LATCHED n ≠ 1 ∧
      (((x.g F.SO_CMD_CMD).testBit n = true ∧ (x.out n).off = false) ∨ (x.out n).on = true)) ∧
    ((x.drive d n t).g F.SO_SW_CMD n = 1 ↔ ((x.drive d n t).g F.SO_CMD_CLOSED).testBit n = true) ∧
    (∀ m, m < 32 → m ≠ n → ((x.drive d n t).g F.SO_CMD_CLOSED).testBit m = (x.g F.SO_CMD_CLOSED).testBit m ∧
      (x.drive d n t).g F.SO_SW_CMD m = x.g F.SO_SW_CMD m ∧ (x.drive d n t).out m = x.out m) ∧
    (x.drive d n t).g F.SO_CMD_CMD = x.g F.SO_CMD_CMD ∧ (x.drive d n t).mem = x.mem

/-- R203, R204, R209: overload. A B-switch that limits for 5 ms opens and latches on LB; a switch that overheats opens and latches on its own die; both dies record the
finding with source 256 + n; a group whose 100 ms mean exceeds 6.5 A sets GRPOVL. -/
def Sys2Proof.Claims.Overload : Prop :=
  ∀ (s : State) t (n : Fin 32),
    ((((s.lb.at t).g F.SO_CMD_CLOSED).testBit n.val = false ∨ t < ((s.lb.at t).out n.val).closeAt + 5000000) →
      exec (.currentLimitExpiry n t) s = .next ((s.setDie .la (s.la.at t)).setDie .lb (s.lb.at t))) ∧
    (((s.lb.at t).g F.SO_CMD_CLOSED).testBit n.val = true → ((s.lb.at t).out n.val).closeAt + 5000000 ≤ t →
      exec (.currentLimitExpiry n t) s = .next { s with
      la := (((s.la.at t).p F.SO_STAT_OVL 1 n.val).count F.SO_CNT_LIMIT 1 n.val).raise .la (256 + n.val) 0
      lb := ((((((s.lb.at t).p F.SO_SW_LIMIT 1 n.val).p F.SO_STAT_LATCHED 1 n.val).drive .lb n.val t).p F.SO_STAT_OVL 1
        n.val).count F.SO_CNT_LIMIT 1 n.val).raise .lb (256 + n.val) 0 }) ∧
    (exec (.thermalShutdown .la n t) s = .next { s with
      la := ((((((s.la.at t).p F.SO_SW_THERMAL 1 n.val).p F.SO_STAT_LATCHED 1 n.val).drive .la n.val t).p F.SO_STAT_OVT 1
        n.val).count F.SO_CNT_LIMIT 1 n.val).raise .la (256 + n.val) 1
      lb := (((s.lb.at t).p F.SO_STAT_OVT 1 n.val).count F.SO_CNT_LIMIT 1 n.val).raise .lb (256 + n.val) 1 }) ∧
    (exec (.thermalShutdown .lb n t) s = .next { s with
      lb := ((((((s.lb.at t).p F.SO_SW_THERMAL 1 n.val).p F.SO_STAT_LATCHED 1 n.val).drive .lb n.val t).p F.SO_STAT_OVT 1
        n.val).count F.SO_CNT_LIMIT 1 n.val).raise .lb (256 + n.val) 1
      la := (((s.la.at t).p F.SO_STAT_OVT 1 n.val).count F.SO_CNT_LIMIT 1 n.val).raise .la (256 + n.val) 1 }) ∧
    (∀ d (g : Fin 4) (curr vout : Fin 65536), DieDoes (.groupOverload d g curr vout t) s d t (fun x =>
      let x := ((x.p F.SO_GRP_CURR curr.val g.val).p F.SO_GRP_VOUT vout.val g.val).p F.SO_GRP_VOUTLOW
        (if vout.val < 18000 then 1 else 0) g.val
      if 6500 < curr.val then x.p F.SO_GRP_GRPOVL 1 g.val else x))

/-- A check reads both nodes of SOn at this instant; `q` is what the die keeps of the output. -/
def readsNodes (x : LogicDie) (n : Nat) (node mid : Bool) (q : OutSt) : LogicDie :=
  ((x.p F.SO_STAT_NODE (b2n node) n).p F.SO_STAT_MID (b2n mid) n).setOut n { q with readAt := x.now }

/-- A STAYON entry (R209, R214): the finding, its cause and partner, SO_SHORT, and source 192 + n with the class of the zone's last committed state. -/
def stayOnEntry (x : LogicDie) (d : Ch) (n cause partner : Nat) : LogicDie :=
  let x := (((x.p F.SO_STAT_STAYON 1 n).p F.SO_STAT_CAUSE cause n).p F.SO_STAT_PARTNER partner n).setB F.SO_SHORT_BITS n true
  x.raiseDyn d (192 + n) (cause + partner * 4) (if x.zoneRan n then 3 else 0)

/-- R209, R210, R212, R214: findings and pulses of an output. STAYON, NOON and SHORT_CLEAR act only once their time has passed in the state that R209 and
R214 name, and a finding raises its source once at its entry; an off-pulse opens the switch of an energised output 10 µs into its own slot, an
on-pulse closes that of a de-energised one that has energised before; outside, nothing happens. -/
def Sys2Proof.Claims.OutputFindingsAndPulses : Prop :=
  ∀ (s : State) d t (n : Fin 32) (x : LogicDie) (q : OutSt), x = (s.die d).at t → q = x.out n.val →
    (((x.g F.SO_CMD_CLOSED).testBit n.val = true ∨ q.off = true ∨ q.epOpen = some t ∨
        t < max q.openAt q.offEnd + x.g F.SO_CFG_OFFT n.val * 1000) → ∀ flows, DieDoes (.stayon d n flows t) s d t id) ∧
    ((x.g F.SO_CMD_CLOSED).testBit n.val = false → q.off = false → q.epOpen = none →
      max q.openAt q.offEnd + x.g F.SO_CFG_OFFT n.val * 1000 ≤ t → ∀ flows : Bool,
      DieDoes (.stayon d n flows t) s d t (fun x => stayOnEntry
        (readsNodes x n.val true (x.g F.SO_STAT_MID n.val == 1) { q with epOpen := some t, epLow := none, highAt := x.now }) d n.val (b2n flows) 0x3F)) ∧
    (((x.g F.SO_CMD_CLOSED).testBit n.val = false ∨ q.epLow = some t ∨ t < q.closeAt + x.g F.SO_CFG_ONT n.val * 1000) →
      ∀ mid, DieDoes (.noon d n mid t) s d t id) ∧
    ((x.g F.SO_CMD_CMD).testBit n.val = true → (x.g F.SO_CMD_CLOSED).testBit n.val = true → q.epLow = none →
      q.closeAt + x.g F.SO_CFG_ONT n.val * 1000 ≤ t → ∀ mid : Bool, DieDoes (.noon d n mid t) s d t (fun x =>
        ((readsNodes x n.val false mid { q with epLow := some t, epOpen := none }).p F.SO_STAT_NOON 1 n.val).raise d (224 + n.val)
          (if mid then 2 else 0))) ∧
    (((x.g F.SO_CMD_CLOSED).testBit n.val = true ∨ t < q.openFrom + 10000000 ∨ t < q.highAt + 10000000) → DieDoes (.shortClear d n t) s d t id) ∧
    ((x.g F.SO_CMD_CLOSED).testBit n.val = false → q.openFrom + 10000000 ≤ t → q.highAt + 10000000 ≤ t →
      DieDoes (.shortClear d n t) s d t (fun x =>
        (readsNodes x n.val false (x.g F.SO_STAT_MID n.val == 1) { q with epOpen := none }).setB F.SO_SHORT_BITS n.val false)) ∧
    ((t % (1000 * x.g F.SO_TCFG_SLOT) ≠ 10000 ∨ x.testSlot t ≠ 2 * n.val + d.num ∨ (x.g F.SO_CMD_CMD).testBit n.val = false) →
      DieDoes (.offPulse d n t) s d t id) ∧
    (t % (1000 * x.g F.SO_TCFG_SLOT) = 10000 → x.testSlot t = 2 * n.val + d.num → x.g F.SO_CFG_OFFTEST n.val = 1 →
      (x.g F.SO_CMD_CMD).testBit n.val = true → x.permit d n.val = true → q.off = false → q.on = false →
      DieDoes (.offPulse d n t) s d t (fun x =>
        (x.setOut n.val { q with off := true, start := t, spoiled := false }).drive d n.val t)) ∧
    ((t % (1000 * x.g F.SO_TCFG_SLOT) ≠ 10000 ∨ x.testSlot t ≠ 2 * n.val ∨ (x.g F.SO_CMD_CMD).testBit n.val = true ∨
        x.g F.FOLD_STATUS_STARTED ≠ 1 ∨ q.freed = false) → DieDoes (.onPulse d n t) s d t id) ∧
    (t % (1000 * x.g F.SO_TCFG_SLOT) = 10000 → x.testSlot t = 2 * n.val → x.g F.SO_CFG_ONTEST n.val = 1 →
      x.g F.FOLD_STATUS_STARTED = 1 → (x.g F.SO_CMD_CMD).testBit n.val = false → x.permit d n.val = true → q.freed = true →
      q.off = false → q.on = false → DieDoes (.onPulse d n t) s d t (fun x =>
        (x.setOut n.val { q with on := true, start := t, spoiled := false }).drive d n.val t)) ∧
    (q.on = true → t = q.start + x.g F.SO_CFG_OPON n.val * 1000 →
      (q.spoiled = true → ∀ high mid lb hd, DieDoes (.onPulseEnd d n high mid lb hd t) s d t (fun x =>
        (x.setOut n.val { q with on := false }).drive d n.val t)) ∧
      (q.spoiled = false → ∀ mid hd, ∃ v : LogicDie, exec (.onPulseEnd d n true mid 0 hd t) s = .next (s.setDie d v) ∧
        v.g F.SO_STAT_NODE n.val = 1 ∧ (v.out n.val).on = false ∧ (v.out n.val).epOn = false ∧
        (∀ m, m ≠ n.val → v.out m = x.out m) ∧ v.mem = x.mem))

/-- R211, R213: the end of an off-pulse of the switch of channel d, OPW after its start. Where the pulse was not spoiled each die judges the levels
it held: a pass clears the pending flag of that switch, a first failure sets it and counts, a second in a row is STAYON. -/
def Sys2Proof.Claims.OffPulseJudged : Prop :=
  ∀ (s : State) t (n : Fin 32) (x y : LogicDie) (q : OutSt), x = s.la.at t → y = s.lb.at t → q = x.out n.val →
    ((q.off = false ∨ t ≠ q.start + x.g F.SO_CFG_OPW n.val * 1000) → ∀ nodeA midA nodeB midB flows,
      exec (.offPulseEnd .la n nodeA midA nodeB midB flows t) s = .next s) ∧
    (q.off = true → t = q.start + x.g F.SO_CFG_OPW n.val * 1000 →
      (q.spoiled = true → ∀ nodeA midA nodeB midB flows,
        DieDoes (.offPulseEnd .la n nodeA midA nodeB midB flows t) s .la t (fun x =>
          (x.setOut n.val { q with off := false, offEnd := t + x.g F.SO_CFG_OFFT n.val * 1000 }).drive .la n.val t)) ∧
      (q.spoiled = false → ∀ flows, ∃ u : State,
        exec (.offPulseEnd .la n false false false false flows t) s = .next u ∧
        u.la.g F.SO_STAT_PENDA n.val = 0 ∧ u.lb.g F.SO_STAT_PENDA n.val = 0 ∧
        u.la.g F.SO_STAT_NODE n.val = 0 ∧ (u.la.out n.val).off = false) ∧
      (q.spoiled = false → y.g F.SO_STAT_PENDA n.val ≠ 1 → ∀ midB flows, ∃ u : State,
        exec (.offPulseEnd .la n false false true midB flows t) s = .next u ∧ u.lb.g F.SO_STAT_PENDA n.val = 1 ∧
          u.lb.g F.SO_STAT_NODE n.val = 1) ∧
      (q.spoiled = false → y.g F.SO_STAT_PENDA n.val = 1 → (y.out n.val).epPulse.testBit 0 = false →
        ∀ midB flows, ∃ u : State,
        exec (.offPulseEnd .la n false false true midB flows t) s = .next u ∧ u.lb.g F.SO_STAT_STAYON n.val = 1 ∧
          (u.lb.g F.SO_SHORT_BITS).testBit n.val = true))

/-- A reading of the own crook output. -/
def crookReads (x : LogicDie) (high : Bool) : LogicDie := { x.p F.SO_CROOK_OUT_RB (b2n high) with crookRead := x.now }

/-- The memory of crook check kind `k` (0 own pulse, 1 the other channel's instant) takes the value `v`; PEND is set while a kind is pending; the kind is judged for this millisecond. -/
def crookKept (x : LogicDie) (k v : Nat) : LogicDie :=
  LogicDie.p { x with
    crookSeen := Sparse.put (fun _ => none) x.crookSeen k (some (x.g F.GT_TBASE_TIME / 1000000))
    crookPend := setBits x.crookPend k k v } F.SO_CROOK_PEND (b2n (setBits x.crookPend k k v != 0))

/-- R164, R219-R221: the crook chain. A low crook input holds every output of its die, opens the own switches, drops the crook output, sets the hold and counts; a level read at a fold start does the same but for the count; a pulse or partner check
at its instant that fails counts, and where a check is pending already (log entry 119) is STUCK with source 320; a commanded output that reads low for 2 µs is LOW with source 321. -/
def Sys2Proof.Claims.CrookChain : Prop :=
  ∀ (s : State) d t (x : LogicDie), x = (s.die d).at t →
    (∃ u : State, exec (.crookInLow d t) s = .next u ∧ (u.die d).g F.SO_HELD_BITS = 2 ^ 32 - 1 ∧
      (∀ n, n < 32 → ((u.die d).g F.SO_CMD_CLOSED).testBit n = false) ∧ (u.die d).g F.SO_CROOK_OUT_CMD = 0 ∧
      (u.die d).g F.SO_CROOK_HOLD = 1 ∧ (u.die d).g (crookBit d) = 0 ∧ (u.die (other d)).g (crookBit d) = 0 ∧ u.host = s.host) ∧
    (∀ inA inB : Bool, let y := x.readCrooks d inA inB t
      y.g F.SO_CROOK_IN_A = b2n inA ∧ y.g F.SO_CROOK_IN_B = b2n inB ∧
      ((match d with | .la => inA | .lb => inB) = false → y.g F.SO_HELD_BITS = 2 ^ 32 - 1 ∧ y.g F.SO_CROOK_HOLD = 1 ∧
        y.g F.SO_CROOK_OUT_CMD = 0 ∧ ∀ n, n < 32 → (y.g F.SO_CMD_CLOSED).testBit n = false)) ∧
    (∀ (i : Bool → Instr) (k : Nat) (shows : Bool → Bool), x.g F.SO_CROOK_OUT_CMD = 1 → x.crookOpen k t = true →
      (i = (fun b => .crookPulse d b t) ∧ k = 0 ∧ shows = (fun b => !b) ∧ x.g F.SO_CROOK_CPEN = 1 ∧
          t % 1000000 = 250000 + 500000 * d.num ∨
        i = (fun b => .crookPartnerCheck d b t) ∧ k = 1 ∧ shows = id ∧ 750000 - 500000 * d.num ≤ t % 1000000 ∧
          t % 1000000 ≤ 750000 - 500000 * d.num + 500) →
      DieDoes (i true) s d t (fun x => crookKept (crookReads x (shows true)) k 0) ∧
      (x.crookPend = 0 → DieDoes (i false) s d t (fun x =>
        (crookKept (crookReads x (shows false)) k 1).count F.SO_CROOKCNT_PFAIL)) ∧
      (x.crookPend ≠ 0 → DieDoes (i false) s d t (fun x =>
        (((crookKept (crookReads x (shows false)) k 1).count F.SO_CROOKCNT_PFAIL).p F.SO_CROOK_STUCK 1).raise d 320 0))) ∧
    (x.g F.SO_CROOK_OUT_CMD = 1 → x.crookUp + 2000 ≤ t →
      DieDoes (.crookOutputLow d t) s d t (fun x => ((crookReads x false).p F.SO_CROOK_LOW 1).raise d 321 0)) ∧
    (x.g F.SO_CROOK_OUT_CMD ≠ 1 → ∀ b, ∀ i ∈ [Instr.crookPulse d b t, .crookPartnerCheck d b t, .crookOutputLow d t],
      DieDoes i s d t id)

/-- R216, R217: a capture of 256 points, from the instant at which its last point can have been taken. It ends the capture in progress and fills the capture buffer; in LEARN it becomes the reference; otherwise DEV is the sum of the absolute
differences from the reference, and SIGDEV is set where a reference exists and DEV exceeds THR. -/
def Sys2Proof.Claims.CoilSignature : Prop :=
  ∀ (s : State) d t (n : Fin 32) (pts : List (BitVec 16)) (x : LogicDie), x = (s.die d).at t →
    (n.val ∉ x.sigBusy → DieDoes (.captureComplete d n pts t) s d t id) ∧
    (n.val ∈ x.sigBusy → pts.length = 256 → gridNs (x.adc (n.val / 16)).next ≤ t →
      ∃ v : LogicDie, exec (.captureComplete d n pts t) s = .next (s.setDie d v) ∧
        n.val ∉ v.sigBusy ∧ v.g F.SO_SIGSTAT_VALID n.val = 1 ∧ v.g F.SO_SIGSTAT_DONE n.val = 1 ∧
        (∀ i, i < 256 → v.sigPoint (sigCapAddr n.val 0) i = (pts.getD i 0).toNat) ∧
        (x.g F.SO_SIGCFG_LEARN n.val = 1 → v.g F.SO_SIGSTAT_REF n.val = 1 ∧ v.g F.SO_SIGCFG_LEARN n.val = 0 ∧
          ∀ i, i < 256 → v.sigPoint (sigRefAddr n.val 0) i = (pts.getD i 0).toNat) ∧
        (x.g F.SO_SIGCFG_LEARN n.val ≠ 1 → ∀ dev, dev = ((List.range 256).map (fun i =>
            absDiff (pts.getD i 0).toNat (x.sigPoint (sigRefAddr n.val 0) i))).sum →
          v.g F.SO_SIGSTAT_DEV n.val = dev % 2 ^ (F.SO_SIGSTAT_DEV.hi + 1 - F.SO_SIGSTAT_DEV.lo) ∧
          (x.g F.SO_SIGSTAT_REF n.val = 1 → x.g F.SO_SIGCFG_THR n.val < dev → v.g F.SO_SIGSTAT_SIGDEV n.val = 1)) ∧
        v.mem = x.mem ∧ v.outs = x.outs)

/-- R228, R229, R264: darkness. In a dark condition (a channel safe, FRST held, LA_LAMP not ON) LAMP_DARKENING clears ACTIVE and the displayed aspect, commands every stage off, and blanks the matrix; outside one it changes nothing
but the time. A second miss of the same lamp-link frame is source 56 on LA; a link silent for 10 µs turns PD1's stages off and blanks the matrix. -/
def Sys2Proof.Claims.LampDarkness : Prop :=
  ∀ (s : State) t (x y : LogicDie), x = s.la.at t → y = s.lb.at t →
    (x.g F.FOLD_STATUS_SAFE ≠ 1 → y.g F.FOLD_STATUS_SAFE ≠ 1 → x.pw.frstOn = false → y.pw.frstOn = false →
        x.g F.PWR_DOM_STATE 4 = 2 →
      exec (.lampDarkening t) s = .next ((s.setDie .la x).setDie .lb y)) ∧
    ((x.g F.FOLD_STATUS_SAFE = 1 ∨ y.g F.FOLD_STATUS_SAFE = 1 ∨ x.pw.frstOn = true ∨ y.pw.frstOn = true ∨
        x.g F.PWR_DOM_STATE 4 ≠ 2) →
      ∃ u : State, exec (.lampDarkening t) s = .next u ∧ u.host = s.host ∧ u.la.mem = s.la.mem ∧ u.lb.mem = s.lb.mem ∧
        u.la.g F.MX_CTRL_BLANKED = 1 ∧
        ∀ d, (u.die d).g F.LMP_CTRL_ACTIVE = 0 ∧ (u.die d).g F.LMP_DISP_DEFINED = 0 ∧
          (∀ n, n < 24 → (u.die d).rd .LMP_STG n = 0) ∧ (∀ n, n < 48 → (u.die d).g F.LMP_STAT_BEFF n = 0)) ∧
    (∀ frame, DieDoes (.lampLinkFault frame t) s .la t (fun x => x.raise .la 56 frame)) ∧
    (∃ u : State, exec (.lampLinkTimeout t) s = .next u ∧ (∀ n, n < 24 → u.lb.rd .LMP_STG n = 0) ∧ u.lb.g F.MX_DRVSTAT_BLANKED = 1 ∧
      u.la = { (s.la.at t).p F.MX_CTRL_BLANKED 1 with mx := { s.la.mx with linkOff := true } } ∧ u.host = s.host)

/-- R227, R243: a finding of a stage that switches, with a setpoint and not held dark by a colour loop, is recorded on both dies with source 328 + n and stops the stage; a stage without a setpoint has none; the overtemperature bit falls when the
stage has cooled. -/
def Sys2Proof.Claims.StageFindings : Prop :=
  ∀ (s : State) t (n : Fin 48) (pd : Ch), pd = (if n.val < 24 then .la else .lb) →
    (((s.die pd).g F.LMP_STG_B (n.val % 24) = 0 ∨ s.la.loopDark n.val t = true) → ∀ i ∈ [Instr.stageOpen n t, .stageOcp n t, .stageLxfail n t], exec i s = .next s) ∧
    (∀ p ∈ [(Instr.stageOpen n t, F.LMP_STAT_OPEN), (.stageOcp n t, F.LMP_STAT_OCP), (.stageLxfail n t, F.LMP_STAT_LXFAIL),
        (.stageOvt n true t, F.LMP_STAT_OVT)],
      (s.die pd).g F.LMP_STG_B (n.val % 24) ≠ 0 → s.la.loopDark n.val t = false → ∃ u : State, exec p.1 s = .next u ∧
        (∀ d, (u.die d).g p.2 n.val = 1) ∧ (u.die pd).g F.LMP_STG_B (n.val % 24) = 0 ∧ (u.la.lamp n.val).stopped = true ∧
        u.host = s.host) ∧
    (∃ u : State, exec (.stageOvt n false t) s = .next u ∧ (∀ d, (u.die d).g F.LMP_STAT_OVT n.val = 0) ∧
      (u.die pd).g F.LMP_STS_OVT (n.val % 24) = 0 ∧ u.host = s.host)

/-- R224-R226, R231-R233, R243, R249: a dimming period start acts at the string's own instant, unless a colour loop holds the string dark. On LA the string takes the entry
of the displayed aspect and carries its brightness: nothing where the entry is dark or in a flash off-phase, the aspect's code where it is lit and untrimmed, the smaller
of code and pattern value in pattern mode; its stage follows it unless it is stopped, inactive, disabled, or its power domain is not ON. On LB the evaluator takes the same
entry, and the kind of check that it asks for. Each start of an on-phase of a flash profile lets the engines in WAITP of that profile go on (R232, R249). -/
def Sys2Proof.Claims.DimmingPeriods : Prop :=
  ∀ (s : State) t (n : Fin 48) (x : LogicDie) (e : Nat) (pd : Ch), x = s.la.at t → e = x.dispEntry n.val →
    pd = (if n.val < 24 then .la else .lb) →
    (∀ d, (t % 50000 ≠ (n.val % 8) * 6250 ∨ ((s.die d).at t).boot.phase = .off ∨ ((s.die d).at t).loopDark n.val t = true) →
      DieDoes (.dimmingPeriodStart d n t) s d t id) ∧
    (t % 50000 = (n.val % 8) * 6250 →
      ((s.lb.at t).boot.phase ≠ .off → (s.lb.at t).loopDark n.val t = false →
        ∃ y, exec (.dimmingPeriodStart .lb n t) s = .next (s.setDie .lb y) ∧
        (y.lamp n.val).entry = (s.lb.at t).dispEntry n.val ∧
        (entMode ((s.lb.at t).dispEntry n.val) = 3 → (y.lamp n.val).kind = 3) ∧
        (entMode ((s.lb.at t).dispEntry n.val) = 1 → (y.lamp n.val).kind = 1) ∧
        (entMode ((s.lb.at t).dispEntry n.val) = 0 → (y.lamp n.val).kind = 2)) ∧
      (x.boot.phase ≠ .off → x.loopDark n.val t = false →
        ∃ u : State, exec (.dimmingPeriodStart .la n t) s = .next u ∧ (u.la.lamp n.val).entry = e ∧ u.host = s.host ∧
        ((entMode e = 0 ∨ entMode e = 2 ∧ x.flashOn (entSel e) t = false) → u.la.g F.LMP_STAT_BEFF n.val = 0) ∧
        ((entMode e = 1 ∨ entMode e = 2 ∧ x.flashOn (entSel e) t = true) → x.trim n.val = 0 →
          u.la.g F.LMP_STAT_BEFF n.val = entB e) ∧
        (entMode e = 3 → u.la.g F.LMP_STAT_BEFF n.val = min (entB e) ((x.presented (entSel e)).getD (n.val % 8) 0)) ∧
        ((u.die pd).g F.LMP_STG_B (n.val % 24) = u.la.g F.LMP_STAT_BEFF n.val ∨
          (u.die pd).g F.LMP_STG_B (n.val % 24) = 0) ∧
        ((u.la.g F.LMP_CTRL_ACTIVE ≠ 1 ∨ u.la.g F.LMP_CFG_EN n.val ≠ 1 ∨ (u.la.lamp n.val).stopped = true ∨
            u.la.g F.PWR_DOM_STATE 4 ≠ 2 ∨ (u.die pd).g F.PWR_DOM_STATE 7 ≠ 2) →
          (u.die pd).g F.LMP_STG_B (n.val % 24) = 0))) ∧
    (∀ (f : Fin 8) (starts : Prop), (starts ↔ x.flashOn f.val t = true ∧
        ((t : Int) - 1000000 - x.g F.LMP_FLASH_PHASE f.val * 2000000) % (x.g F.LMP_FLASH_PERIOD f.val * 2000000 : Nat) = 0) →
      (¬ starts → DieDoes (.flashEdge .la f t) s .la t (fun x => { x with lampSide := { x.lampSide with
        flash := setBits x.lampSide.flash f.val f.val (if x.flashOn f.val t then 1 else 0) } })) ∧
      (starts → ∃ y : LogicDie, exec (.flashEdge .la f t) s = .next (s.setDie .la y) ∧ y.regs = x.regs ∧
        y.lampSide.flash = setBits x.lampSide.flash f.val f.val 1 ∧
        ∀ k, k < 8 → ((∃ b, (x.pe k).mode = .waitP f.val b) → (y.pe k).mode = .waitP f.val true) ∧
          ((∀ b, (x.pe k).mode ≠ .waitP f.val b) → y.pe k = x.pe k)))

/-- R235-R238: LB samples a string with PROOF at the instant of its state, once per dimming period, and the sample shows on both dies; it is judged only outside the settling
interval. A pass clears PEND and counts towards the proof; the first failure of a kind of check sets PEND, the second in a row records the finding of its cause with source
376 + n and takes the proof. A pattern string without an alive sample through an interval of PALIVE is NOTALIVE. -/
def Sys2Proof.Claims.LampChecks : Prop :=
  ∀ (s : State) t (n : Fin 48) (curr volt : Fin 65536),
    (s.lb.sampleDue n.val t = false → exec (.lampCheckSample n curr volt t) s = .next s) ∧
    (s.lb.sampleDue n.val t = true → ∃ u : State, exec (.lampCheckSample n curr volt t) s = .next u ∧ u.host = s.host ∧
      (∀ d, (u.die d).g F.LMP_MEAS_CURR n.val = curr.val ∧ (u.die d).g F.LMP_MEAS_VOLT n.val = volt.val ∧
        (u.die d).g F.LMP_STAT_LIT n.val = if (s.die d).g F.LMP_CFG_IOFS n.val < 10 * curr.val then 1 else 0) ∧
      (t % 2000000 < 100000 ∨ t < (s.lb.lamp n.val).stateAt + s.lb.settle →
        u.lb.lamp n.val = { s.lb.lamp n.val with sampled := some (dimmingPeriod n.val t) } ∧
        u.lb.g F.LMP_STAT_PEND n.val = s.lb.g F.LMP_STAT_PEND n.val)) ∧
    (∀ x : LogicDie, ∀ k cause, x.lampCheck n.val curr.val volt.val = (k, cause) →
      (cause = 0 →
        (x.judgeLamp n.val curr.val volt.val t).g F.LMP_STAT_PEND n.val = 0 ∧
        ((x.judgeLamp n.val curr.val volt.val t).lamp n.val).passes = min ((x.lamp n.val).passes + 1) 2) ∧
      (cause ≠ 0 → ((x.lamp n.val).kind ≠ k ∨ x.g F.LMP_STAT_PEND n.val ≠ 1) →
        (x.judgeLamp n.val curr.val volt.val t).g F.LMP_STAT_PEND n.val = 1 ∧
        (x.judgeLamp n.val curr.val volt.val t).g (causeField cause) n.val = x.g (causeField cause) n.val) ∧
      (cause ≠ 0 → (x.lamp n.val).kind = k → x.g F.LMP_STAT_PEND n.val = 1 →
        (x.judgeLamp n.val curr.val volt.val t).g (causeField cause) n.val = 1 ∧
        (entProof (x.dispEntry n.val) = true → x.g F.LMP_PROOF_PROVEN = 1 →
          (x.judgeLamp n.val curr.val volt.val t).g F.LMP_PROOF_PROVEN = 0 ∧
          (x.judgeLamp n.val curr.val volt.val t).g F.LMP_PROOF_CAUSE = cause ∧
          (x.judgeLamp n.val curr.val volt.val t).g F.LMP_PROOF_SOURCE = n.val))) ∧
    (∀ x : LogicDie, entLit (x.lamp n.val).entry (x.lamp n.val).onPhase = false → entMode (x.lamp n.val).entry ≠ 3 →
      x.lampCheck n.val curr.val volt.val =
        (2, if 10 * curr.val ≤ x.g F.LMP_LIM_ILEAK n.val ∧ volt.val ≤ x.g F.LMP_LIM_VDARK n.val then 0 else 2)) ∧
    (∀ (x : LogicDie) span, x = s.lb.at t → span = x.g F.LMP_TCFG_PALIVE * 1000000 →
      ((entProof (x.dispEntry n.val) = false ∨ (t - x.lampSide.dispAt) % span ≠ 0 ∨
          ∃ a, (x.lamp n.val).lastAlive = some a ∧ t < a + span) → DieDoes (.notalive n t) s .lb t id) ∧
      (entProof (x.dispEntry n.val) = true → entMode (x.dispEntry n.val) = 3 → x.lampSide.dispAt < t →
        (t - x.lampSide.dispAt) % span = 0 → (∀ a, (x.lamp n.val).lastAlive = some a → a + span ≤ t) →
        DieDoes (.notalive n t) s .lb t (fun x =>
          ((x.p F.LMP_STAT_NOTALIVE 1 n.val).raise .lb (376 + n.val) 5).proofLost 5 n.val)))

/-- R241, R243, R244: an optical window of 100 µs on the grid shows on both dies and is judged on LB where OPROOF is set: a pass clears PEND, two failures in a row record FAILLIT
or FAILDARK with source 424 + k; a colour loop measures at the end of its integration; a neighbour test, at the end of an interval in which its pair was dark, indicates a short
at the second reading above 1 V in a row with source 432, and clears it at a reading below. -/
def Sys2Proof.Claims.OpticalAndNeighbours : Prop :=
  ∀ (s : State) t (k : Fin 8) (v : Fin 65536) start (y z : LogicDie),
    z = ((if k.val < 4 then s.lb else s.lb.p F.LMP_OSR_RESULT v.val (k.val % 4)).at t).p F.LMP_OSSTAT_LAST v.val k.val →
    y = { z with lampSide := { z.lampSide with osAt := Sparse.put (fun _ => none) z.lampSide.osAt k.val (some start) } } →
    (s.lb.windowDue k.val start t = false → exec (.opticalWindow k v start t) s = .next s) ∧
    (s.lb.windowDue k.val start t = true ↔ start % 100000 = 0 ∧ start + 100000 ≤ t ∧
      ∀ w, Sparse.get (fun _ => none) s.lb.lampSide.osAt k.val = some w → w < start) ∧
    (s.lb.windowDue k.val start t = true →
      (y.g F.LMP_OSCFG_OPROOF k.val ≠ 1 ∨ y.judgeWindow k.val v.val start = none →
        ∃ u : State, exec (.opticalWindow k v start t) s = .next u ∧ u.lb = y ∧ u.la.g F.LMP_OSSTAT_LAST k.val = v.val) ∧
      (y.g F.LMP_OSCFG_OPROOF k.val = 1 → ∀ lit, y.judgeWindow k.val v.val start = some (lit, true) →
        ∃ u : State, exec (.opticalWindow k v start t) s = .next u ∧ u.lb.g F.LMP_OSSTAT_PEND k.val = 0 ∧
          u.lb.lampSide.osPass.testBit k.val = true) ∧
      (y.g F.LMP_OSCFG_OPROOF k.val = 1 → ∀ lit : Bool, y.judgeWindow k.val v.val start = some (lit, false) →
        (y.g F.LMP_OSSTAT_PEND k.val ≠ 1 → ∃ u : State, exec (.opticalWindow k v start t) s = .next u ∧
          u.lb = y.p F.LMP_OSSTAT_PEND 1 k.val) ∧
        (y.g F.LMP_OSSTAT_PEND k.val = 1 → ∃ u : State, exec (.opticalWindow k v start t) s = .next u ∧
          u.lb.g (if lit then F.LMP_OSSTAT_FAILLIT else F.LMP_OSSTAT_FAILDARK) k.val = 1))) ∧
    ((t % 2000000 ≠ 90000 ∨ s.la.members k.val = []) → exec (.colourLoop k v t) s = .next s) ∧
    (t % 2000000 = 90000 → s.la.members k.val ≠ [] → Sparse.get (fun _ => none) s.la.lampSide.loopAt k.val ≠ some t →
      ∃ u : State, exec (.colourLoop k v t) s = .next u ∧ u.lb = s.lb ∧ u.host = s.host ∧ u.la.g F.LMP_OSSTAT_SLOT k.val = v.val) ∧
    (∀ (j q : Nat) (z : LogicDie), t = (j + 1) * 2000000 → q = j % 46 → z = s.lb.at t →
      ((z.nbDark (pairLow q) (j * 2000000) = false ∨ j * 2000000 < z.lampSide.dispAt) →
        exec (.neighbourTest v t) s = .next ((s.setDie .la (s.la.at t)).setDie .lb z)) ∧
      (z.nbDark (pairLow q) (j * 2000000) = true → z.nbDark (pairLow q + 1) (j * 2000000) = true →
        z.lampSide.dispAt ≤ j * 2000000 →
        (v.val ≤ 100 → ∃ u : State, exec (.neighbourTest v t) s = .next u ∧ (u.lb.g F.LMP_NBSHORT_PAIRS).testBit q = false ∧
          u.lb.lampSide.nbPend.testBit q = false) ∧
        (100 < v.val → z.lampSide.nbPend.testBit q = true → ∃ u : State, exec (.neighbourTest v t) s = .next u ∧
          (u.lb.g F.LMP_NBSHORT_PAIRS).testBit q = true) ∧
        (100 < v.val → z.lampSide.nbPend.testBit q = false → ∃ u : State, exec (.neighbourTest v t) s = .next u ∧
          u.lb = { z with lampSide := { z.lampSide with nbPend := setBits z.lampSide.nbPend q q 1 } })))

/-- R249, R250: the value forms of the pattern engines, and the forms that end in a wait: SET and the first step of RAMP replace the elements that the mask selects, MASK, LDC, DJNZ and
JMP change mask, counter or address, WAIT, WAITF, WAITP and HALT their mode; nothing else of the device changes, and an engine that does not run or is paused executes nothing. -/
def Sys2Proof.Claims.PatternInstructions : Prop :=
  ∀ (s : State) t (e : Fin 8) (x : LogicDie) (q : PeSt), x = s.la.at t → q = x.pe e.val →
    (¬ PeRuns x e.val → ∀ k s1 m dn lk i n1 a t1 f, ∀ c ∈ [Instr.peSet e k t, .peRamp e k s1 t, .peMask e m t, .peShift e dn lk t,
      .peLdc e i n1 t, .peDjnz e i a t, .peJmp e a t, .peWait e t1 t, .peWaitf e t, .peWaitp e f t, .peHalt e t],
      DieDoes c s .la t id) ∧
    (PeRuns x e.val →
      (∀ k : Fin 16, DieDoes (.peSet e k t) s .la t (fun x =>
        (peNext x e.val).setPe e.val { q with work := sel q (fun _ => x.g F.PE_LVL_LEVEL k.val) })) ∧
      (∀ (k : Fin 16) (s1 : Fin 256), DieDoes (.peRamp e k s1 t) s .la t (fun x => (peNext x e.val).setPe e.val { q with
        mode := .ramp k.val (s1.val + 1) 1 q.work
        work := sel q (fun v => ((v : Int) + ((x.g F.PE_LVL_LEVEL k.val : Int) - v).tdiv (s1.val + 1)).toNat) })) ∧
      (∀ m : Fin 256, DieDoes (.peMask e m t) s .la t (fun x => (peNext x e.val).setPe e.val { q with mask := m.val })) ∧
      (∀ (i : Fin 4) (n1 : Fin 256), DieDoes (.peLdc e i n1 t) s .la t (fun x =>
        (peNext x e.val).setPe e.val { q with cnt := q.cnt.set i.val (n1.val + 1) })) ∧
      (∀ (i : Fin 4) (a : Fin 64), (1 < q.cnt.getD i.val 0 → DieDoes (.peDjnz e i a t) s .la t (fun x =>
          ((peNext x e.val).setPe e.val { q with cnt := q.cnt.set i.val (q.cnt.getD i.val 0 - 1) }).p F.PE_STAT_PC a.val e.val)) ∧
        (q.cnt.getD i.val 0 ≤ 1 → DieDoes (.peDjnz e i a t) s .la t (fun x =>
          (peNext x e.val).setPe e.val { q with cnt := q.cnt.set i.val 0 }))) ∧
      (∀ a : Fin 64, DieDoes (.peJmp e a t) s .la t (fun x => x.p F.PE_STAT_PC a.val e.val)) ∧
      (∀ t1 : Fin 4096, DieDoes (.peWait e t1 t) s .la t (fun x => (peNext x e.val).setPe e.val { q with mode := .wait (t1.val + 1) })) ∧
      DieDoes (.peWaitf e t) s .la t (fun x => (peNext x e.val).setPe e.val { q with mode := .waitF false }) ∧
      (∀ f : Fin 8, DieDoes (.peWaitp e f t) s .la t (fun x => (peNext x e.val).setPe e.val { q with mode := .waitP f.val false })) ∧
      DieDoes (.peHalt e t) s .la t (fun x => (peNext x e.val).setPe e.val { q with mode := .halted }))

/-- R251-R253, R255, R256, R258: SHIFT becomes pending with STALLT 0; with LINK and no group shared with its source it is illegal: ILL, halted, source 433 with the engine and the address. SWAP,
FSWAP, RUN and PAUSE are requests: they change their bits of PE_CTRL, a rise of RUN is remembered for the next tick, and no other engine's bits change. -/
def Sys2Proof.Claims.PatternShiftAndControl : Prop :=
  ∀ (s : State) t (e : Fin 8) (x : LogicDie) (q : PeSt), x = s.la.at t → q = x.pe e.val →
    (PeRuns x e.val → ∀ dn lk : Bool,
      (lk = false ∨ (x.g F.PE_CFG_GROUP e.val ≠ 0 ∧ x.g F.PE_CFG_GROUP (x.g F.PE_CFG_LINK e.val) = x.g F.PE_CFG_GROUP e.val) →
        DieDoes (.peShift e dn lk t) s .la t (fun x =>
          ((peNext x e.val).p F.PE_STAT_STALLT 0 e.val).setPe e.val { q with mode := .shift dn lk })) ∧
      (lk = true → (x.g F.PE_CFG_GROUP e.val = 0 ∨ x.g F.PE_CFG_GROUP (x.g F.PE_CFG_LINK e.val) ≠ x.g F.PE_CFG_GROUP e.val) →
        DieDoes (.peShift e dn lk t) s .la t (fun x =>
          ((x.p F.PE_STAT_ILL 1 e.val).setPe e.val { q with mode := .halted }).raise .la 433
            (e.val + x.g F.PE_STAT_PC e.val * 8)))) ∧
    (∀ p ∈ [(Instr.peSwap e t, F.PE_CTRL_SWAP, true), (.peFswap e t, F.PE_CTRL_FSWAP, true), (.pePause e true t, F.PE_CTRL_PAUSE, true),
        (.pePause e false t, F.PE_CTRL_PAUSE, false), (.peRun e true t, F.PE_CTRL_RUN, true), (.peRun e false t, F.PE_CTRL_RUN, false)],
      ∃ y : LogicDie, exec p.1 s = .next (s.setDie .la y) ∧ (y.g p.2.1).testBit e.val = p.2.2 ∧
        (∀ k, k < 8 → k ≠ e.val → (y.g p.2.1).testBit k = (x.g p.2.1).testBit k ∧ y.pe k = x.pe k) ∧
        (p.1 = .peRun e true t → (x.g F.PE_CTRL_RUN).testBit e.val = false → (y.pe e.val).start = true) ∧
        y.mem = x.mem)

/-- R248: a tick of the engines. An engine without a tick, or stopped with RUN clear and no swap requested, keeps its presented vector; one that waits n ticks counts down; one that is not
running presents its working vector at its tick. -/
def Sys2Proof.Claims.PatternTick : Prop :=
  ∀ (s : State) t (x : LogicDie), x = s.la.at t → DieDoes (.peTick t) s .la t (fun x => x.peTickAll t) ∧
    (∀ e, e < 8 → x.peTicks e t = false → (x.peTickAll t).presented e = x.presented e ∧ (x.peTickAll t).pe e = x.pe e) ∧
    (∀ e, e < 8 → x.peTicks e t = true → (∀ dn lk, (x.pe e).mode ≠ .shift dn lk) → (x.pe e).work.length = 8 →
      (∀ v ∈ (x.pe e).work, v < 65536) → (x.peTickAll t).presented e = (x.pe e).work) ∧
    (∀ e n, e < 8 → x.peTicks e t = true → (x.pe e).mode = .wait n → 1 < n → (x.g F.PE_CTRL_RUN).testBit e = true →
      (x.pe e).start = false → (x.g F.PE_CTRL_SWAP).testBit e = false → (x.g F.PE_CTRL_FSWAP).testBit e = false →
      (x.g F.PE_CTRL_PAUSE).testBit e = false → ((x.peTickAll t).pe e).mode = .wait (n - 1))

/-- R262-R266, R268: the indicator matrix. FLIP is a request; a configuration in range is kept for the next frame start, one out of range is an access error; a frame start applies both and
counts where the matrix is lit, and PD1 draws that frame; an overcurrent trip turns its line off for the rest of its slot; a line slot reports at its end, and a blanked matrix shows nothing; a neighbour reading, one a frame in the test gap, above 1 V twice in a row indicates the pair as shorted with source 434. -/
def Obligations.IndicatorMatrix : Prop :=
  ∀ (s : State) t (x z : LogicDie), x = s.la.at t → z = s.lb.at t →
    DieDoes (.mxFlip t) s .la t (fun x => x.p F.MX_CTRL_FLIP 1) ∧
    (∀ p v, (mxCfgOk v = true → DieDoes (.mxCfgWrite p v t) s .la t (fun x =>
        { x.wr .MX_CFG 0 v with mx := { x.mx with next := some v } })) ∧
      (mxCfgOk v = false → DieDoes (.mxCfgWrite p v t) s .la t (fun x => x.raise .la 9 (errDetail p (regAddr .MX_CFG 0))))) ∧
    (t % (Word.bits x.mx.cfg F.MX_CFG_FPER.hi F.MX_CFG_FPER.lo * 1000) ≠ 0 → DieDoes (.frameStart t) s .la t id) ∧
    (t % (Word.bits x.mx.cfg F.MX_CFG_FPER.hi F.MX_CFG_FPER.lo * 1000) = 0 → ∃ y : LogicDie,
      exec (.frameStart t) s = .next ((s.setDie .la y).setDie .lb (z.drawFrame y t)) ∧ y.mx.next = none ∧
      (y.mx.cfg = match x.mx.next with | some v => v | none => x.mx.cfg) ∧
      (y.g F.MX_CTRL_FRONT = if x.g F.MX_CTRL_FLIP = 1 then (1 - x.g F.MX_CTRL_FRONT) % 2 else x.g F.MX_CTRL_FRONT) ∧
      y.g F.MX_CTRL_FLIP = 0 ∧
      (y.g F.MX_CTRL_BLANKED = 0 ↔ x.g F.LMP_CTRL_ACTIVE = 1 ∧ x.g F.MX_CTRL_EN = 1 ∧ z.g F.PWR_DOM_STATE 7 = 2 ∧
        x.mx.linkOff = false ∧ x.g F.FOLD_STATUS_SAFE ≠ 1 ∧ z.g F.FOLD_STATUS_SAFE ≠ 1 ∧ x.pw.frstOn = false ∧
        z.pw.frstOn = false ∧ x.g F.PWR_DOM_STATE 4 = 2) ∧
      (y.g F.MX_CTRL_BLANKED = 0 → (z.drawFrame y t).mx.cfg = y.mx.cfg ∧ (z.drawFrame y t).g F.MX_DRVSTAT_BLANKED = 0 ∧
        ∀ w, w < 64 → Sparse.get (fun _ => 0#64) (z.drawFrame y t).mx.image w = y.rd .MX_FB (y.g F.MX_CTRL_FRONT * 64 + w)) ∧
      (y.g F.MX_CTRL_BLANKED = 0 → y.g F.MX_FRAME_COUNT = (x.g F.MX_FRAME_COUNT + 1) % 2 ^ 32) ∧
      (y.g F.MX_CTRL_BLANKED = 1 → y.g F.MX_FRAME_COUNT = x.g F.MX_FRAME_COUNT)) ∧
    (x.g F.MX_CTRL_BLANKED = 1 → ∀ l trip below high v, DieDoes (.lineSlot l trip below high t) s .la t id ∧
      DieDoes (.matrixNeighbourTest v t) s .la t id) ∧
    (∀ (l : Fin 16) trip below high, (x.slotEnd l.val t = false ∨ x.mxCfg F.MX_CFG_LINES < l.val) →
      (trip = false ∨ z.lineOn l.val t = false) → DieDoes (.lineSlot l trip below high t) s .la t id) ∧
    (x.g F.MX_CTRL_BLANKED ≠ 1 → ∀ (l : Fin 16), x.slotEnd l.val t = false → z.lineOn l.val t = true → ∀ below high,
      ∃ u : State, exec (.lineSlot l true below high t) s = .next u ∧ u.host = s.host ∧ u.lb.g F.MX_LINE_TRIP l.val = 1 ∧
        u.la.mx.armOcp.testBit l.val = true ∧ ∃ at_, z.lineAt t = some (l.val, at_) ∧
          ∀ t', t' < t + (z.mxSlot - at_) → u.lb.lineOn l.val t' = false) ∧
    (x.g F.MX_CTRL_BLANKED ≠ 1 → ∀ (l : Fin 16), l.val ≤ x.mxCfg F.MX_CFG_LINES → x.slotEnd l.val t = true →
      Sparse.get (fun _ => 0) z.mx.tripTill l.val < t →
      ∃ u : State, exec (.lineSlot l true 0 0 t) s = .next u ∧ u.lb = z.p F.MX_LINE_TRIP 1 l.val ∧ u.host = s.host ∧
        u.la.mx.armOcp.testBit l.val = true ∧
        (x.mx.armOcp.testBit l.val = true → (u.la.rd .MX_STAT 0).toNat.testBit l.val = true) ∧
        (x.mx.armOcp.testBit l.val = false → (u.la.rd .MX_STAT 0).toNat = (x.rd .MX_STAT 0).toNat)) ∧
    (∀ f, f = t / (x.mxCfg F.MX_CFG_FPER * 1000) →
      (∀ v, (x.mxCfg F.MX_CFG_NBTEST = 0 ∨ x.inGap t = false ∨ x.mx.tested = some f) →
        DieDoes (.matrixNeighbourTest v t) s .la t id) ∧
      (x.g F.MX_CTRL_BLANKED ≠ 1 → x.mxCfg F.MX_CFG_NBTEST ≠ 0 → x.inGap t = true → x.mx.tested ≠ some f → ∀ (v : Fin 65536) q,
        q = f % 46 →
        (v.val ≤ 100 → DieDoes (.matrixNeighbourTest v t) s .la t (fun x =>
          LogicDie.setB { x with mx := { x.mx with tested := some f, armNb := setBits x.mx.armNb q q 0 } } F.MX_NBSHORT_PAIRS q
            false)) ∧
        (100 < v.val → x.mx.armNb.testBit q = true → (x.g F.MX_NBSHORT_PAIRS).testBit q = false →
          DieDoes (.matrixNeighbourTest v t) s .la t (fun x =>
            (LogicDie.setB { x with mx := { x.mx with tested := some f, armNb := setBits x.mx.armNb q q 1 } } F.MX_NBSHORT_PAIRS q
              true).raise .la 434 (64 + q)))))

/-- R272, R274, R277, R279: what starts or takes conversions. A trigger that came at this instant reaches only a converter in triggered mode with that source: a pass starts at the first grid instant
from then on, or TRIGMISS is set while the converter is busy. An urgent request joins the urgent list, or sets URGMISS during a capture or calibration. A companion read of the queue takes the oldest result, a
read of an empty queue sets UNDER. REFRDY comes 300 µs after REFEN. -/
def Sys2Proof.Claims.AdcRequests : Prop :=
  ∀ (s : State) d t (x : LogicDie), x = (s.die d).at t →
    (∀ (src : Fin 4) (tm : Fin 16) (key : Nat), key = (if src.val = 3 then 3 + tm.val else src.val) →
      ((src.val = 0 ∨ x.trigAt key ≠ some t) → DieDoes (.adcTrigger d src tm t) s d t id) ∧
      (src.val ≠ 0 → x.trigAt key = some t → (∀ c, c < 2 → x.g F.ADC_CFG_TRIG c ≠ src.val ∨ x.g F.ADC_CFG_MODE c ≠ 2) →
        DieDoes (.adcTrigger d src tm t) s d t (fun x => { x with trigs := Sparse.put (fun _ => none) x.trigs key none })) ∧
      (src.val ≠ 0 → src.val ≠ 3 → x.trigAt key = some t → x.g F.ADC_CFG_TRIG 0 = src.val → x.g F.ADC_CFG_TRIG 1 ≠ src.val →
        x.g F.ADC_CFG_MODE 0 = 2 →
        (x.adcBusy 0 = true → DieDoes (.adcTrigger d src tm t) s d t (fun x =>
          LogicDie.p { x with trigs := Sparse.put (fun _ => none) x.trigs key none } F.ADC_STAT_TRIGMISS 1 0)) ∧
        (x.adcBusy 0 = false → x.converts 0 = true → DieDoes (.adcTrigger d src tm t) s d t (fun x =>
          LogicDie.setAdc { x with trigs := Sparse.put (fun _ => none) x.trigs key none } 0 { x.adc 0 with
            pass := true, entry := 0, rot := 0, next := max (x.adc 0).next (gridAt t) })))) ∧
    (∀ c, x.converts c = true ↔ (x.g F.ADC_CFG_MODE c = 1 ∨ x.g F.ADC_CFG_MODE c = 2) ∧ x.g F.PWR_DOM_STATE 8 = 2 ∧
      x.g F.ADC_STAT_FAULT c ≠ 1 ∧ x.bist.penAdc.testBit c = false) ∧
    (∀ (m : Fin 4), (m.val.testBit 0 = false ∨ x.g F.ADC_CFG_TRIG 0 ≠ 0) → (m.val.testBit 1 = false ∨ x.g F.ADC_CFG_TRIG 1 ≠ 0) →
      DieDoes (.adcSwtrig d m t) s d t id) ∧
    (x.g F.ADC_CFG_TRIG 1 = 0 → x.g F.ADC_CFG_MODE 1 = 2 →
      (x.adcBusy 1 = true → DieDoes (.adcSwtrig d 2 t) s d t (fun x => x.p F.ADC_STAT_TRIGMISS 1 1)) ∧
      (x.adcBusy 1 = false → x.converts 1 = true → DieDoes (.adcSwtrig d 2 t) s d t (fun x => x.setAdc 1 { x.adc 1 with
        pass := true, entry := 0, rot := 0, next := max (x.adc 1).next (gridAt x.now) }))) ∧
    (∀ e0 e1 : Fin 16, DieDoes (.adcUrg d false e0 false e1 t) s d t id ∧
      ((x.capturing 0 = true ∨ (x.adc 0).cal.isSome = true) →
        DieDoes (.adcUrg d true e0 false e1 t) s d t (fun x => x.p F.ADC_STAT_URGMISS 1 0)) ∧
      (∀ q, q = x.adc 1 → x.capturing 1 = false → q.cal = none → x.converts 1 = true →
        (q.urgent ≠ [] → DieDoes (.adcUrg d false e0 true e1 t) s d t (fun x =>
          x.setAdc 1 { q with urgent := q.urgent ++ [e1.val] })) ∧
        (q.urgent = [] → q.runs = [] → q.parts = [] → DieDoes (.adcUrg d false e0 true e1 t) s d t (fun x =>
          x.setAdc 1 { q with urgent := [e1.val], next := max q.next (gridAt x.now) })))) ∧
    (∀ c : Fin 2, ∀ p, ((x.adc c.val).queue = [] → DieDoes (.adcPop d c p t) s d t (fun x => x.p F.ADC_QSTAT_UNDER 1 c.val)) ∧
      (∀ w q, (x.adc c.val).queue = w :: q →
        (p ≠ .companion → DieDoes (.adcPop d c p t) s d t id) ∧
        (p = .companion → DieDoes (.adcPop d c p t) s d t (fun x =>
          (x.setAdc c.val { x.adc c.val with queue := q }).p F.ADC_QSTAT_COUNT q.length c.val)))) ∧
    (x.g F.ADC_CTRL_REFEN = 1 → x.g F.PWR_DOM_STATE 8 = 2 → x.refAt + 300000 ≤ t →
      DieDoes (.refrdy d t) s d t (fun x => (x.p F.ADC_CTRL_REFRDY 1).p F.ADC_AFE_READY 1)) ∧
    ((x.g F.ADC_CTRL_REFEN ≠ 1 ∨ t < x.refAt + 300000) → DieDoes (.refrdy d t) s d t id)

/-- A converter after the next constituent of run `r`, the only one under way, has started at grid instant g at its rotation position (R270): its hold comes SMP + 1 later, its slice is
free seven later, and the next constituent may start one later. -/
def acquired (x : LogicDie) (c g : Nat) (q : AdcSt) (r : AdcRun) : AdcSt :=
  let hold := g + x.g F.ADC_SEQ_SMP (c * 16 + r.entry) + 1
  { q with
    next := g + 1, mux := max q.mux hold, rot := (q.rot + 1) % 8
    free := Sparse.put (fun _ => 0) q.free q.rot (hold + 7)
    parts := q.parts ++ [⟨q.rot, r.id, hold, none⟩]
    runs := [{ r with
      issued := r.issued + 1, hold := hold
      spare := r.spare || (x.g F.ADC_STAT_SUBST c == 1 && x.g F.ADC_STAT_RETIRED c == q.rot) }] }

/-- R270, R271: the constituents of a triggered pass. The next constituent of an entry starts one turn after the last, once the slice at its rotation position is free; the first of the next
entry needs the mux free as well; at no other instant does one start, and where the converter does not convert none does. -/
def Sys2Proof.Claims.AdcConstituents : Prop :=
  ∀ (s : State) d (c : Fin 2) g (x : LogicDie) (q : AdcSt), x = (s.die d).at (g * 25 / 2) → q = x.adc c.val →
    ((x.converts c.val = false ∨ x.capturing c.val = true) → DieDoes (.constituent d c g) s d (g * 25 / 2) id) ∧
    (x.converts c.val = true → x.capturing c.val = false → x.g F.ADC_CFG_MODE c.val = 2 → q.urgent = [] → q.cal = none →
      (q.runs = [] → (q.pass = false ∨ x.g F.ADC_CFG_LAST c.val < q.entry) → DieDoes (.constituent d c g) s d (g * 25 / 2) id) ∧
      (∀ r at_, q.runs = [r] → r.kind = .seq → r.issued < r.count → at_ = max q.next (q.freeAt q.rot) →
        (g ≠ at_ → DieDoes (.constituent d c g) s d (g * 25 / 2) id) ∧
        (g = at_ → DieDoes (.constituent d c g) s d (g * 25 / 2) (fun x => x.setAdc c.val (acquired x c.val g q r)))) ∧
      (∀ at_, q.runs = [] → q.pass = true → q.entry ≤ x.g F.ADC_CFG_LAST c.val → at_ = max (max q.next q.mux) (q.freeAt q.rot) →
        (g ≠ at_ → DieDoes (.constituent d c g) s d (g * 25 / 2) id) ∧
        (g = at_ → DieDoes (.constituent d c g) s d (g * 25 / 2) (fun x => x.setAdc c.val
          (acquired x c.val g { q with ids := q.ids + 1, entry := q.entry + 1 }
            ⟨q.ids, .seq, q.entry, 2 ^ x.g F.ADC_SEQ_AVG (c.val * 16 + q.entry), 0, 0, [], false, false⟩)))))

/-- R275-R277, R283: a result of the sequence that falls due without calibration, once all its constituents are converted and none is to repeat. Its word holds the value rounded to the nearest code and
clamped, its input, its marks of a repeat and of the spare, and its instant; it becomes the entry's last result, and enters the queue where QEN asks for it. One that is not due changes nothing. -/
def Sys2Proof.Claims.AdcResults : Prop :=
  ∀ (s : State) d (c : Fin 2) (e : Fin 16) (code : Fin 65536) (frac : Fin 256) at0 atFull hold (x : LogicDie) (q : AdcSt),
    x = (s.die d).at (hold * 25 / 2) → q = x.adc c.val →
    (q.due = none → ∀ urg, DieDoes (.adcResult d c e urg code frac at0 atFull hold) s d (hold * 25 / 2) id) ∧
    (∀ r, q.runs = [r] → (r.kind = .cal ∨ r.issued ≠ r.count ∨ r.redo ≠ []) → q.due = none) ∧
    (∀ r, q.runs = [r] → r.kind = .seq → r.issued = r.count → r.redo = [] → r.entry = e.val → r.hold = hold → (∀ p ∈ q.parts, p.run ≠ r.id) →
      x.converts c.val = true → x.capturing c.val = false →
      x.calSlot c.val (x.g F.ADC_SEQ_CH (c.val * 16 + e.val)) (x.g F.ADC_SEQ_GAIN (c.val * 16 + e.val)) = none →
      frac.val ≠ 128 → ∃ u : State, exec (.adcResult d c e false code frac at0 atFull hold) s = .next u ∧
        Word.bits ((u.die d).rd .ADC_LAST (c.val * 16 + e.val)) 15 0 = min (code.val + (if 128 ≤ frac.val then 1 else 0)) 65535 ∧
        Word.bits ((u.die d).rd .ADC_LAST (c.val * 16 + e.val)) 21 16 = x.g F.ADC_SEQ_CH (c.val * 16 + e.val) ∧
        ((u.die d).rd .ADC_LAST (c.val * 16 + e.val)).getLsbD 23 = r.retried ∧
        ((u.die d).rd .ADC_LAST (c.val * 16 + e.val)).getLsbD 30 = r.spare ∧
        Word.bits ((u.die d).rd .ADC_LAST (c.val * 16 + e.val)) 63 32 = hold * 25 / 2 % 2 ^ 32 ∧
        ((u.die d).rd .ADC_LAST (c.val * 16 + e.val)).getLsbD 31 = false ∧
        ((u.die d).g F.ADC_STAT_LVALID c.val).testBit e.val = true ∧ ((u.die d).adc c.val).runs = [] ∧
        (x.g F.ADC_CFG_MODE c.val = 2 → x.g F.ADC_CFG_LAST c.val < q.entry → ((u.die d).adc c.val).pass = false) ∧
        (x.g F.ADC_SEQ_QEN (c.val * 16 + e.val) ≠ 1 → ((u.die d).adc c.val).queue = q.queue) ∧
        (x.g F.ADC_SEQ_QEN (c.val * 16 + e.val) = 1 → q.queue.length < 256 →
          ((u.die d).adc c.val).queue = q.queue ++ [(u.die d).rd .ADC_LAST (c.val * 16 + e.val)]) ∧
        (x.g F.ADC_SEQ_QEN (c.val * 16 + e.val) = 1 → 256 ≤ q.queue.length →
          ((u.die d).adc c.val).queue = q.queue.tail ++ [(u.die d).rd .ADC_LAST (c.val * 16 + e.val)] ∧
          (u.die d).g F.ADC_QSTAT_OVF c.val = 1))

/-- R280-R282: the slices. The oldest conversion of a slice finishes at or after its hold, late where more than 87.5 ns after it. A first late one is a strike and is repeated; a late one of a slice with a strike retires it:
the spare takes its place, and without a spare the converter is in FAULT; a good one clears the strike with source 436 + 2c; the spare's self-check, once a round, outside 62,500 ± 500 takes the spare away; SLOWCAL,
each 100 ms, says that a slice converted fewer than 4,096 times. -/
def Sys2Proof.Claims.AdcSlices : Prop :=
  ∀ (s : State) d (c : Fin 2) t (x : LogicDie) (q : AdcSt), x = (s.die d).at t → q = x.adc c.val →
    (∀ k : Fin 8, ∀ late df, (x.converts c.val = false ∨ x.capturing c.val = false ∧ ∀ p ∈ q.parts, p.slice ≠ k.val) →
      DieDoes (.conversion d c k late df t) s d t id) ∧
    (∀ (k : Fin 8) p rest (r : AdcSt), q.parts = p :: rest → p.slice = k.val → x.converts c.val = true → x.capturing c.val = false →
      r = { q with parts := rest, tally := Sparse.put (fun _ => 0) q.tally k.val (Sparse.get (fun _ => 0) q.tally k.val + 1) } →
      (∀ late df, (t < gridNs p.hold ∨ late ≠ decide (gridNs (p.hold + 7) < t)) → DieDoes (.conversion d c k late df t) s d t id) ∧
      (gridNs p.hold ≤ t → x.shadowing c.val = false → ∀ df,
        (t ≤ gridNs (p.hold + 7) →
          (q.strikes.testBit k.val = false → DieDoes (.conversion d c k false df t) s d t (fun x => x.setAdc c.val r)) ∧
          (q.strikes.testBit k.val = true → DieDoes (.conversion d c k false df t) s d t (fun x =>
            ((x.count F.ADC_SLCNT_TRANS 1 c.val).setAdc c.val { r with strikes := clrBit q.strikes k.val }).raise d
              (436 + 2 * c.val) k.val))) ∧
        (gridNs (p.hold + 7) < t →
          (q.strikes.testBit k.val = false → DieDoes (.conversion d c k true df t) s d t (fun x => x.setAdc c.val { r with
            strikes := setBit q.strikes k.val
            runs := q.runs.map (fun m => if p.run = m.id then { m with redo := m.redo ++ [(k.val, false)], retried := true } else m) })) ∧
          (q.strikes.testBit k.val = true → x.g F.ADC_STAT_SUBST c.val = 1 → DieDoes (.conversion d c k true df t) s d t (fun x =>
            let x := (((x.setAdc c.val r).p F.ADC_STAT_FAULT 1 c.val).p F.ADC_STAT_RETEVT 1 c.val).raise d (437 + 2 * c.val)
              (k.val + 2 * 16)
            x.setAdc c.val { x.adc c.val with pass := false, urgent := [], runs := [], parts := [] }))))) ∧
    ((x.shadowing c.val = false ∨ q.shadowed < 4096) → DieDoes (.shadowMove d c t) s d t id) ∧
    (x.shadowing c.val = true → 4096 ≤ q.shadowed →
      (q.shadow < 7 → DieDoes (.shadowMove d c t) s d t (fun x =>
        x.setAdc c.val { q with shadow := q.shadow + 1, shadowed := 0 })) ∧
      (q.shadow = 7 → DieDoes (.shadowMove d c t) s d t (fun x =>
        ((x.setAdc c.val { q with shadow := 0, shadowed := 0, checked := false }).count F.ADC_SLCNT_ROUNDS 1 c.val).p F.ADC_STAT_CONVERGED 1
          c.val))) ∧
    (∀ code : Fin 65536, ((x.converts c.val = false ∨ x.g F.ADC_STAT_NOSPARE c.val = 1) → DieDoes (.spareSelfCheck d c code t) s d t id) ∧
      (x.converts c.val = true → x.g F.ADC_STAT_NOSPARE c.val ≠ 1 → q.checked = false →
        (62000 ≤ code.val ∧ code.val ≤ 63000 → DieDoes (.spareSelfCheck d c code t) s d t (fun x =>
          x.setAdc c.val { q with checked := true })) ∧
        (¬ (62000 ≤ code.val ∧ code.val ≤ 63000) → x.g F.ADC_STAT_SUBST c.val ≠ 1 →
          DieDoes (.spareSelfCheck d c code t) s d t (fun x =>
            ((x.setAdc c.val { q with checked := true }).p F.ADC_STAT_NOSPARE 1 c.val).raise d (437 + 2 * c.val) (8 + 4 * 16))))) ∧
    (∀ j, (t ≠ (j + 1) * 100000000 ∨ t ≤ q.slowAt ∨ x.g F.PWR_DOM_STATE 8 ≠ 2) → DieDoes (.slowcal d c j t) s d t id) ∧
    (∀ j, t = (j + 1) * 100000000 → q.slowAt < t → x.g F.PWR_DOM_STATE 8 = 2 → DieDoes (.slowcal d c j t) s d t (fun x =>
      (x.setAdc c.val { q with tally := [], slowAt := t }).p F.ADC_STAT_SLOWCAL
        (if ∃ k : Fin 8, Sparse.get (fun _ => 0) q.tally k.val < 4096 then 1 else 0) c.val))

/-- R284: calibration. Without CALEN every command is an access error; ZERO and FULL start a measurement of their slot on a converter that converts; CLEAR takes the slot's VALID; a measurement whose 4,096
conversions are made yields SATURATED where a code was 0 or 65,535, NOZERO for FULL without a stored zero point, and stores the zero point of ZERO; a slot that no entry uses is UNUSED. -/
def Sys2Proof.Claims.AdcCalibration : Prop :=
  ∀ (s : State) d (c : Fin 2) (k : Fin 16) t (x : LogicDie) (q : AdcSt), x = (s.die d).at t → q = x.adc c.val →
    (x.g F.ADC_CTRL_CALEN ≠ 1 → ∀ p, ∀ i ∈ [Instr.calZero d c k p t, .calFull d c k p t, .calClear d c k p t],
      DieDoes i s d t (fun x => x.raise d 9 (errDetail p (regAddr .ADC_CALCMD 0)))) ∧
    (x.g F.ADC_CTRL_CALEN = 1 → q.cal = none → ∀ p,
      (x.converts c.val = true → q.runs = [] → q.parts = [] → q.urgent = [] → ∀ r ∈ [(Instr.calZero d c k p t, false), (.calFull d c k p t, true)],
        DieDoes r.1 s d t (fun x => (((x.p F.ADC_CALSTAT_CONV c.val).p F.ADC_CALSTAT_SLOT k.val).p
          F.ADC_CALSTAT_BUSY 1).setAdc c.val { q with cal := some (k.val, r.2), next := max q.next (gridAt x.now) })) ∧
      ∃ y : LogicDie, exec (.calClear d c k p t) s = .next (s.setDie d y) ∧ y.g F.ADC_CAL_VALID (c.val * 16 + k.val) = 0 ∧
        y.g F.ADC_CALSTAT_DONE = 1) ∧
    (q.cal = none → ∀ sum sat, DieDoes (.calibrationDone d c sum sat t) s d t id) ∧
    (∀ j full, q.cal = some (j, full) → ∀ sum,
      (x.calUsable c.val j = false → ∀ sat, ∃ u : State, exec (.calibrationDone d c sum sat t) s = .next u ∧
        (u.die d).g F.ADC_CALSTAT_RESULT = 3 ∧ (u.die d).g F.ADC_CALSTAT_DONE = 1 ∧ ((u.die d).adc c.val).cal = none) ∧
      (x.calUsable c.val j = true → q.measured = false → ∀ sat, DieDoes (.calibrationDone d c sum sat t) s d t id) ∧
      (x.calUsable c.val j = true → q.measured = true → x.converts c.val = true → x.capturing c.val = false →
        (∃ u : State, exec (.calibrationDone d c sum true t) s = .next u ∧
          (u.die d).g F.ADC_CALSTAT_RESULT = 2 ∧ (u.die d).g F.ADC_CALSTAT_DONE = 1 ∧ ((u.die d).adc c.val).cal = none) ∧
        (full = false → ∃ u : State, exec (.calibrationDone d c sum false t) s = .next u ∧ (u.die d).g F.ADC_CALSTAT_RESULT = 0 ∧
          Sparse.get (fun _ => none) ((u.die d).adc c.val).zero j = some sum ∧ ((u.die d).adc c.val).cal = none) ∧
        (full = true → Sparse.get (fun _ => none) q.zero j = none →
          ∃ u : State, exec (.calibrationDone d c sum false t) s = .next u ∧ (u.die d).g F.ADC_CALSTAT_RESULT = 1)))

/-- No force bit of a logic die is set (R304). -/
def Unforced (x : LogicDie) : Prop := ∀ k, k < 8 → x.g F.FC_FORCE_BITS k = 0 ∧ x.g F.FC_FORCEW_BITS k = 0

/-- R297-R303, R24, R60, R299: a source of a logic die that a sample confirms while no record is open, the power-down sequence does not run, and no penned unit mutes it. It is seen; the record holds it as first and as
class source, with the timebase and the fold; its class is the larger of the parameter class and the default; class 0 closes the record at once; class 2 or 3 takes the channel safe: every own switch open, no output command,
no fold. A second assertion of a source already asserted changes nothing. -/
def Sys2Proof.Claims.FaultOpensRecord : Prop :=
  ∀ (s : State) d t (src : Fin 512) (detail : BitVec 48) (x : LogicDie) cls, x = (s.die d).at t → dieSource d src.val = true → Unforced x →
    x.fc.wire.testBit src.val = false →
    cls = max (bitsOf (x.g F.FC_CLASS_CLASS (src.val / 32)) (2 * (src.val % 32) + 1) (2 * (src.val % 32)))
      ((x.dynClass src.val).getD (defaultClass src.val)) →
    (x.fc.held.testBit src.val = true → DieDoes (.faultEvent (some d) [(src, detail)] [] t) s d t id) ∧
    (x.fc.held.testBit src.val = false → x.g F.PWR_STAT_PDSEQ ≠ 1 → x.muted src.val = false → x.g F.FC_CTRL_OPEN ≠ 1 →
      ∃ y : LogicDie, exec (.faultEvent (some d) [(src, detail)] [] t) s = .next (s.setDie d y) ∧
        y.fc.held.testBit src.val = true ∧ y.fc.lastEvent = x.now ∧
        (y.g F.FC_SEEN_BITS (src.val / 64)).testBit (src.val % 64) = true ∧
        y.g F.FC_RECS_CLASS = cls ∧ y.g F.FC_RECA_SRC = src.val ∧ y.g F.FC_RECB_SRC = src.val ∧ y.g F.FC_RECB_DETAIL = detail.toNat ∧
        y.g F.FC_RECT_VALUE = x.now % 2 ^ 64 ∧ y.g F.FC_RECN_VALUE = x.recFold % 2 ^ 64 ∧ y.g F.FC_RECS_WIRE = 0 ∧ y.g F.FC_RECS_FORCED = 0 ∧
        (cls = 0 → y.g F.FC_CTRL_OPEN = 0) ∧ (1 ≤ cls → y.g F.FC_CTRL_OPEN = 1) ∧
        (2 ≤ cls → x.g F.FC_CTRL_SAFE ≠ 1 → y.wentSafe = true) ∧
        (cls ≤ 1 → 1 ≤ cls → y.g F.FC_CTRL_SAFE = x.g F.FC_CTRL_SAFE ∧ y.mem = x.mem ∧ y.core = x.core))

/-- R298, R302, R303: what joins an open record: MERGED counts it, the class rises with its source to the larger, and first source, time and fold stay; a WIRE event of a source below class 2 is
class 0 and marks the record. -/
def Sys2Proof.Claims.FaultMerges : Prop :=
  ∀ (s : State) d t (src : Fin 512) (detail : BitVec 48) (x : LogicDie) (i : Instr) (w : Bool) cls, x = (s.die d).at t →
    dieSource d src.val = true → Unforced x → x.fc.held.testBit src.val = false → x.fc.wire.testBit src.val = false → x.g F.PWR_STAT_PDSEQ ≠ 1 → x.muted src.val = false →
    x.g F.FC_CTRL_OPEN = 1 →
    (i = .faultEvent (some d) [(src, detail)] [] t ∧ w = false ∨ i = .wire (some d) src detail t ∧ w = true) →
    cls = x.evClass ⟨src.val, detail.toNat, x.dynClass src.val, w, false⟩ →
    ∃ y : LogicDie, exec i s = .next (s.setDie d y) ∧
      y.g F.FC_RECS_MERGED = min (x.g F.FC_RECS_MERGED + 1) 65535 ∧
      y.g F.FC_RECA_SRC = x.g F.FC_RECA_SRC ∧ y.g F.FC_RECT_VALUE = x.g F.FC_RECT_VALUE ∧ y.g F.FC_RECN_VALUE = x.g F.FC_RECN_VALUE ∧
      y.g F.FC_RECS_CLASS = max (x.g F.FC_RECS_CLASS) cls ∧
      (y.g F.FC_RECS_WIRE = if w then 1 else x.g F.FC_RECS_WIRE) ∧
      (cls ≤ x.g F.FC_RECS_CLASS → y.g F.FC_RECB_SRC = x.g F.FC_RECB_SRC) ∧
      (x.g F.FC_RECS_CLASS < cls → y.g F.FC_RECB_SRC = src.val) ∧
      (w = true → cls = 0 ∨ 2 ≤ cls)

/-- R305-R308: a record closes QUIET after the last event with no source of class 1 or above asserted, and not before; a closed record of class 2 or 3 on a die neither locked nor without resume sets READY with a
proposal of its fold number at a fold start at least 1 ms ahead. A write of the recovery count wins over a close in the same cycle. A proposal received is kept, and replaces an own one that has passed. -/
def Sys2Proof.Claims.FaultCloses : Prop :=
  ∀ (s : State) d t (x : LogicDie), x = (s.die d).at t →
    ((x.g F.FC_CTRL_OPEN ≠ 1 ∨ x.busySource d = true ∨ x.now < max x.fc.lastEvent x.fc.lastActive + x.g F.FC_QUIET_QUIET * 1000000) →
      DieDoes (.recordClose (some d) t) s d t id) ∧
    (x.g F.FC_CTRL_OPEN = 1 → x.busySource d = false → max x.fc.lastEvent x.fc.lastActive + x.g F.FC_QUIET_QUIET * 1000000 ≤ x.now →
      ∃ y : LogicDie, exec (.recordClose (some d) t) s = .next (s.setDie d y) ∧ y.g F.FC_CTRL_OPEN = 0 ∧ y.g F.FC_RECS_OPEN = 0 ∧
        y.g F.LOG_STAT_HEAD = (x.g F.LOG_STAT_HEAD + 1) % 2048 ∧
        (2 ≤ x.g F.FC_RECS_CLASS → y.g F.FC_CTRL_LOCKED ≠ 1 → y.g F.FC_CTRL_NORESUME ≠ 1 → y.g F.FC_CTRL_READY = 1 ∧
          ∃ i, y.fc.mine = some (x.g F.FOLD_NUMBER_NUMBER, i) ∧ x.now + 1000000 ≤ i) ∧
        (x.g F.FC_RECS_CLASS < 2 → y.g F.FC_CTRL_LOCKED ≠ 1 → y.fc.mine = x.fc.mine)) ∧
    (∀ v : Word, ∃ y : LogicDie, exec (.fcReccntWrite (some d) v true t) s = .next (s.setDie d y) ∧
      y.g F.FC_RECCNT_COUNT = v.toNat % 2 ^ 32) ∧
    (∀ v : Word, DieDoes (.fcReccntWrite (some d) v false t) s d t (fun x =>
      let x := if v.getLsbD 32 then x.p F.FC_RECCNT_WRAP 0 else x
      x.p F.FC_RECCNT_COUNT (v.toNat % 2 ^ 32))) ∧
    ((∀ n i, .resume n i ∉ x.xl.inbox) → DieDoes (.resumeProposal d t) s d t id) ∧
    (∀ n i pre rest, x.xl.inbox = pre ++ .resume n i :: rest → (∀ m j, .resume m j ∉ pre) →
      ∃ y : LogicDie, exec (.resumeProposal d t) s = .next (s.setDie d y) ∧ y.fc.theirs = some (n, i) ∧ y.xl.inbox = pre ++ rest ∧
        (x.fc.mine = none → y = { x with fc := { x.fc with theirs := some (n, i) }, xl := { x.xl with inbox := pre ++ rest } }) ∧
        (∀ m own, x.fc.mine = some (m, own) → (t < own → y.fc.mine = some (m, own)) ∧
          (own ≤ t → ∃ j, y.fc.mine = some (x.g F.FOLD_NUMBER_NUMBER, j) ∧ x.now + 1000000 ≤ j)))

/-- R304, R310: force bits. The companion core and host requests may write them on a logic die, host firmware and the host on the host die, in CERTIFIED only in a proof-test session; any other write is an
access error; a permitted write drives and releases the pairs as the bits say, and an event of the unit itself reaches no collector through a driven pair. -/
def Sys2Proof.Claims.ForceBits : Prop :=
  ∀ (s : State) t (k : Fin 8) (v : Word) p (w : Bool),
    (∀ d (x : LogicDie), x = (s.die d).at t →
      (((p ≠ .companion ∧ p ≠ .hostReq) ∨ (x.boot.host.info % 4 = 2 ∧ (x.g F.DBG_STAT_SCOPE).testBit 3 = false)) →
        exec (.fcForce (some d) w k v p t) s = .next { s.setDie d (x.raise d 9 (errDetail p
          (regAddr (if w then .FC_FORCEW else .FC_FORCE) k.val))) with fresh := s.fresh + 1 }) ∧
      ((p = .companion ∨ p = .hostReq) → (x.boot.host.info % 4 ≠ 2 ∨ (x.g F.DBG_STAT_SCOPE).testBit 3 = true) →
        ∃ y : LogicDie, exec (.fcForce (some d) w k v p t) s = .next { s.setDie d y with fresh := s.fresh + 1 } ∧
          y.g (if w then F.FC_FORCEW_BITS else F.FC_FORCE_BITS) k.val = v.toNat) ∧
      (∀ src detail, ((x.g F.FC_FORCE_BITS (src / 64)).testBit (src % 64) = true ∨
          (x.g F.FC_FORCEW_BITS (src / 64)).testBit (src % 64) = true) → x.raise d src detail = x)) ∧
    (∀ h : HostDie, h = s.host.at t →
      (p ≠ .hostFirmware → p ≠ .hostBar →
        exec (.fcForce none w k v p t) s = .next { s with
          host := h.raise 33 (errDetail p (regAddr (if w then .HFC_FORCEW else .HFC_FORCE) k.val)), fresh := s.fresh + 1 }) ∧
      ((p = .hostFirmware ∨ p = .hostBar) → (h.g F.SEC_LC_LC ≠ 2 ∨ (h.g F.HDBG_STAT_SCOPE).testBit 3 = true) → k.val < 4 →
        ∃ y : HostDie, exec (.fcForce none w k v p t) s = .next { s with host := y, fresh := s.fresh + 1 } ∧
          y.g (if w then F.HFC_FORCEW_BITS else F.HFC_FORCE_BITS) k.val = v.toNat))

/-- R310, R312: a source of the host die that a sample confirms while no host record is open: it is seen, MSI-X vector 0 is signalled, the record holds it; class 0 closes at once; class 3 sends device-safe notes to both logic
dies and silences the stile. -/
def Sys2Proof.Claims.HostFaults : Prop :=
  ∀ (s : State) t (src : Fin 512) (detail : BitVec 48) (h : HostDie) cls, h = s.host.at t → hostSource src.val = true →
    (∀ k, k < 4 → h.g F.HFC_FORCE_BITS k = 0 ∧ h.g F.HFC_FORCEW_BITS k = 0) → h.fc.held.testBit src.val = false →
    h.g F.HFC_CTRL_OPEN ≠ 1 →
    cls = max (bitsOf (h.g F.HFC_CLASS_CLASS (src.val / 32)) (2 * (src.val % 32) + 1) (2 * (src.val % 32))) (hostClass src.val) →
    ∃ y : HostDie, exec (.faultEvent none [(src, detail)] [] t) s = .next { s with host := y } ∧
      y.fc.held.testBit src.val = true ∧ 0 ∈ y.msix ∧ y.g F.HFC_RECA_SRC = src.val ∧ y.g F.HFC_RECS_CLASS = cls ∧
      y.g F.HFC_RECB_DETAIL = detail.toNat ∧ (cls = 0 → y.g F.HFC_CTRL_OPEN = 0) ∧ (1 ≤ cls → y.g F.HFC_CTRL_OPEN = 1) ∧
      (cls = 3 → y.muted = true)

/-- R320, R327, R334, R405: HELLO opens a session. A logic die that hears the host die's HELLO keeps its security data, sets SESSION, and counts messages from 1; an end that has no new HELLO before it changes nothing; a HELLO at the
host die sets the session bit and starts numbers over. -/
def Sys2Proof.Claims.HelloOpensSession : Prop :=
  ∀ (s : State) l t (e : Sent) (h : Hello),
    ((s.endAt l false t).newHello l false = none → exec (.hello l false t) s = .next (s.endAt l false t)) ∧
    ((s.endAt l true t).newHello l true = none → exec (.hello l true t) s = .next (s.endAt l true t)) ∧
    ((s.endAt l false t).newHello l false = some (e, h) →
      ∃ u : State, exec (.hello l false t) s = .next u ∧ (u.die l).boot.host = h ∧ (u.die l).g F.STL_STAT_SESSION = 1 ∧
        (u.die l).stl.heard = true ∧ (u.die l).stl.expect = 1 ∧ u.die (other l) = s.die (other l)) ∧
    ((s.endAt l true t).newHello l true = some (e, h) →
      ∃ u : State, exec (.hello l true t) s = .next u ∧ (u.host.link l).heard = true ∧ (u.host.link l).expect = 1)

/-- R334: the download messages at a logic die. IMAGE_BEGIN starts a transfer where the die waits for one; a chunk at the next offset is stored and a chunk elsewhere makes the transfer inconsistent; IMAGE_END compares totals and
count; PARAM_WRITE stores in order up to LAST; other messages are not taken. -/
def Sys2Proof.Claims.DownloadMessages : Prop :=
  ∀ (s : State) d t (x : LogicDie) (u : State), x = (s.die d).at t → u = s.modDie d (·.at t) →
    (∀ total, u.incoming d false = some (.imageBegin total) → x.boot.phase = .hello →
      DieHears (.imageBegin d t) s d t (fun x => { x with boot := { x.boot with
        phase := .image, total := total, image := [], chunks := 0, params := [], fails := [], lastMsg := t,
        peerFiles := none, peerTally := none, peerVerdict := none } })) ∧
    (∀ ofs data last, u.incoming d false = some (.imageChunk ofs data last) → x.boot.phase = .image →
      (ofs ≠ x.boot.image.length → DieHears (.imageChunk d t) s d t (fun x => { x with boot := { x.boot with
        fails := x.boot.fails ++ [(2, 0)], lastMsg := t, chunks := x.boot.chunks + 1 } })) ∧
      (ofs = x.boot.image.length → ∃ m, DieHears (.imageChunk d t) s d t (fun x => { x with
        mem := m, boot := { x.boot with image := x.boot.image ++ data, chunks := x.boot.chunks + 1, lastMsg := t } }))) ∧
    (∀ total chunks, u.incoming d false = some (.imageEnd total chunks) → x.boot.phase = .image →
      DieHears (.imageEnd d t) s d t (fun x => { x with boot := { x.boot with
        phase := .params, lastMsg := t,
        fails := x.boot.fails ++ (if total = x.boot.image.length ∧ total = x.boot.total ∧ chunks = x.boot.chunks then []
          else [(2, 0)]) } })) ∧
    (∀ ofs data last, u.incoming d false = some (.paramWrite ofs data last) → x.boot.phase = .params →
      (ofs = x.boot.params.length → DieHears (.paramWrite d t) s d t (fun x => { x with boot := { x.boot with
        params := x.boot.params ++ data, lastMsg := t, phase := if last then .verify else .params } })) ∧
      (ofs ≠ x.boot.params.length → DieHears (.paramWrite d t) s d t (fun x => { x with boot := { x.boot with
        fails := x.boot.fails ++ [(2, 0)], lastMsg := t, phase := if last then .verify else .params } }))) ∧
    (u.incoming d false = none → ∀ i ∈ [Instr.imageBegin d t, .imageChunk d t, .imageEnd d t, .paramWrite d t],
      DieDoes i s d t id)

/-- R309, R334-R336, R346, R448: the boot ROM of a logic die steps from its scrub to HELLO with the reason of its reset, from verification to the tally, where it waits for the other die's files, and from the comparison to its
verdict, where it waits for the other's: both passed, and the collector is not LOCKED, it starts, and STL_TALLY shows the tally; the other failed, it reports 0x0E; a die that its collector has LOCKED since reports 0x10 and tells the other; a download silent for 100 ms is abandoned with verdict 0x02 and the die waits
again; 50 ms after HELLO without the other channel the crosslink counts as cut. -/
def Sys2Proof.Claims.FieldBoot : Prop :=
  ∀ (s : State) d t (x : LogicDie), x = (s.die d).at t →
    (x.boot.phase = .scrub → ∀ xl, ∃ y : LogicDie, exec (.fieldBoot d [] xl t) s = .next (s.setDie d y) ∧ y.boot.phase = .hello ∧
      y.boot.helloAt = t ∧ y.stl.opened = true ∧ y.g F.STL_STAT_REASON = x.boot.reason % 2 ^ (F.STL_STAT_REASON.hi + 1 -
        F.STL_STAT_REASON.lo) ∧ y.g F.STL_VERD_VALID = 0) ∧
    (x.boot.phase = .verify → ∀ a b, ∃ y : LogicDie, exec (.fieldBoot d a b t) s = .next (s.setDie d y) ∧ y.boot.phase = .tally ∧
      (x.boot.fails ≠ [] → y.boot.imgDigest = Config.sha384 x.boot.image ∧ y.boot.parDigest = Config.sha384 x.boot.params ∧
        y.boot.blocks = 0)) ∧
    (x.boot.phase = .tally → x.boot.peerFiles = none → x.boot.xlCut = false → x.boot.peerVerdict = none → ∀ a b,
      DieDoes (.fieldBoot d a b t) s d t id) ∧
    (x.boot.phase = .tally → ∀ f, x.boot.peerFiles = some f → f.image = x.boot.imgDigest → f.params = x.boot.parDigest → f.twins = x.twins →
      ∀ a b, ∃ y : LogicDie, exec (.fieldBoot d a b t) s = .next (s.setDie d y) ∧ y.boot.phase = .compare ∧ y.boot.fails = x.boot.fails ∧
        y.boot.tally = (match d with | .la => x.tallyOf x.boot.pins f.pins | .lb => x.tallyOf f.pins x.boot.pins) ∧
        y.g F.CK_RES_VALUE 3 = y.boot.tally % 2 ^ 64 ∧ y.g F.STL_TALLY_TALLY = x.g F.STL_TALLY_TALLY) ∧
    (x.boot.phase = .compare → x.boot.peerTally = some x.boot.tally → x.boot.xlCut = false → x.g F.FC_CTRL_LOCKED ≠ 1 → ∀ a b,
      ∃ y : LogicDie, exec (.fieldBoot d a b t) s = .next (s.setDie d y) ∧ y.boot.phase = .verdict ∧ y.boot.fails = x.boot.fails) ∧
    (x.boot.phase = .verdict → x.boot.fails = [] → x.boot.xlCut = false → x.g F.FC_CTRL_LOCKED ≠ 1 → ∀ a b,
      (x.boot.peerVerdict = none → DieDoes (.fieldBoot d a b t) s d t id) ∧
      (x.boot.peerVerdict = some true → ∃ y : LogicDie, exec (.fieldBoot d a b t) s = .next (s.setDie d y) ∧ y.boot.phase = .done ∧
        y.g F.STL_VERD_VALID = 1 ∧ y.g F.STL_VERD_PASS = 1 ∧ y.g F.STL_TALLY_TALLY = x.boot.tally % 2 ^ 64 ∧ y.core.pc = x.hdr.entry ∧ y.comp.pc = x.hdr.compEntry ∧
        (y.comp.on = !x.hdr.triad)) ∧
      (x.boot.peerVerdict = some false → ∃ y : LogicDie, exec (.fieldBoot d a b t) s = .next (s.setDie d y) ∧ y.boot.phase = .hello ∧
        y.g F.STL_VERD_PASS = 0 ∧ y.g F.STL_VERD_REASON = 0xE)) ∧
    (x.boot.phase = .verdict → x.boot.fails = [] → x.boot.peerVerdict.isSome = true → x.g F.FC_CTRL_LOCKED = 1 → ∀ a b,
      ∃ y : LogicDie, exec (.fieldBoot d a b t) s = .next (s.setDie d y) ∧ y.boot.phase = .hello ∧ y.g F.STL_VERD_PASS = 0 ∧
        y.g F.STL_VERD_REASON = 0x10 ∧ ∃ q ∈ y.xl.tx, q.item = .verdict false) ∧
    ((x.boot.phase = .hello ∨ x.boot.phase = .done ∨ x.boot.phase = .off ∨ x.boot.phase = .cut) →
      ∀ a b, DieDoes (.fieldBoot d a b t) s d t id) ∧
    ((x.boot.phase = .image ∨ x.boot.phase = .params) → x.boot.lastMsg + 100000000 < t → ∃ y : LogicDie,
      exec (.downloadTimeout d t) s = .next (s.setDie d y) ∧ y.boot.phase = .hello ∧ y.boot.fails = [(2, 0)] ∧
        y.g F.STL_VERD_VALID = 1 ∧ y.g F.STL_VERD_PASS = 0 ∧ y.g F.STL_VERD_REASON = 2) ∧
    ((x.boot.phase ≠ .image ∧ x.boot.phase ≠ .params ∨ t ≤ x.boot.lastMsg + 100000000) →
      DieDoes (.downloadTimeout d t) s d t id) ∧
    ((x.boot.phase = .hello ∨ x.boot.phase = .tally) → x.boot.helloAt + 50000000 ≤ t →
      DieDoes (.crosslinkTimeout d t) s d t (fun x => { x with boot := { x.boot with xlCut := true } })) ∧
    (t < x.boot.helloAt + 50000000 → DieDoes (.crosslinkTimeout d t) s d t id)

/-- R333, R336, R338, R339: the host die's side of boot and download. FIELD while a download is busy is an access error; where a FOLD_DONE has come since a die's last HELLO, or one of those had reason 3, it sends RESTART to both dies at once; RELEASE clears CACHE_VALID; BOOT acts only while the boot ROM waits; an automatic download starts only with AUTO,
CACHE_VALID and sessions due, at once where no FOLD_DONE has come since the dies' last HELLO and none had reason 3; the second verdict of a download ends it: RESULT, DONE, MSI-X vector 3, and CACHE_VALID where both passed with one tally. -/
def Sys2Proof.Claims.HostBootAndDownload : Prop :=
  ∀ (s : State) t (h : HostDie), h = s.host.at t → h.pw.nrstAt = none →
    HostDoes (.release t) s t (fun h => h.p F.HSTL_STAT_CACHE_VALID 0) ∧
    (∀ p, h.g F.HSTL_STAT_DL_BUSY = 1 → HostDoes (.field p t) s t (fun h => h.raise 33 (errDetail p (regAddr .HSTL_DL_CMD 0)))) ∧
    (∀ p, h.g F.HSTL_STAT_DL_BUSY ≠ 1 → h.folds = 0 → h.lastReason3 = 0 → h.g F.HSTL_STAT_SESSA ≠ 1 → HostDoes (.field p t) s t (fun h =>
      { (h.p F.HSTL_STAT_DL_BUSY 1).p F.HSTL_DL_STAT_BUSY 1 with down := ⟨true, false, 0, false, 0, 0, 0, 0, 0⟩ })) ∧
    (∀ p, h.g F.HSTL_STAT_DL_BUSY ≠ 1 → (h.folds ≠ 0 ∨ h.lastReason3 ≠ 0) → ∃ u : State, exec (.field p t) s = .next u ∧
      u.host.g F.HSTL_DL_STAT_BUSY = 1 ∧ u.host.down.await = 3 ∧ u.host.down.sending = false ∧
      ∀ l, onLink u.host l (.hostReq 4 0 0 0)) ∧
    (h.down.busy = false → (h.g F.HSTL_CFG_AUTO ≠ 1 ∨ h.g F.HSTL_STAT_CACHE_VALID ≠ 1 ∨ h.down.due = false) →
      HostDoes (.autoDownload t) s t id) ∧
    (h.down.busy = false → h.g F.HSTL_CFG_AUTO = 1 → h.g F.HSTL_STAT_CACHE_VALID = 1 → h.down.due = true →
      h.g F.HSTL_STAT_SESSA = 1 → h.g F.HSTL_STAT_SESSB = 1 →
      h.folds = 0 → h.lastReason3 = 0 → ∃ u : State,
      exec (.autoDownload t) s = .next u ∧ u.host.down.sending = true ∧ u.host.g F.HSTL_DL_STAT_BUSY = 1 ∧
      ∀ l, onLink u.host l (.imageBegin (h.g F.HSTL_DL_IMG_LEN))) ∧
    (h.g F.HSTL_DL_STAT_READY ≠ 1 → HostDoes (.boot t) s t id) ∧
    (h.g F.HSTL_DL_STAT_READY = 1 → ∃ y : HostDie, exec (.boot t) s = .next { s with host := y } ∧ y.g F.HSTL_DL_STAT_DONE = 1 ∧
      (y.g F.HSTL_DL_STAT_BUSY = if h.down.busy then 1 else 0) ∧ 3 ∈ y.msix ∧ (y.g F.HSTL_DL_STAT_READY = 1 → y.running = h.running ∧ y.mem = h.mem)) ∧
    (∀ l reason detail digest tally, (s.modHost (·.at t)).incoming l true = some (.imageVerdict reason detail digest tally) →
      (h.down.sending = false → ∃ bs, HostHears (.imageVerdict l t) s l t (fun h => (h.ringPut bs).setVerd l reason detail)) ∧
      (h.down.sending = true → h.down.got = 2 ^ (other l).num → ∃ u : State, exec (.imageVerdict l t) s = .next u ∧
        u.host.g F.HSTL_DL_STAT_DONE = 1 ∧ u.host.g F.HSTL_DL_STAT_BUSY = 0 ∧ u.host.down.busy = false ∧ 3 ∈ u.host.msix ∧
        (u.host.g F.HSTL_STAT_CACHE_VALID = 1 ↔ reason = 0 ∧ (if l = .la then h.down.reasonB else h.down.reasonA) = 0 ∧
          tally = (if l = .la then h.down.tallyB else h.down.tallyA)))) ∧
    (∀ l a b c, (s.modHost (·.at t)).incoming l true = some (.paramAck a b c) →
      ∃ bs, bs.getD 0 0 = 7 ∧ HostHears (.paramAck l t) s l t (fun h => h.ringPut bs))

/-- R353, R358-R360: a VCT_RX at a logic die. A frame that fails the checks, its CRC or its sequence counts in CHKERR, CRCERR or SEQERR and has no other effect; an accepted one that is no stop is stored and announced over the
crosslink; an accepted STOP opens the switches of its zones and queues an ACK. An announcement agrees on the stored frame, or waits for it. -/
def Sys2Proof.Claims.TelegramFrames : Prop :=
  ∀ (s : State) d t conn stamp (f : List Nat) (x : LogicDie) (u : State), x = (s.die d).at t → u = s.modDie d (·.at t) →
    (u.incoming d false = some (.vctRx conn stamp f) →
      (x.vctChecks conn f = false → DieHears (.vctRx d t) s d t (fun x => x.count F.VCT_CNT_CHKERR)) ∧
      (x.vctChecks conn f = true → x.vctCrcOk d conn f = false → DieHears (.vctRx d t) s d t (fun x => x.count F.VCT_CNT_CRCERR)) ∧
      (x.vctChecks conn f = true → x.vctCrcOk d conn f = true → x.seqFresh conn (frameAt f 20 1) (frameAt f 26 4) = false →
        DieHears (.vctRx d t) s d t (fun x => x.count F.VCT_CNT_SEQERR)) ∧
      (x.vctChecks conn f = true → x.vctCrcOk d conn f = true → x.seqFresh conn (frameAt f 20 1) (frameAt f 26 4) = true →
        frameAt f 19 1 ≠ 1 → conn ≠ 255 → (conn, frameAt f 20 1, frameAt f 26 4) ∉ x.vct.early →
        DieHears (.vctRx d t) s d t (fun x => LogicDie.note { x with vct := { x.vct with
          last := Sparse.put (fun _ => none) x.vct.last (lastKey conn (frameAt f 20 1)) (some (frameAt f 26 4))
          got := x.vct.got ++ [⟨conn, frameAt f 20 1, frameAt f 24 1, frameAt f 26 4, frameAt f 21 1, false, stamp,
            (f.drop 50).take (frameAt f 25 1), false⟩] } } (.accepted conn (frameAt f 20 1) (frameAt f 26 4)))) ∧
      (x.vctChecks conn f = true → x.vctCrcOk d conn f = true → x.seqFresh conn (frameAt f 20 1) (frameAt f 26 4) = true →
        frameAt f 19 1 = 1 → (conn, frameAt f 20 1, frameAt f 26 4) ∉ x.vct.early →
        ∃ y : LogicDie, exec (.vctRx d t) s = .next ((onItsWay u d false).setDie d y) ∧ (y.g F.VCT_EVT_EVT).testBit 0 = true ∧
          ∀ z, z < 16 → (frameAt f 22 2).testBit z = true → (x.g F.VCT_RXZ_STOPZ conn).testBit z = true →
            (y.g F.VCT_STAT_CHOLD).testBit z = true ∧
            ∀ n, n < 32 → x.zoneOf n = some z → (y.g F.SO_CMD_CLOSED).testBit n = false ∧ (y.g F.SO_HELD_BITS).testBit n = true)) ∧
    (∀ m, u.incoming d false = some m → (∀ c st fr, m ≠ .vctRx c st fr) → DieDoes (.vctRx d t) s d t id) ∧
    (u.incoming d false = none → DieDoes (.vctRx d t) s d t id) ∧
    (popAccepted x.xl.inbox = none → DieDoes (.vctAnnouncement d t) s d t id) ∧
    (∀ c src seq ns, popAccepted x.xl.inbox = some ((c, src, seq), ns) →
      (∀ g ∈ x.vct.got, ¬ (g.conn = c ∧ g.src = src ∧ g.seq = seq ∧ g.agreed = false)) →
      DieDoes (.vctAnnouncement d t) s d t (fun x => { x with
        xl := { x.xl with inbox := ns }, vct := { x.vct with early := x.vct.early ++ [(c, src, seq)] } })) ∧
    (∀ c src seq pre ns, (∀ a b e, .accepted a b e ∉ pre) →
      popAccepted (pre ++ .accepted c src seq :: ns) = some ((c, src, seq), pre ++ ns))

/-- R362-R365: the flock. FSCLR and TLARM are requests; a stop whose ackers have all acknowledged by ACKTO leaves the supervision without effect; the close of a cell fold, the beacon and the role act only at their instants; a device that has
heard no lower rank for its time takes the role with its own values; the beacon of the acting bellwether stands in place of a received one; FSCLR is taken at the start of a cell fold. -/
def Sys2Proof.Claims.FlockCommands : Prop :=
  ∀ (s : State) d t (x : LogicDie), x = (s.die d).at t →
    DieDoes (.fsclr d t) s d t (fun x => x.p F.VCT_CTRL_FSCLR 1) ∧
    DieDoes (.tlarm d t) s d t (fun x => x.p F.VCT_CTRL_TLARM 1) ∧
    (x.g F.VCT_STAT_BWL ≠ 1 → DieDoes (.stopSupervision d t) s d t (fun x => { x with vct := { x.vct with
        stops := x.vct.stops.filter (fun q => ¬ (q.stamp + x.g F.VCT_CFG_ACKTO * 1000 + x.g F.VCT_CFG_RXCUT * 1000 ≤ t)) } }) ∧
      DieDoes (.cellFoldClose d t) s d t id ∧ DieDoes (.beacon d t) s d t id) ∧
    (x.g F.VCT_STAT_BWL = 1 → ∀ q, x.vct.stops = [q] → q.stamp + x.g F.VCT_CFG_ACKTO * 1000 + x.g F.VCT_CFG_RXCUT * 1000 ≤ t →
      (∀ k ∈ x.ackers q, k = x.g F.VCT_CFG_DEV ∨ k ∈ q.acked) →
      DieDoes (.stopSupervision d t) s d t (fun x => { x with vct := { x.vct with stops := [] } })) ∧
    (x.g F.VCT_STAT_BWL = 1 → ∀ q, x.vct.stops = [q] → q.stamp + x.g F.VCT_CFG_ACKTO * 1000 + x.g F.VCT_CFG_RXCUT * 1000 ≤ t →
      (∃ k ∈ x.ackers q, k ≠ x.g F.VCT_CFG_DEV ∧ k ∉ q.acked) →
      ∃ y : LogicDie, exec (.stopSupervision d t) s = .next (s.setDie d y) ∧ y.vct.fsafe = true ∧ y.g F.VCT_STAT_FSAFE = 1 ∧
        (y.g F.VCT_EVT_EVT).testBit 6 = true ∧ y.vct.stops = []) ∧
    (x.g F.VCT_STAT_BWL = 1 → 0 < x.cper → (t < x.g F.VCT_CELL_DEADLINE * 1000 ∨
      (t - x.g F.VCT_CELL_DEADLINE * 1000) % x.cper ≠ 0) → DieDoes (.cellFoldClose d t) s d t id) ∧
    (x.g F.VCT_STAT_BWL = 1 → 0 < x.cper → ∀ n, t = x.g F.VCT_CELL_DEADLINE * 1000 + n * x.cper →
      ∃ y : LogicDie, exec (.cellFoldClose d t) s = .next (s.setDie d y) ∧ y.vct.number = n ∧
        ∀ dev, dev < 64 → x.member dev = true → dev ≠ x.g F.VCT_CFG_DEV → Sparse.get (fun _ => none) x.vct.contribs dev = none →
          y.vct.late.testBit dev = true) ∧
    (t ≠ x.vct.number * x.cper + x.g F.VCT_CELL_DEADLINE * 1000 + x.g F.VCT_CFG_RXCUT * 1000 → DieDoes (.beacon d t) s d t id) ∧
    (x.g F.VCT_STAT_BWL = 1 → 0 < x.cper → t = x.vct.number * x.cper + x.g F.VCT_CELL_DEADLINE * 1000 + x.g F.VCT_CFG_RXCUT * 1000 →
      ∃ y : LogicDie, ∃ b : Beacon, exec (.beacon d t) s = .next (s.setDie d y) ∧ y.vct.beacon = some b ∧ b.src = x.g F.VCT_CFG_DEV ∧
        b.stamp = t ∧ b.number = x.vct.number ∧ b.fsafe = x.vct.fsafe) ∧
    (∀ (a b : LogicDie), a = s.la.at t → b = s.lb.at t → (a.cper = 0 ∨ t % a.cper ≠ 0) → (b.cper = 0 ∨ t % b.cper ≠ 0) →
      exec (.bellwetherRole t) s = .next ((s.setDie .la a).setDie .lb b)) ∧
    (∀ n, 0 < x.cper → t = n * x.cper → x.g F.VCT_CFG_RANK ≠ 0 → x.g F.VCT_STAT_BWL ≠ 1 →
      x.leadHeard (x.g F.VCT_CFG_RANK) ((n : Int) * x.cper - ((x.g F.VCT_CFG_BMISS : Int) + x.g F.VCT_CFG_RANK - 1) * x.cper) = false →
      ∃ (u : State) (b : Beacon), exec (.bellwetherRole t) s = .next u ∧ (u.die d).g F.VCT_STAT_BWL = 1 ∧
        ((u.die d).g F.VCT_EVT_EVT).testBit 5 = true ∧ (u.die d).vct.late = 0 ∧ (u.die d).vct.lost = 0 ∧ (u.die d).vct.fsafe = false ∧
        (u.die d).vct.beacon = some b ∧ b.src = x.g F.VCT_CFG_DEV ∧ b.fsafe = false ∧ b.late = 0 ∧ b.lost = 0) ∧
    (∀ (a b : LogicDie), a = s.la.at t → b = s.lb.at t → 0 < a.cper → t % a.cper = 0 → 0 < b.cper → t % b.cper = 0 →
      (a.g F.VCT_CTRL_FSCLR = 1 ∧ b.g F.VCT_CTRL_FSCLR = 1) →
      (a.g F.VCT_STAT_BWL = 1 ∧ b.g F.VCT_STAT_BWL = 1) → ∃ u : State, exec (.bellwetherRole t) s = .next u ∧
        ∀ e, (u.die e).g F.VCT_STAT_FSAFE = 0 ∧ (u.die e).g F.VCT_CTRL_FSCLR = 0 ∧ (u.die e).vct.fsafe = false)

/-- R347-R349, R369: the bridge. A frame at a disabled bridge or port has no effect; one policed out counts in QCIDROP; one that passes is learnt and sent on every port that R347 names: the port learnt for its destination, else
every other enabled port, at once where the port is free and no gate list is in force. A bad gate list is refused with BADGCL; a good one takes force at a cycle start and is pending until then. -/
def Sys2Proof.Claims.Bridge : Prop :=
  ∀ (s : State) t (h : HostDie), h = s.host.at t →
    (∀ (port : Fin 3) dmac smac vid pcp len full, (h.g F.BB_CTRL_EN ≠ 1 ∨ h.g F.BB_PORT_EN port.val ≠ 1) →
      HostDoes (.bridgeFrame port dmac smac vid pcp len full t) s t (fun h => h.p F.BB_PORT_LINK 1 port.val)) ∧
    (∀ (port : Fin 3) (dmac smac : BitVec 48) (vid : Fin 4096) (pcp : Fin 8) (len : Fin 1523), h.g F.BB_CTRL_EN = 1 →
      h.g F.BB_PORT_EN port.val = 1 →
      (port.val ≠ 2 → h.stream dmac.toNat vid.val pcp.val = none → 6 ≤ pcp.val → ∀ full,
        HostDoes (.bridgeFrame port dmac smac vid pcp len full t) s t (fun h => (h.p F.BB_PORT_LINK 1 port.val).count F.BB_CNT_QCIDROP)) ∧
      ((port.val = 2 ∨ (h.stream dmac.toNat vid.val pcp.val = none ∧ pcp.val < 6)) → h.back.port1.queue = [] → h.back.port2.queue = [] →
        ∃ y : HostDie, exec (.bridgeFrame port dmac smac vid pcp len 0 t) s = .next { s with host := y } ∧
          (∀ p, p < 3 → p ≠ port.val → h.g F.BB_PORT_EN p ≠ 1 → y.g F.BB_PCNT_FRAMES p = h.g F.BB_PCNT_FRAMES p) ∧
          y.g F.BB_PCNT_FRAMES port.val = h.g F.BB_PCNT_FRAMES port.val ∧
          (∀ p, p < 3 → y.g F.BB_PCNT_DROPPED p = h.g F.BB_PCNT_DROPPED p) ∧
          (h.back.fdb = [] → smac ≠ dmac → ∀ p, p < 3 → p ≠ port.val → h.g F.BB_PORT_EN p = 1 →
            (p = 2 ∨ ((h.port p).busy ≤ h.now ∧ (if p = 0 then h.back.gcl0 else h.back.gcl1) = []) →
              y.g F.BB_PCNT_FRAMES p = satAdd (F.BB_PCNT_FRAMES.hi + 1 - F.BB_PCNT_FRAMES.lo) (h.g F.BB_PCNT_FRAMES p) 1) ∧
            (p ≠ 2 → h.now < (h.port p).busy → (y.port p).queue = [⟨pcp.val, len.val, none, none⟩])) ∧
          (h.back.fdb.length < 2048 → h.vlanRoom vid.val = true → (smac.toNat, vid.val, port.val) ∈ y.back.fdb) ∧
          (∀ e ∈ y.back.fdb, e ∈ h.back.fdb ∨ e = (smac.toNat, vid.val, port.val)))) ∧
    (∀ p : Fin 2, (gateListOk (h.gateList p.val) = false →
        HostDoes (.apply p t) s t (fun h => (h.p F.BB_QBV_APPLY 0 p.val).p F.BB_QBV_BADGCL 1 p.val)) ∧
      (gateListOk (h.gateList p.val) = true → h.g F.BB_QBV_CYCLE p.val ≠ 0 →
        (t % h.g F.BB_QBV_CYCLE p.val ≠ h.g F.BB_QBV_BASE p.val % h.g F.BB_QBV_CYCLE p.val →
          HostDoes (.apply p t) s t (fun h => h.p F.BB_QBV_APPLY 1 p.val)) ∧
        (t % h.g F.BB_QBV_CYCLE p.val = h.g F.BB_QBV_BASE p.val % h.g F.BB_QBV_CYCLE p.val →
          ∃ y : HostDie, exec (.apply p t) s = .next { s with host := y } ∧ y.g F.BB_QBV_APPLY p.val = 0 ∧
            (if p = 0 then y.back.gcl0 else y.back.gcl1) = h.gateList p.val ∧
            (if p = 0 then y.back.gcl1 else y.back.gcl0) = if p = 0 then h.back.gcl1 else h.back.gcl0)))

/-- R351: the time engine. The loss of the grandmaster by a synchronised die raises host source 27 and starts holdover where HOLD is not 0; holdover ends HOLD seconds after it and not before; synchronisation ends holdover, as grandmaster where ROLE says so, with the
offset otherwise. -/
def Sys2Proof.Claims.CellTime : Prop :=
  ∀ (s : State) t (h : HostDie), h = s.host.at t →
    (h.g F.BB_ASSTAT_SYNC ≠ 1 → HostDoes (.grandmasterLoss t) s t id) ∧
    (h.g F.BB_ASSTAT_SYNC = 1 → HostDoes (.grandmasterLoss t) s t (fun h =>
      let h := (h.p F.BB_ASSTAT_SYNC 0).p F.BB_ASSTAT_HOLDOVER (if h.g F.BB_AS_HOLD = 0 then 0 else 1)
      HostDie.raise { h with back := { h.back with holdAt := t } } 27 0)) ∧
    ((h.g F.BB_ASSTAT_HOLDOVER ≠ 1 ∨ t < h.back.holdAt + h.g F.BB_AS_HOLD * 1000000000) →
      HostDoes (.holdoverExpiry t) s t id) ∧
    (h.g F.BB_ASSTAT_HOLDOVER = 1 → h.back.holdAt + h.g F.BB_AS_HOLD * 1000000000 ≤ t →
      HostDoes (.holdoverExpiry t) s t (fun h => h.p F.BB_ASSTAT_HOLDOVER 0)) ∧
    (∀ gm ofs, ∃ y : HostDie, exec (.grandmasterSync gm ofs t) s = .next { s with host := y } ∧ y.g F.BB_ASSTAT_HOLDOVER = 0 ∧
      (y.g F.BB_ASSTAT_GM = 1 ↔ h.g F.BB_AS_ROLE = 1 ∨ (h.g F.BB_AS_ROLE ≠ 2 ∧ gm = true)) ∧
      (y.g F.BB_ASSTAT_SYNC = 1 ↔ y.g F.BB_ASSTAT_GM = 0) ∧
      (y.g F.BB_ASSTAT_SYNC = 1 → y.g F.BB_ASSTAT_OFFSET = ofs.toNat))

/-- Nothing waits at the ports of the bridge, both are free, and no gate list is in force. -/
def Sys2Proof.Claims.PortsIdle (h : HostDie) : Prop :=
  h.back.port1.queue = [] ∧ h.back.port2.queue = [] ∧ h.back.port1.busy ≤ h.now ∧ h.back.port2.busy ≤ h.now ∧ h.back.gcl0 = [] ∧
    h.back.gcl1 = []

/-- R347, R352, R356, R357, R369, R381: telegrams at the host die. Of each connection the i-th VCT_TX of one channel meets the i-th of the other: one without its partner waits, and one whose partner has been dropped goes too; with an
equal partner within 10 µs one frame with both CRCs and the next SEQ leaves, with 802.1CB on both ports and with an R-TAG; unequal halves count in MISMATCH and use the SEQ; halves that have waited for more than 10 µs are
dropped and counted. A VCT frame that arrives at a disabled port, or is of another type, has no effect but for LINK; one that is addressed to the device wakes a paused field die. -/
def Sys2Proof.Claims.TelegramPairs : Prop :=
  ∀ (s : State) t (conn crc fold : Nat) payload ahead (h : HostDie), h = s.host.at t →
    ((s.modHost (·.at t)).incoming .la true = some (.vctTx conn crc fold payload ahead) →
      (conn < 252 → h.g F.BB_TXC_EN conn ≠ 1 → HostHears (.vctTx .la t) s .la t id) ∧
      (252 ≤ conn ∨ h.g F.BB_TXC_EN conn = 1 →
        ((∀ o ∈ h.back.txB, ¬ (o.conn = conn ∧ o.no = h.txCount .la conn)) →
          (h.txCount .lb conn ≤ h.txCount .la conn → HostHears (.vctTx .la t) s .la t (fun h => { h with back := { h.back with
            txA := h.back.txA ++ [⟨conn, crc, fold, payload, t, h.txCount .la conn⟩]
            cntA := Sparse.put (fun _ => 0) h.back.cntA conn (h.txCount .la conn + 1) } })) ∧
          (h.txCount .la conn < h.txCount .lb conn → HostHears (.vctTx .la t) s .la t (fun h => { h with back := { h.back with
            cntA := Sparse.put (fun _ => 0) h.back.cntA conn (h.txCount .la conn + 1) } }))) ∧
        (∀ o, h.back.txB = [o] → o.conn = conn → o.no = h.txCount .la conn → t ≤ o.at_ + 10000 →
          ((o.payload ≠ payload ∨ o.fold ≠ fold) → ∃ u : State, exec (.vctTx .la t) s = .next u ∧ u.host.back.txB = [] ∧
            u.host.back.egress = h.back.egress ∧
            u.host.txSeq conn = (if h.txSeq conn + 1 = 2 ^ 32 then 1 else h.txSeq conn + 1) ∧
            u.host.g F.BB_CNT_MISMATCH = satAdd (F.BB_CNT_MISMATCH.hi + 1 - F.BB_CNT_MISMATCH.lo) (h.g F.BB_CNT_MISMATCH) 1) ∧
          (o.payload = payload → o.fold = fold → h.g F.BB_CTRL_EN = 1 → PortsIdle h → h.back.fdb = [] → h.g F.BB_PORT_EN 0 = 1 →
            ∃ u : State, ∃ f, exec (.vctTx .la t) s = .next u ∧ u.host.back.txB = [] ∧
              u.host.txSeq conn = (if h.txSeq conn + 1 = 2 ^ 32 then 1 else h.txSeq conn + 1) ∧
              (h.g F.BB_CTRL_CB ≠ 1 → h.g F.BB_PORT_EN 1 ≠ 1 → u.host.back.egress = h.back.egress ++ [(f, none)]) ∧
              (h.g F.BB_CTRL_CB = 1 → h.g F.BB_PORT_EN 1 = 1 →
                u.host.back.egress = h.back.egress ++ [(f, some h.back.rtag), (f, some h.back.rtag)] ∧
                u.host.back.rtag = (h.back.rtag + 1) % 2 ^ 16) ∧
              f.drop (50 + payload.length) = bytesBE 4 crc ++ bytesBE 4 o.crc ∧ (f.drop 50).take payload.length = payload ∧
              (f.drop 26).take 4 = bytesBE 4 (h.txSeq conn) ∧ (f.drop 42).take 8 = bytesBE 8 h.now)))) ∧
    ((∀ q ∈ h.back.txA ++ h.back.txB, t ≤ q.at_ + 10000) → HostDoes (.unpaired t) s t id) ∧
    (∀ q, h.back.txA = [q] → h.back.txB = [] → q.at_ + 10000 < t → HostDoes (.unpaired t) s t (fun h =>
      (HostDie.count { h with back := { h.back with txA := [] } } F.BB_CNT_UNPAIRED).useSeq q.conn)) ∧
    (∀ (port : Fin 2) (fr : List Byte) rtag, (h.g F.BB_CTRL_EN ≠ 1 ∨ h.g F.BB_PORT_EN port.val ≠ 1 ∨
        frameAt (fr.map (·.toNat)) 16 2 ≠ h.g F.BB_VCT_ETYPE) →
      HostDoes (.vctFrame port fr rtag t) s t (fun h => h.p F.BB_PORT_LINK 1 port.val)) ∧
    (∀ (port : Fin 2) (fr : List Byte) (f : List Nat), f = fr.map (·.toNat) → h.g F.BB_CTRL_EN = 1 → h.g F.BB_PORT_EN port.val = 1 →
      h.g F.BB_CTRL_CB ≠ 1 → frameAt f 16 2 = h.g F.BB_VCT_ETYPE →
      h.stream (frameAt f 0 6) (frameAt f 14 2 % 4096) (frameAt f 14 2 / 2 ^ 13) = none → frameAt f 14 2 / 2 ^ 13 < 6 →
      h.g F.BB_PORT_EN 2 = 1 → h.back.fdb = [] → frameAt f 0 6 ≠ frameAt f 6 6 →
      (h.g F.PWR_FREP_PAUSEDA ≠ 1 → h.g F.PWR_FREP_PAUSEDB ≠ 1 →
        (h.mapConn f = none → ∃ y : HostDie, exec (.vctFrame port fr none t) s = .next { s with host := y } ∧
          y.linkA = h.linkA ∧ y.linkB = h.linkB ∧
          y.g F.BB_CNT_UNMAPPED = satAdd (F.BB_CNT_UNMAPPED.hi + 1 - F.BB_CNT_UNMAPPED.lo) (h.g F.BB_CNT_UNMAPPED) 1) ∧
        (∀ n, h.mapConn f = some n → ∃ y z : HostDie, exec (.vctFrame port fr none t) s = .next { s with host := y } ∧
          z.linkA = h.linkA ∧ z.linkB = h.linkB ∧
          y = (z.send .la (.vctRx n t f)).send .lb (.vctRx n t f))) ∧
      (h.g F.PWR_FREP_PAUSEDA = 1 → frameAt f 21 1 = h.g F.BB_CFG_DEV →
        ∃ y : HostDie, exec (.vctFrame port fr none t) s = .next { s with host := y } ∧ onLink y .la (.powerReq 1 0 2 h.now)))

/-- R374-R378, R389, R392: bring-up and take-down of a domain of a logic die. A ready step gives way to the next that the domain does not pass at once: the oscillator step of LA_CORE, the memory step of a domain with memory, which zeroes LA_MEM where it
comes from OFF, then the logic step; after it the domain is ON. A fixed delay without ready repeats its step once and fails the domain with source 39 the second
time, an input domain on both dies (R30); a save writes the region of the domain with its commit word, sets its VALID bit and leads on; a take-down ends in its target state, and with the last one a power-down sequence ends. What is not in transition stays.
Which domains have an oscillator or memory of their own is the model's choice (log 175). -/
def Sys2Proof.Claims.DomainTransitions : Prop :=
  ∀ (s : State) d (k : Fin 10) slow t (x : LogicDie) (kk : Fin 11), x = (s.die d).at t → kk.val = k.val →
    (x.g F.PWR_DOM_STATE k.val ≠ 3 →
      DieDoes (.bringUpStep (some d) kk slow t) s d t id ∧ (∀ b, DieDoes (.fixedDelayExpiry (some d) kk b slow t) s d t id) ∧
      DieDoes (.takeDown (some d) kk t) s d t id) ∧
    (x.g F.PWR_DOM_STATE k.val = 3 → x.pw.down.testBit k.val = false → 0 < x.g F.PWR_DOM_STEP k.val →
      (x.g F.PWR_DOM_STEP k.val < 4 → x.pw.repeated.testBit k.val = false → ∃ y : LogicDie,
        exec (.bringUpStep (some d) kk slow t) s = .next (s.setDie d y) ∧ y.g F.PWR_DOM_STATE k.val = 3 ∧
          y.g F.PWR_DOM_STEP k.val = (if x.g F.PWR_DOM_STEP k.val = 1 ∧ k.val = 0 then 2
            else if x.g F.PWR_DOM_STEP k.val ≤ 2 ∧ k.val ∈ [0, 2, 4] then 3 else 4) ∧
          (x.g F.PWR_DOM_STEP k.val = 3 → k.val = 2 → x.pw.fallow.testBit 2 = false → y.mem = [] ∧ y.memC = [] ∧ y.logRing = [])) ∧
      (x.g F.PWR_DOM_STEP k.val = 4 → k.val ∉ [0, 2, 3, 4] → x.pw.waking = false → ∃ u : State,
        exec (.bringUpStep (some d) kk slow t) s = .next u ∧
          (x.pw.woke.testBit k.val = false → Sparse.get (fun _ => none) x.pw.held k.val = none →
            (u.die d).g F.PWR_DOM_STATE k.val = 2)) ∧
      (x.pw.repeated.testBit k.val = false → DieDoes (.fixedDelayExpiry (some d) kk false slow t) s d t (fun x =>
        { x with pw := { x.pw with repeated := setBit x.pw.repeated k.val } })) ∧
      (x.pw.repeated.testBit k.val = true → x.pw.woke.testBit k.val = false → Sparse.get (fun _ => none) x.pw.held k.val = none →
        ∃ y : LogicDie, exec (.fixedDelayExpiry (some d) kk false slow t) s = .next ((s.setDie d y).setDie (other d)
            (if k.val = 9 then (s.die (other d)).raise (other d) 39 (9 + x.g F.PWR_DOM_STEP 9 * 16) else s.die (other d))) ∧
          y.g F.PWR_DOM_STATE k.val = 0 ∧ y.g F.PWR_DOM_FAIL k.val = 1 ∧ y.g F.PWR_DOM_RESULT k.val = 6)) ∧
    (x.g F.PWR_DOM_STATE k.val = 3 → x.pw.down.testBit k.val = true → (x.g F.PWR_DOM_STEP k.val ≠ 5 ∨ x.pw.brown = true) →
      x.pw.woke.testBit k.val = false → Sparse.get (fun _ => none) x.pw.held k.val = none →
      (x.g F.PWR_STAT_PDSEQ ≠ 1 → ∃ y : LogicDie, exec (.takeDown (some d) kk t) s = .next (s.setDie d y) ∧
        y.g F.PWR_DOM_STATE k.val = x.g F.PWR_DOM_TARGET k.val) ∧
      (x.g F.PWR_STAT_PDSEQ = 1 → x.g F.PWR_DOM_TARGET k.val ≠ 3 → (∀ j, j < 10 → j ≠ k.val → x.g F.PWR_DOM_STATE j ≠ 3) →
        ∃ y : LogicDie, exec (.takeDown (some d) kk t) s = .next (s.setDie d y) ∧
          y.g F.PWR_DOM_STATE k.val = x.g F.PWR_DOM_TARGET k.val ∧ y.g F.PWR_STAT_PDSEQ = 0 ∧ y.pw.dipped = true)) ∧
    (x.g F.PWR_DOM_STATE k.val = 3 → x.g F.PWR_DOM_STEP k.val = 5 → x.pw.brown = false →
      DieDoes (.takeDown (some d) kk t) s d t id) ∧
    (∀ j : Fin 6, (x.g F.PWR_DOM_STATE j.val ≠ 3 ∨ x.g F.PWR_DOM_STEP j.val ≠ 5 ∨ j.val = 5 ∨ x.pw.brown = true) →
      DieDoes (.save (some d) j t) s d t id) ∧
    (∀ j : Fin 6, j.val < 5 → x.g F.PWR_DOM_STATE j.val = 3 → x.g F.PWR_DOM_STEP j.val = 5 → x.pw.brown = false →
      DieDoes (.save (some d) j t) s d t (fun x =>
        let n := (x.g F.PWR_SAVE_SEQ + 1) % 2 ^ 32
        let y := (x.setB F.PWR_SAVE_VALID j.val true).p F.PWR_SAVE_SEQ n
        let region : SaveRegion := ⟨y.saveWords j.val, crc32c ((y.saveWords j.val).flatMap (fun e => bytesLE 8 e.2.toNat)), n⟩
        { y with pw := { y.pw with saves := Sparse.put (fun _ => none) y.pw.saves j.val (some region) } }.p F.PWR_DOM_STEP 4 j.val)) ∧
    (k.val < 6 ∨ x.g F.PWR_DOM_STATE k.val ≠ 2 → exec (.domainFailure d k t) s =
      .next ((s.setDie .la (s.la.at t)).setDie .lb (s.lb.at t))) ∧
    (k.val = 6 → x.g F.PWR_DOM_STATE 6 = 2 → (∀ e, ((s.die e).at t).bist.cur = none ∧ ((s.die e).at t).bist.queue = []) →
      ∃ u : State, exec (.domainFailure d k t) s = .next u ∧
      (u.die d).g F.PWR_DOM_STATE 6 = 0 ∧ (u.die d).g F.PWR_DOM_FAIL 6 = 1 ∧
      ∀ n, n < 32 → ((u.die d).g F.SO_CMD_CLOSED).testBit n = false)

/-- R381, R382, R385, R388, R398: what host firmware and wake sources ask for. Only host firmware writes the host power registers; a host domain that may not change answers in RESULT, H_NET while a session is open and H_MEM while H_CPU or H_NET is ON; a granted change starts its
transition. FIELD sends POWER_REQ ON to each die that reports a paused fold
task; a request for ON of a field domain is granted and any other refused with result 5; a wake source that is not enabled wakes nothing, on either side. The host level is in force at once, and a fuse command does not outlive PL1 (R403). -/
def Sys2Proof.Claims.PowerRequests : Prop :=
  ∀ (s : State) t (h : HostDie), h = s.host.at t →
    (h.pw.nrstAt = none → ∀ p, p ≠ .hostFirmware →
      (∀ k tg, HostDoes (.pwrHdomTarget k tg p t) s t (fun h => h.raise 33 (errDetail p (regAddr .PWR_HDOM k.val)))) ∧
      (∀ pl, HostDoes (.pwrHplReq pl p t) s t (fun h => h.raise 33 (errDetail p (regAddr .PWR_HPL 0)))) ∧
      (∀ v, HostDoes (.pwrHwakeField v p t) s t (fun h => h.raise 33 (errDetail p (regAddr .PWR_HWAKE 0))))) ∧
    (h.pw.nrstAt = none →
      (∀ pl : Fin 4, (pl.val ≠ 0 ∨ h.sec.job = none) →
        HostDoes (.pwrHplReq pl .hostFirmware t) s t (fun h => (h.p F.PWR_HPL_REQ pl.val).p F.PWR_HPL_CUR pl.val)) ∧
      (h.sec.job ≠ none → ∃ u : State, exec (.pwrHplReq 0 .hostFirmware t) s = .next u ∧ u.host.g F.PWR_HPL_CUR = 0 ∧
        u.host.sec.job = none ∧ u.host.g F.SEC_OTPSTAT_BUSY = 0) ∧
      (∀ (k : Fin 6) (tg : Fin 4), (k = 0 ∨ tg = 3) → HostDoes (.pwrHdomTarget k tg .hostFirmware t) s t (fun h =>
        (h.p F.PWR_HDOM_TARGET tg.val k.val).p F.PWR_HDOM_RESULT 3 k.val)) ∧
      (∀ (k : Fin 6) (tg : Fin 4), tg.val < 2 → h.g F.PWR_HDOM_STATE k.val = 2 →
        ((k = 2 ∧ (h.g F.HSTL_STAT_SESSA = 1 ∨ h.g F.HSTL_STAT_SESSB = 1)) ∨
          (k = 4 ∧ (h.g F.PWR_HDOM_STATE 1 = 2 ∨ h.g F.PWR_HDOM_STATE 2 = 2))) →
        HostDoes (.pwrHdomTarget k tg .hostFirmware t) s t (fun h =>
          (h.p F.PWR_HDOM_TARGET tg.val k.val).p F.PWR_HDOM_RESULT 4 k.val)) ∧
      (∀ (k : Fin 6) (tg : Fin 4), k.val ∉ [0, 2, 4] → tg ≠ 3 → h.g F.PWR_HDOM_STATE k.val = tg.val →
        HostDoes (.pwrHdomTarget k tg .hostFirmware t) s t (fun h =>
          let y := (h.p F.PWR_HDOM_TARGET tg.val k.val).p F.PWR_HDOM_RESULT 1 k.val
          { y with pw := { y.pw with failed := clrBit y.pw.failed k.val } })) ∧
      (∀ (k : Fin 6) (tg : Fin 4), k.val ∉ [0, 2, 4] → tg ≠ 3 → h.g F.PWR_HDOM_STATE k.val ≠ 3 →
        h.g F.PWR_HDOM_STATE k.val ≠ tg.val → (k = 5 → tg = 2) →
        ∃ y : HostDie, exec (.pwrHdomTarget k tg .hostFirmware t) s = .next { s with host := y } ∧ y.g F.PWR_HDOM_RESULT k.val = 1 ∧
          y.g F.PWR_HDOM_TARGET k.val = tg.val ∧ y.g F.PWR_HDOM_STATE k.val = 3 ∧
          y.g F.PWR_HDOM_STEP k.val = (if tg = 2 then 1 else if tg = 1 then 5 else 4)) ∧
      (∀ v : Word, v.getLsbD 3 = true → h.g F.PWR_FREP_PAUSEDA = 1 → h.g F.PWR_FREP_PAUSEDB ≠ 1 →
        HostDoes (.pwrHwakeField v .hostFirmware t) s t (fun h =>
          (((((h.p F.PWR_HWAKE_PCIE (v.toNat % 2)).p F.PWR_HWAKE_BACKBONE (v.toNat / 2 % 2)).p F.PWR_HWAKE_TIMER
            (v.toNat / 4 % 2)).p F.PWR_HWAKE_FIELD 1).p F.PWR_HWAKE_DOMS (v.toNat / 256 % 64)).send .la (.powerReq 1 0 2 h.now)))) ∧
    (∀ d k st tm, (s.modDie d (·.at t)).incoming d false = some (.powerReq 1 k st tm) →
      (st ≠ 2 → k < 11 → DieHears (.powerReqRequest d t) s d t (fun x =>
        (x.p F.PWR_DOM_RESULT 5 k).send (.powerReq 3 k st ((s.die d).at t).now))) ∧
      (st = 2 → ((s.die d).at t).g F.PWR_STAT_PAUSED ≠ 1 → DieHears (.powerReqRequest d t) s d t (fun x =>
        x.send (.powerReq 2 k 2 ((s.die d).at t).now)))) ∧
    (∀ d, ((s.die d).at t).g F.PWR_STAT_PAUSED ≠ 1 → ∀ (src : Fin 3) (i : Fin 48), DieDoes (.wake d src i t) s d t id) ∧
    (∀ d, ((s.die d).at t).g F.PWR_STAT_PAUSED = 1 → ((s.die d).at t).pw.waking = false →
      ((s.die d).at t).g F.PWR_WAKE_CROOK = 1 → ((s.die d).at t).g F.PWR_DOM_STATE 0 = 1 → ((s.die d).at t).g F.PWR_DOM_STATE 2 = 1 →
      ∃ y : LogicDie, exec (.wake d 2 0 t) s = .next (s.setDie d y) ∧ y.pw.waking = true ∧ y.pw.memSlept = true ∧
        y.g F.PWR_WAKE_CAUSE = 4 ∧ y.g F.PWR_DOM_STATE 0 = 3 ∧ y.g F.PWR_DOM_STATE 2 = 3 ∧ ∃ q ∈ y.xl.tx, q.item = .note .wake) ∧
    (∀ d, .wake ∉ ((s.die d).at t).xl.inbox → DieDoes (.wakeNote d t) s d t id) ∧
    (∀ d pre rest, ((s.die d).at t).xl.inbox = pre ++ .wake :: rest → .wake ∉ pre → ((s.die d).at t).g F.PWR_STAT_PAUSED ≠ 1 →
      DieDoes (.wakeNote d t) s d t (fun x => { x with xl := { x.xl with inbox := pre ++ rest } })) ∧
    (∀ rtc : BitVec 48, h.g F.PWR_HWAKE_PCIE ≠ 1 → HostDoes (.hostWake 0 rtc t) s t (fun h =>
      { h.p F.PWR_HRTC_RTC rtc.toNat with pw := { h.pw with rtcAt := h.now } })) ∧
    (∀ rtc : BitVec 48, h.pw.nrstAt = none → h.g F.PWR_HWAKE_PCIE = 1 → h.g F.PWR_HDOM_STATE 3 = 2 → h.g F.PWR_HWAKE_DOMS = 0 →
      HostDoes (.hostWake 0 rtc t) s t (fun h =>
        ({ h.p F.PWR_HRTC_RTC rtc.toNat with pw := { h.pw with rtcAt := h.now } }).p F.PWR_HWAKE_CAUSE 1))

/-- R11, R387: core levels. Within a fold a request waits for the interval between folds. Otherwise, before the FOLD_ lock a request is in force at once; after it one that the configuration does not admit is REFUSED, an admitted change tells the other die, and either replaces a change that has not switched yet; the clock switches between folds once each die
has held both notes for 1 µs before its next fold start; 1 ms after
the release both dies abandon it. A party other than parameter blocks and fold task has an access error. -/
def Sys2Proof.Claims.CoreLevels : Prop :=
  ∀ (s : State) d t (x : LogicDie) (pl : Fin 4), x = (s.die d).at t →
    (∀ p, p ≠ .foldTask → p ≠ .boot → DieDoes (.pwrPlReq d pl p t) s d t (fun x => x.raise d 9 (errDetail p (regAddr .PWR_PL 0)))) ∧
    (∀ p, (p = .foldTask ∨ p = .boot) → x.fold.phase ≠ .idle → DieDoes (.pwrPlReq d pl p t) s d t (fun x =>
      { x with rwf := Sparse.put (fun _ => none) x.rwf (regKey .PWR_PL 0) (some (BitVec.ofNat 64 pl.val)) })) ∧
    (∀ p, (p = .foldTask ∨ p = .boot) → x.fold.phase = .idle →
      (x.g F.FOLD_CTRL_LOCK ≠ 1 → DieDoes (.pwrPlReq d pl p t) s d t (fun x =>
        ((x.p F.PWR_PL_REQ pl.val).p F.PWR_PL_CUR pl.val).p F.FOLD_STATUS_PL pl.val)) ∧
      (x.g F.FOLD_CTRL_LOCK = 1 → x.admits pl.val = false → DieDoes (.pwrPlReq d pl p t) s d t (fun x =>
        { ((x.p F.PWR_PL_REQ pl.val).p F.PWR_PL_REFUSED 1).p F.PWR_PL_PEND 0 with
          pw := { x.pw with plMine := false, plTheirs := false } })) ∧
      (x.g F.FOLD_CTRL_LOCK = 1 → x.admits pl.val = true → pl.val = x.g F.PWR_PL_CUR → DieDoes (.pwrPlReq d pl p t) s d t (fun x =>
        { (x.p F.PWR_PL_REQ pl.val).p F.PWR_PL_PEND 0 with pw := { x.pw with plMine := false, plTheirs := false } })) ∧
      (x.g F.FOLD_CTRL_LOCK = 1 → x.admits pl.val = true → pl.val ≠ x.g F.PWR_PL_CUR → ∃ y : LogicDie,
        exec (.pwrPlReq d pl p t) s = .next (s.setDie d y) ∧ y.g F.PWR_PL_REQ = pl.val ∧ y.g F.PWR_PL_PEND = 1 ∧
          y.g F.PWR_PL_CUR = x.g F.PWR_PL_CUR ∧ y.pw.plAt = x.now ∧ y.pw.plMine = true ∧ y.pw.plTheirs = false ∧
          ∃ q : XSent, y.xl.tx = x.xl.tx ++ [q] ∧ q.item = .note (.level pl.val))) ∧
    ((∀ q, .level q ∉ x.xl.inbox) → DieDoes (.levelReady d t) s d t id) ∧
    (∀ q pre rest, x.xl.inbox = pre ++ .level q :: rest → (∀ r, .level r ∉ pre) →
      (x.g F.PWR_PL_PEND = 1 → x.g F.PWR_PL_REQ = q → DieDoes (.levelReady d t) s d t (fun x =>
        { x with xl := { x.xl with inbox := pre ++ rest }, pw := { x.pw with plTheirs := true, plBoth := x.now } })) ∧
      ((x.g F.PWR_PL_PEND ≠ 1 ∨ x.g F.PWR_PL_REQ ≠ q) → DieDoes (.levelReady d t) s d t (fun x =>
        { x with xl := { x.xl with inbox := pre ++ rest } }))) ∧
    (∀ a b : LogicDie, a = s.la.at t → b = s.lb.at t →
      ((a.g F.PWR_PL_PEND ≠ 1 ∨ a.fold.phase ≠ .idle ∨ a.nextStart t < a.pw.plBoth + 1000 ∨
          b.g F.PWR_PL_PEND ≠ 1 ∨ b.fold.phase ≠ .idle ∨ b.nextStart t < b.pw.plBoth + 1000) →
        exec (.clockSwitch t) s = .next ((s.setDie .la a).setDie .lb b)) ∧
      ((∀ y ∈ [a, b], y.g F.PWR_PL_PEND = 1 ∧ y.pw.plMine = true ∧ y.pw.plTheirs = true ∧ y.fold.phase = .idle ∧
          y.pw.plBoth + 1000 ≤ y.nextStart t) →
        ∃ u : State, exec (.clockSwitch t) s = .next u ∧ u.la.g F.PWR_PL_CUR = a.g F.PWR_PL_REQ ∧ u.lb.g F.PWR_PL_CUR = b.g F.PWR_PL_REQ ∧
          ∀ e, (u.die e).g F.PWR_PL_PEND = 0 ∧ (u.die e).g F.FOLD_STATUS_PL = (u.die e).g F.PWR_PL_CUR)) ∧
    (∃ u : State, exec (.levelAbandon t) s = .next u ∧ u.host = s.host ∧
      (x.g F.PWR_PL_PEND = 1 → x.pw.plAt + 1000000 ≤ t → (u.die d).g F.PWR_PL_PEND = 0 ∧ (u.die d).g F.PWR_PL_REFUSED = 1) ∧
      ((x.g F.PWR_PL_PEND ≠ 1 ∨ t < x.pw.plAt + 1000000) → u.die d = x))

/-- R392-R396, R422, R477, R478: supply and resets. A fall of VF24 opens every own switch of both dies, clears their output commands, stops folds and takes every field domain down; the sequence lasts until none is in transition. FRST acts between 1.0 and 1.5 µs after it
rose: it does the same and holds the dies in reset; its release restarts them with reason 1 where it has acted, and a shorter pulse is ignored;
below 8 V everything but the fuses is lost; after a loss a rise of VF24 boots with reason 0 at timebase 0. A warm return is due 1 ms after VF24 has risen and the sequence has ended: with all that the dies need still there they come back WARM; otherwise both restart with the cause in COLD. -/
def Sys2Proof.Claims.SupplyAndFieldReset : Prop :=
  ∀ (s : State) t,
    (∀ i, ((∃ mv : Fin 1900, i = .vf24Low mv t) ∨ (∃ mv : Fin 65536, i = .vf24Overvoltage mv t)) →
      (∀ d, (s.die d).bist.cur = none ∧ (s.die d).bist.queue = []) →
      ∃ u : State, exec i s = .next u ∧ u.host = s.host ∧ ∀ d (x : LogicDie), x = (s.die d).at t →
        (u.die d).opened = true ∧ (u.die d).g F.SO_CROOK_OUT_CMD = 0 ∧ (u.die d).g F.PWR_PDSTAT_STOP = 1 ∧
        (x.boot.phase ≠ .off → x.g F.PWR_STAT_PDSEQ ≠ 1 → (u.die d).g F.FOLD_STATUS_RUNNING = 0 ∧ (u.die d).core.running = false ∧
          (∀ k, k < 10 → k ≠ 5 → (u.die d).g F.PWR_DOM_STATE k = 3 ∨ (u.die d).g F.PWR_DOM_STATE k = (if k = 2 then 1 else 0)) ∧
          ((∃ k, k < 10 ∧ k ≠ 5 ∧ x.g F.PWR_DOM_STATE k = 2) → (u.die d).g F.PWR_STAT_PDSEQ = 1))) ∧
    exec (.frstAssert t) s = .next ((s.setDie .la (pressed (s.la.at t) t)).setDie .lb (pressed (s.lb.at t) t)) ∧
    (∀ (x : LogicDie) a, x.pw.frstAt = some a → x.pw.frstOn = false → x.now < t →
      (a + 1500 ≤ t → (x.at t).opened = true ∧ (x.at t).boot.phase = .off ∧ (x.at t).pw.frstOn = true ∧ (x.at t).g F.PWR_PDSTAT_FRST = 1 ∧
        (x.at t).comp.on = false ∧ (x.at t).g F.SO_CROOK_OUT_CMD = 0) ∧
      (t < a + 1000 → (x.at t).pw.frstOn = false ∧ (x.at t).boot = x.boot)) ∧
    (∃ u : State, exec (.frstRelease t) s = .next u ∧ u.host = s.host ∧ ∀ d (x : LogicDie), x = (s.die d).at t →
      (∀ a, x.pw.frstAt = some a → x.pw.frstOn = true → (u.die d).boot.phase = .scrub ∧ (u.die d).boot.reason = 1 ∧
        (u.die d).pw.frstAt = none ∧ (u.die d).mem = [] ∧ (u.die d).g F.PWR_RST_HOLD = min ((x.now - a) / 1000000) 65535 ∧
        (u.die d).g F.FOLD_CTRL_LOCK = 0 ∧ (u.die d).g F.GT_TBASE_TIME = x.now) ∧
      ((∀ e, ((s.die e).at t).pw.frstOn = false) → (∀ a, x.pw.frstAt = some a → x.now < a + 1000) →
        u.die d = { x with pw := { x.pw with frstAt := none } })) ∧
    ((∀ d, (s.die d).bist.cur = none) → ∃ u : State, exec (.vf24Brownout true t) s = .next u ∧ u.host = s.host ∧
      ∀ d, (u.die d).boot.phase = .off ∧ (u.die d).mem = [] ∧
      (∀ i, (u.die d).rd .BIST_FUSE i = ((s.die d).at t).rd .BIST_FUSE i) ∧ (u.die d).g F.GT_TBASE_TIME = 0) ∧
    (∃ u : State, exec (.vf24Brownout false t) s = .next u ∧ u.host = s.host ∧ ∀ d (x : LogicDie), x = (s.die d).at t →
      (x.g F.PWR_STAT_PDSEQ ≠ 1 → u.die d = x) ∧ (x.g F.PWR_STAT_PDSEQ = 1 → (u.die d).pw.brown = true ∧ (u.die d).mem = x.mem)) ∧
    (∀ mv : Fin 65536, ∃ u : State, exec (.fieldPowerUp mv t) s = .next u ∧ u.host = s.host ∧ ∀ d, (u.die d).g F.PWR_PDSTAT_VF24 = mv.val ∧
      ((s.die d).boot.phase = .off → (s.die d).pw.frstAt = none → (u.die d).boot.phase = .scrub ∧ (u.die d).boot.reason = 0 ∧
        (u.die d).g F.GT_TBASE_TIME = 0) ∧
      ((s.die d).boot.phase ≠ .off → (u.die d).pw.upAt = (if mv.val ≤ 3000 then some t else none) ∧ (u.die d).boot = ((s.die d).at t).boot)) ∧
    (∀ fa fb slow (a b : LogicDie), a = s.la.at t → b = s.lb.at t →
      ((∃ y ∈ [a, b], y.g F.PWR_STAT_PDSEQ = 1 ∨ y.pw.dipped = false ∨ y.pw.upAt = none ∨
          ∃ up, y.pw.upAt = some up ∧ t < max up y.pw.seqEnd + 1000000) →
        exec (.warmReturn fa fb slow t) s = .next ((s.setDie .la a).setDie .lb b)) ∧
      ((∀ y ∈ [a, b], y.g F.PWR_STAT_PDSEQ ≠ 1 ∧ y.pw.dipped = true ∧ ∃ up, y.pw.upAt = some up ∧ max up y.pw.seqEnd + 1000000 ≤ t) →
        (fa = true → ∃ u : State, exec (.warmReturn fa fb slow t) s = .next u ∧ u.host = s.host ∧ u.la.g F.PWR_STAT_COLD = 4 ∧
          ∀ d, (u.die d).boot.phase = .scrub ∧ (u.die d).boot.reason = 0) ∧
        (∀ v : State, v = (((s.setDie .la a).setDie .lb b).allOn .la slow t).allOn .lb slow t →
          v.la.returnCause fa = 15 → v.lb.returnCause fb = 15 → ∃ u : State, exec (.warmReturn fa fb slow t) s = .next u ∧
            ∀ d, (u.die d).g F.PWR_STAT_WARM = 1 ∧ (u.die d).g F.PWR_STAT_PAUSED = 0 ∧ (u.die d).pw.dipped = false ∧
              (u.die d).pw.upAt = none)))

/-- R396, R398, R410, R477: nRST_H and a low host supply hold the host die: its registers return to reset but those that R398 keeps, sessions and cache are gone, the fuses stay; a second assertion changes nothing. Its release counts the hold, scrubs host SRAM
and waits for BOOT. -/
def Sys2Proof.Claims.HostReset : Prop :=
  ∀ (s : State) t,
    (∀ i ∈ [Instr.nrstHAssert t, .hostSupplyLow t],
      (s.host.pw.nrstAt.isSome = true → HostDoes i s t id) ∧
      (s.host.pw.nrstAt = none → ∃ u : State, exec i s = .next u ∧ u.host.pw.nrstAt = some t ∧ u.host.mem = [] ∧
        u.host.g F.HSTL_STAT_CACHE_VALID = 0 ∧ u.host.g F.HDBG_STAT_STATE = 0 ∧ u.host.sec.job = none ∧
        (s.host.sec.job = none → u.host.sec.arbF = s.host.sec.arbF ∧
          u.host.sec.lcF = s.host.sec.lcF ∧ u.host.sec.krevF = s.host.sec.krevF ∧ u.host.sec.keyF = s.host.sec.keyF ∧
          ((s.host.at t).g F.HDBG_STAT_STATE = 0 → u.la = s.la ∧ u.lb = s.lb)))) ∧
    (∀ lanes, (s.host.pw.nrstAt = none → HostDoes (.nrstHRelease lanes t) s t id) ∧
      (∀ a, s.host.pw.nrstAt = some a → ∃ y : HostDie, exec (.nrstHRelease lanes t) s = .next { s with host := y } ∧
        y.pw.nrstAt = none ∧ y.mem = [] ∧ y.linkA.queue = [] ∧ y.linkB.queue = [] ∧ y.g F.HSTL_DL_STAT_READY = 1 ∧
        y.g F.PWR_HSTAT_HOLD = min ((t - a) / 1000000) 65535))


/-- R449, R450, R452, R458, R461: a self-test command at a logic die: a unit that the die does not test is answered 4; a unit penned by a test that runs on either die, or a fifth command waiting, 6; another one behind a running test joins the queue. With no test running,
an unpowered unit is answered 8, a quiet-marked test of a device that is not quiet 3, a burn whose conditions do not hold on every die with an end of the unit 7; otherwise the test runs, with its start in the log, its unit shown unless it is a burn, which pens nothing,
and for an input group both channels' instances penned, while
the fold task keeps running. -/
def Sys2Proof.Claims.SelfTestCommands : Prop :=
  ∀ (s v w : State) d t (x : LogicDie) test unit opts (i : Instr), x = (s.die d).at t → v = s.modDie d (·.at t) →
    w = onItsWay v d false → testCommand d test t i → test < 65536 → unit < 65536 →
    v.incoming d false = some (.bistCmd test unit opts) →
    (¬ unitTested d test unit → DieHears i s d t (fun x => x.send (.bistRes test unit 4 0 0 []))) ∧
    (unitTested d test unit →
      ((4 ≤ x.bist.queue.length ∨ (test ≠ 0x10 ∧ ∃ o, x.bist.cur = some ⟨test, unit, o⟩) ∨ v.bistPenned d ⟨test, unit, opts⟩ = true) →
        DieHears i s d t (fun x => x.send (.bistRes test unit 6 0 0 []))) ∧
      (∀ q, x.bist.cur = some q → x.bist.queue.length < 4 → v.bistPenned d ⟨test, unit, opts⟩ = false →
        ∃ y : LogicDie, exec i s = .next (w.setDie d y) ∧
          y.bist = { x.bist with queue := x.bist.queue ++ [⟨test, unit, opts⟩] } ∧
          y.g F.BIST_STAT_QUEUED = x.bist.queue.length + 1 ∧ y.mem = x.mem ∧ y.core = x.core ∧ y.fold = x.fold) ∧
      (x.bist.cur = none → x.bist.queue = [] → v.bistPenned d ⟨test, unit, opts⟩ = false →
        (∀ r, (r = 8 ∧ (¬ unitOn v d test unit ∨ x.g F.PWR_STAT_PDSEQ = 1)) ∨
            (r = 3 ∧ unitOn v d test unit ∧ x.g F.PWR_STAT_PDSEQ ≠ 1 ∧ quietTest test unit = true ∧ ¬ deviceQuiet x) ∨
            (r = 7 ∧ unitOn v d test unit ∧ x.g F.PWR_STAT_PDSEQ ≠ 1 ∧ deviceQuiet x ∧ test = 0x10 ∧ ¬ fuseReadyAll v d unit) →
          ∃ y : LogicDie, exec i s = .next (w.setDie d ((y.send (.bistRes test unit r 0 0 [])).bistShow)) ∧
            y.bist = x.bist ∧ y.g F.BIST_STAT_BUSY = 0 ∧ y.mem = x.mem ∧ y.core = x.core ∧ y.fold = x.fold) ∧
        (unitOn v d test unit → x.g F.PWR_STAT_PDSEQ ≠ 1 → (quietTest test unit = true → deviceQuiet x) →
          (test = 0x10 → fuseReadyAll v d unit) →
          ∃ u : State, exec i s = .next u ∧ (u.die d).bist.cur = some ⟨test, unit, opts⟩ ∧
            (u.die d).bist.penAt = x.now ∧ (u.die d).g F.BIST_STAT_BUSY = (if test = 0x10 then 0 else 1) ∧
            (u.die d).g F.BIST_STAT_TEST = test ∧
            (u.die d).g F.BIST_STAT_UNIT = (if test = 0x10 then 0 else unit) ∧
            (u.die d).g F.LOG_STAT_HEAD = (x.g F.LOG_STAT_HEAD + 1) % 2048 ∧
            (u.die d).mem = x.mem ∧ (u.die d).core = x.core ∧ (u.die d).fold = x.fold ∧
            (u.die (other d)).core = (s.die (other d)).core ∧ (u.die (other d)).mem = (s.die (other d)).mem ∧ u.host = w.host ∧
            (test = 2 → unit / 256 = 1 → ∀ e j, j < 48 →
              ((u.die e).bist.pen d).ins.testBit j = (groupOf j == unit % 256)))))

/-- R454-R458, R460, R461: a test ends. Without a test nothing happens. On a channel gone safe since its start, held by FRST, in the power-down sequence or with a domain of the unit not ON it is aborted with result 5. Otherwise LANE and NEIGHBOUR pass with no lane or pair
failing twice, PIN with every code 0, SLICE with nine codes 0; one failing slice with a sound spare is repairable; a failure counts. A burn fills the first empty fuse entry of the segment at this die, or sets the slice of the
converter. In each case the pens of this test are gone from both dies before the answer, and the registers show the test. -/
def Sys2Proof.Claims.SelfTestEnds : Prop :=
  ∀ (s v : State) d t fails transient pairs (codes : List (Fin 256)) (x : LogicDie), x = (s.die d).at t → v = s.modDie d (·.at t) →
    (x.bist.cur = none → DieDoes (.testEnd d fails transient pairs codes t) s d t id) ∧
    (∀ q, x.bist.cur = some q → x.bist.queue = [] → (s.die (other d)).bist.queue = [] → q.test < 65536 → q.unit < 65536 →
      unitTested d q.test q.unit →
      ∃ (u : State) (r cover : Nat) (detail : List Nat) (y : LogicDie),
        exec (.testEnd d fails transient pairs codes t) s = .next u ∧
        u.die d = (if r = 5 then id else LogicDie.bistShow) (y.send (.bistRes q.test q.unit r cover (x.now - x.bist.penAt) detail)) ∧
        y.bist.cur = none ∧ y.g F.BIST_LAST_RESULT = r ∧ y.g F.BIST_LAST_TEST = q.test ∧ y.g F.BIST_LAST_UNIT = q.unit ∧
        y.g F.BIST_STAT_BUSY = 0 ∧ y.g F.BIST_CNT_RUN = min (x.g F.BIST_CNT_RUN + 1) 65535 ∧
        (q.test ≠ 0x10 → ∀ e, (u.die e).bist.pen d = Pen.none) ∧
        (((r = 1 ∨ r = 2) → y.g F.BIST_CNT_FAIL = min (x.g F.BIST_CNT_FAIL + 1) 65535) ∧
         (r ≠ 1 → r ≠ 2 → y.g F.BIST_CNT_FAIL = x.g F.BIST_CNT_FAIL)) ∧
        ((x.bist.cut = true ∨ x.pw.frstOn = true ∨ x.g F.PWR_STAT_PDSEQ = 1 ∨ ¬ unitOn v d q.test q.unit) → r = 5) ∧
        (x.bist.cut = false → x.pw.frstOn = false → x.g F.PWR_STAT_PDSEQ ≠ 1 → unitOn v d q.test q.unit →
          (q.test = 1 ∨ q.test = 3 → (r = 0 ↔ fails = 0) ∧ r ≤ 2) ∧
          (q.test = 2 → r = if ∀ c ∈ codes, c.val = 0 then 0 else 2) ∧
          (q.test = 4 → (r = 0 ↔ ∀ c ∈ codes.take 9, c.val = 0) ∧
            (((codes.take 9).filter (fun c => c.val != 0)).length = 1 → (codes.getD 8 0).val = 0 → r = 1)) ∧
          (q.test = 0x10 → q.unit = 0x80 + 2 * d.num → r = 0 ∧ y.g F.BIST_SLFUSE_SL0 = q.opts % 16 ∧
            (x.bist.slPart = 0 → y.g F.BIST_SLFUSE_PARTIAL = 0)) ∧
          (q.test = 0x10 → q.unit = 0x81 + 2 * d.num → r = 0 ∧ y.g F.BIST_SLFUSE_SL1 = q.opts % 16 ∧
            (x.bist.slPart = 0 → y.g F.BIST_SLFUSE_PARTIAL = 0)) ∧
          (q.test = 0x10 → q.unit < 0x80 →
            ((∀ k, k < spareLanes q.unit → x.g F.BIST_FUSE_VALID (12 * q.unit + k) = 1) → r = 2) ∧
            (∀ k, k < spareLanes q.unit → x.g F.BIST_FUSE_VALID (12 * q.unit + k) ≠ 1 →
              (∀ j, j < k → x.g F.BIST_FUSE_VALID (12 * q.unit + j) = 1) →
              r = 0 ∧ y.g F.BIST_FUSE_VALID (12 * q.unit + k) = 1 ∧ y.g F.BIST_FUSE_LANE (12 * q.unit + k) = q.opts % 256))))

/-- R459, R460, R462: a write of a soft repair entry is an access error where the die writes no end of the segment, and once the block is locked. Otherwise the entry takes the lane; an
entry that names a lane fused since before the last field restart is marked and takes no spare; the end on the controlled power die takes the same entry. -/
def Sys2Proof.Claims.SoftRepair : Prop :=
  ∀ (s : State) d t (seg : Fin 13) (k : Fin 12) (lane : Fin 256) valid p (x : LogicDie) j, x = (s.die d).at t →
    j = 12 * seg.val + k.val →
    ((seg.val ∉ writtenSegments d ∨ x.g F.BIST_CTRL_LOCK = 1) →
      DieDoes (.softRepairWrite d seg k lane valid p t) s d t (fun x => x.raise d 9 (errDetail p (regAddr .BIST_REP j)))) ∧
    (seg.val ∈ writtenSegments d → x.g F.BIST_CTRL_LOCK ≠ 1 →
      ∃ y : LogicDie, exec (.softRepairWrite d seg k lane valid p t) s = .next (s.setDie d y) ∧
        y.g F.BIST_REP_LANE j = lane.val ∧ (y.g F.BIST_REP_VALID j = 1 ↔ valid = true) ∧
        (valid = true → (∃ m, m < 12 ∧ (Sparse.get (fun _ => 0) x.bist.fuseOn seg.val).testBit m = true ∧
            x.g F.BIST_FUSE_LANE (12 * seg.val + m) = lane.val) →
          y.g F.BIST_REP_DUP j = 1 ∧ y.g F.BIST_REP_SPARE j = 0) ∧
        (valid = true → (∀ m, m < 12 → (Sparse.get (fun _ => 0) x.bist.fuseOn seg.val).testBit m = true →
            x.g F.BIST_FUSE_LANE (12 * seg.val + m) ≠ lane.val) →
          y.g F.BIST_REP_DUP j = 0) ∧
        (seg.val ∈ powerDieSegments d → y.rd .BIST_PDREP j = y.rd .BIST_REP j) ∧
        y.mem = x.mem ∧ y.core = x.core)


/-- R401, R403, R419: a fuse command. While one runs, another is an access error. Otherwise it runs, with the staged words; whether it is refused follows the table of R403 at its start. While the host die is held in reset nothing happens. -/
def Sys2Proof.Claims.FuseCommands : Prop :=
  ∀ (s : State) i op slot lct arbt p t (h : HostDie), fuseForm i = some (op, slot, lct, arbt, p, t) → h = s.host.at t →
    (h.pw.nrstAt ≠ none → HostDoes i s t id) ∧
    (h.pw.nrstAt = none → h.g F.SEC_OTPSTAT_BUSY = 1 →
      HostDoes i s t (fun h => h.raise 33 (errDetail p (regAddr .SEC_OTPCMD 0)))) ∧
    (h.pw.nrstAt = none → h.g F.SEC_OTPSTAT_BUSY ≠ 1 → ∃ j : OtpJob,
      HostDoes i s t (fun h => { h.p F.SEC_OTPSTAT_BUSY 1 with sec := { h.sec with job := some j } }) ∧
      j.op = op ∧ (op ≤ 2 → j.slot = slot) ∧ (op = 4 → j.lct = lct) ∧ (op = 5 → j.arbt = arbt) ∧
      j.data = [h.rd .SEC_KSTAGE 0, h.rd .SEC_KSTAGE 1, h.rd .SEC_KSTAGE 2, h.rd .SEC_KSTAGE 3, h.rd .SEC_KSTAGE 4, h.rd .SEC_KSTAGE 5] ∧
      (j.refused = false ↔ fuseCondition h op slot lct arbt))

/-- R402, R403, R419: the end of a fuse command: BUSY falls, DONE rises, the staged words clear. Refused, nothing is blown. A lifecycle or revocation command has blown 8 fuses, or as many as came before the interruption, and never fewer than before; ARB takes the target;
a key slot the staged hash. Fuses that five of eight make count at once in NEXT, not in LC. A session end, or a new session, that waited for the command takes effect. -/
def Sys2Proof.Claims.FuseCommandEnds : Prop :=
  ∀ (s : State) t cut (h : HostDie), h = s.host.at t →
    (h.sec.job = none → HostDoes (.otpCommandDone cut t) s t id) ∧
    (∀ j, h.sec.job = some j → ∃ u : State, exec (.otpCommandDone cut t) s = .next u ∧ u.host.sec.job = none ∧
      u.host.g F.SEC_OTPSTAT_BUSY = 0 ∧ u.host.g F.SEC_OTPSTAT_DONE = 1 ∧ (∀ w, w < 6 → u.host.rd .SEC_KSTAGE w = 0) ∧
      u.host.g F.SEC_LC_LC = h.g F.SEC_LC_LC ∧ u.host.g F.SEC_LC_NEXT = u.host.sec.lifecycle ∧
      (j.refused = true → u.host.g F.SEC_OTPSTAT_RESULT = 2 ∧ u.host.sec.lcF = h.sec.lcF ∧ u.host.sec.keyF = h.sec.keyF ∧
        u.host.sec.krevF = h.sec.krevF ∧ u.host.sec.arbF = h.sec.arbF ∧ u.host.sec.ikF = h.sec.ikF ∧ u.host.sec.ikFlag = h.sec.ikFlag) ∧
      (j.refused = false →
        (cut = none → u.host.g F.SEC_OTPSTAT_RESULT = 0) ∧
        (j.op = 4 → ∀ m, Sparse.get (fun _ => 0) u.host.sec.lcF m =
          if m = j.lct then max (Sparse.get (fun _ => 0) h.sec.lcF m) (min (cut.getD 8) 8) else Sparse.get (fun _ => 0) h.sec.lcF m) ∧
        (j.op = 2 → ∀ m, Sparse.get (fun _ => 0) u.host.sec.krevF m =
          if m = j.slot then max (Sparse.get (fun _ => 0) h.sec.krevF m) (min (cut.getD 8) 8) else Sparse.get (fun _ => 0) h.sec.krevF m) ∧
        (j.op = 5 → cut = none → u.host.sec.arbF = min 64 (max h.sec.arbF j.arbt)) ∧
        (j.op = 1 → cut = none → j.slot < 4 → h.sec.keyFuses j.slot = 0 →
          ∀ w, w < 6 → u.host.rd .SEC_KEY (6 * j.slot + w) = j.data.getD w 0) ∧
        (j.op = 3 → cut = none → u.host.sec.ikFlag = true)) ∧
      (h.sec.endAfter = true → h.sec.waiting = none → sessionGone u ∨ h.g F.HDBG_STAT_STATE = 0) ∧
      (∀ q, h.sec.waiting = some q → u.host.sec.waiting = none ∧ u.host.g F.HDBG_STAT_SESSION = q.number % 2 ^ 32) ∧
      (h.sec.endAfter = false → h.sec.waiting = none → u.la = s.la ∧ u.lb = s.lb ∧ u.host.g F.HDBG_STAT_STATE = h.g F.HDBG_STAT_STATE))

/-- R408, R409: a challenge request of the host side is taken unless the requested lifetime is 0, the die is locked out or a failed verification is less than 1 s old; the challenge then holds UID, lifecycle, scope, lifetime and the next session number after 32 bytes of
nonce; it ends 10 s after its issue. VERIFY takes the response, clears it and uses the challenge up. A response that fails raises host source 41, refuses requests for 1 s and at the eighth failure in a row locks out; a pass opens the session that the challenge names, as it was issued; with H_SEC not ON neither challenge nor verification completes (R417), and an open session whose end a fuse command delays ends first (R418). -/
def Sys2Proof.Claims.ChallengeAndResponse : Prop :=
  ∀ (s : State) t p (h : HostDie), h = s.host.at t → h.pw.nrstAt = none →
    ((¬ hostSide p ∨ h.g F.PWR_HDOM_STATE 5 ≠ 2 ∨ h.g F.HDBG_SCOPEREQ_TTL = 0 ∨ h.g F.HDBG_STAT_LOCKOUT = 1 ∨ t < h.sec.refuse) →
      HostDoes (.chreq p t) s t id) ∧
    (hostSide p → h.g F.PWR_HDOM_STATE 5 = 2 → h.g F.HDBG_SCOPEREQ_TTL ≠ 0 → h.g F.HDBG_STAT_LOCKOUT ≠ 1 → h.sec.refuse ≤ t →
      ∃ y : HostDie, exec (.chreq p t) s = .next { s with host := y } ∧ y.g F.HDBG_STAT_CHRDY = 0 ∧ y.g F.HDBG_CTRL_CHREQ = 1 ∧
        y.sec = { h.sec with asked := true, chalScope := h.g F.HDBG_SCOPEREQ_SCOPE, chalTtl := h.g F.HDBG_SCOPEREQ_TTL }) ∧
    (h.sec.asked = true → h.g F.PWR_HDOM_STATE 5 = 2 → ∃ y : HostDie, exec (.challengeReady t) s = .next { s with host := y } ∧ y.g F.HDBG_STAT_CHRDY = 1 ∧
      y.g F.HDBG_CTRL_CHREQ = 0 ∧ y.sec.chalAt = t ∧ y.sec.chal.length = 64 ∧ y.sec.asked = false ∧
      y.sec.issScope = h.sec.chalScope ∧ y.sec.issTtl = h.sec.chalTtl ∧ y.sec.chalNum = (h.sec.lastSession + 1) % 2 ^ 32 ∧
      y.sec.lastSession = y.sec.chalNum ∧
      y.rd .HDBG_CHAL 4 = h.sec.uid ∧ bitsOf (y.rd .HDBG_CHAL 5).toNat 7 0 = h.g F.SEC_LC_LC ∧
      (h.sec.chalScope < 64 → h.sec.chalTtl < 65536 → bitsOf (y.rd .HDBG_CHAL 5).toNat 15 8 = h.sec.chalScope ∧
        bitsOf (y.rd .HDBG_CHAL 5).toNat 31 16 = h.sec.chalTtl ∧
        bitsOf (y.rd .HDBG_CHAL 5).toNat 63 32 = (h.sec.lastSession + 1) % 2 ^ 32) ∧ y.rd .HDBG_CHAL 6 = 0 ∧ y.rd .HDBG_CHAL 7 = 0) ∧
    ((h.sec.asked = false ∨ h.g F.PWR_HDOM_STATE 5 ≠ 2) → HostDoes (.challengeReady t) s t id) ∧
    HostDoes (.challengeExpiry t) s t (fun h =>
      if h.g F.HDBG_STAT_CHRDY = 1 ∧ h.sec.chalAt + 10000000000 ≤ t then h.p F.HDBG_STAT_CHRDY 0 else h) ∧
    ((¬ hostSide p ∨ h.g F.PWR_HDOM_STATE 5 ≠ 2 ∨ h.g F.HDBG_STAT_BUSY = 1) → HostDoes (.verify p t) s t id) ∧
    (hostSide p → h.g F.PWR_HDOM_STATE 5 = 2 → h.g F.HDBG_STAT_BUSY ≠ 1 →
      ∃ y : HostDie, exec (.verify p t) s = .next { s with host := y } ∧ y.g F.HDBG_STAT_BUSY = 1 ∧ y.g F.HDBG_STAT_CHRDY = 0 ∧
        (∀ w, w < 25 → y.rd .HDBG_RESP w = 0) ∧
        y.sec.verChal = h.sec.chal ∧ y.sec.verScope = h.sec.issScope ∧ y.sec.verTtl = h.sec.issTtl ∧ y.sec.verNum = h.sec.chalNum ∧
        ((h.g F.HDBG_STAT_CHRDY = 1 ∧ t < h.sec.chalAt + 10000000000) →
          ∃ r, y.sec.resp = some r ∧ r.length = 200 ∧ ofBytesLE (r.take 8) = (h.rd .HDBG_RESP 0).toNat) ∧
        ((h.g F.HDBG_STAT_CHRDY ≠ 1 ∨ h.sec.chalAt + 10000000000 ≤ t) → y.sec.resp = some [])) ∧
    HostDoes (.chreqRefusalEnd t) s t (fun h => if h.sec.refuse ≤ t then { h with sec := { h.sec with refuse := 0 } } else h) ∧
    ((h.sec.resp = none ∨ h.g F.PWR_HDOM_STATE 5 ≠ 2) → HostDoes (.verification t) s t id) ∧
    (∀ r, h.sec.resp = some r → h.g F.PWR_HDOM_STATE 5 = 2 →
      ((r = [] ∨ Config.verifySig (r.take 97) h.sec.verChal ((r.drop 97).take 96) = false ∨ h.g F.SEC_LC_LC = 0 ∨
          ((h.g F.SEC_LC_LC = 1 ∨ h.g F.SEC_LC_LC = 2) ∧ ∀ n, n < 4 → slotLive h.sec n → h.sec.key n ≠ Config.sha384 (r.take 97)) ∨
          (h.g F.SEC_LC_LC = 3 ∧ (Config.sha384 (r.take 97) ≠ Config.analysisKey ∨ h.sec.verScope.testBit 3 = true ∨
            h.sec.verScope.testBit 5 = true))) →
        ∃ y : HostDie, exec (.verification t) s = .next { s with host := y } ∧ y.g F.HDBG_STAT_BUSY = 0 ∧ y.g F.HDBG_STAT_FAIL = 1 ∧
          y.g F.HDBG_STAT_FAILS = min 8 (h.g F.HDBG_STAT_FAILS + 1) ∧ y.sec.resp = none ∧ y.sec.refuse = t + 1000000000 ∧
          (7 ≤ h.g F.HDBG_STAT_FAILS → y.g F.HDBG_STAT_LOCKOUT = 1) ∧ y.g F.HDBG_STAT_STATE = h.g F.HDBG_STAT_STATE ∧
          (h.driven 41 = false → (y.g F.HFC_SEEN_BITS 0).testBit 41 = true)) ∧
      (r ≠ [] → Config.verifySig (r.take 97) h.sec.verChal ((r.drop 97).take 96) = true → (h.g F.SEC_LC_LC = 1 ∨ h.g F.SEC_LC_LC = 2) →
        (∃ n, n < 4 ∧ slotLive h.sec n ∧ h.sec.key n = Config.sha384 (r.take 97)) → h.sec.verScope < 64 → h.sec.verTtl < 65536 → h.sec.verNum < 2 ^ 32 →
        ((h.g F.HDBG_STAT_STATE = 0 ∨ h.g F.SEC_OTPSTAT_BUSY ≠ 1) →
          ∃ u : State, exec (.verification t) s = .next u ∧ u.host.g F.HDBG_STAT_STATE = 1 ∧ u.host.g F.HDBG_STAT_SCOPE = h.sec.verScope ∧
            u.host.g F.HDBG_STAT_LEFT = h.sec.verTtl ∧ u.host.g F.HDBG_STAT_SESSION = h.sec.verNum ∧
            u.host.g F.HDBG_STAT_FAILS = 0 ∧ u.host.g F.HDBG_STAT_FAIL = 0 ∧ u.host.sec.sessEnd = t + h.sec.verTtl * 1000000000 ∧
            (∀ l, dieInScope h.sec.verScope l → ∃ data, onLink u.host l (.debugReq h.sec.verNum 1 data))) ∧
        ((h.g F.HDBG_STAT_STATE ≠ 0 ∧ h.g F.SEC_OTPSTAT_BUSY = 1) →
          ∃ y : HostDie, exec (.verification t) s = .next { s with host := y } ∧ y.sec.endAfter = true ∧
            y.g F.HDBG_STAT_FAILS = 0 ∧ y.g F.HDBG_STAT_STATE = h.g F.HDBG_STAT_STATE ∧
            ∃ q, y.sec.waiting = some q ∧ q.scope = h.sec.verScope ∧ q.number = h.sec.verNum)))

/-- R407, R410, R418, R420: sessions. OPENREQ opens one in DEVELOP, with any scope but PROOF and LIFE and a lifetime, while H_SEC is ON; otherwise it is an access error. CLOSE of the host side and the end of the lifetime end the open session: no scope, no force bit at the host
die, CLOSE to each logic die in the scope, which ends the session there; the force bits of a logic die outside the scope clear (R304). A fuse command that runs delays that. -/
def Sys2Proof.Claims.Sessions : Prop :=
  ∀ (s : State) t p (h : HostDie), h = s.host.at t →
    (h.pw.nrstAt ≠ none → HostDoes (.openreq p t) s t id) ∧
    (h.pw.nrstAt = none → (h.g F.SEC_LC_LC ≠ 1 ∨ (h.g F.HDBG_SCOPEREQ_SCOPE).testBit 3 = true ∨ (h.g F.HDBG_SCOPEREQ_SCOPE).testBit 5 = true ∨
        h.g F.HDBG_SCOPEREQ_TTL = 0 ∨ h.g F.PWR_HDOM_STATE 5 ≠ 2) →
      HostDoes (.openreq p t) s t (fun h => h.raise 33 (errDetail p (regAddr .HDBG_CTRL 0)))) ∧
    (h.pw.nrstAt = none → h.g F.SEC_LC_LC = 1 → (h.g F.HDBG_SCOPEREQ_SCOPE).testBit 3 = false → (h.g F.HDBG_SCOPEREQ_SCOPE).testBit 5 = false →
      h.g F.HDBG_SCOPEREQ_TTL ≠ 0 → h.g F.PWR_HDOM_STATE 5 = 2 → (h.g F.HDBG_STAT_STATE = 0 ∨ h.g F.SEC_OTPSTAT_BUSY ≠ 1) →
      ∃ u : State, exec (.openreq p t) s = .next u ∧ u.host.g F.HDBG_STAT_STATE = 2 ∧
        u.host.g F.HDBG_STAT_SCOPE = h.g F.HDBG_SCOPEREQ_SCOPE ∧ u.host.g F.HDBG_STAT_LEFT = h.g F.HDBG_SCOPEREQ_TTL ∧
        u.host.g F.HDBG_STAT_SESSION = (h.sec.lastSession + 1) % 2 ^ 32 ∧
        u.host.sec.sessEnd = t + h.g F.HDBG_SCOPEREQ_TTL * 1000000000 ∧
        (∀ l, dieInScope (h.g F.HDBG_SCOPEREQ_SCOPE) l → ∃ data, onLink u.host l (.debugReq ((h.sec.lastSession + 1) % 2 ^ 32) 1 data))) ∧
    (∀ i, (i = .close p t ∧ hostSide p ∨ i = .ttlExpiry t ∧ h.sec.sessEnd ≤ t) →
      (h.g F.HDBG_STAT_STATE = 0 → HostDoes i s t id) ∧
      (h.g F.HDBG_STAT_STATE ≠ 0 → h.g F.SEC_OTPSTAT_BUSY = 1 →
        HostDoes i s t (fun h => { h with sec := { h.sec with endAfter := true } })) ∧
      (h.g F.HDBG_STAT_STATE ≠ 0 → h.g F.SEC_OTPSTAT_BUSY ≠ 1 → ∃ u : State, exec i s = .next u ∧ sessionGone u ∧
        (∀ l, dieInScope (h.g F.HDBG_STAT_SCOPE) l →
          onLink u.host l (.debugReq (h.g F.HDBG_STAT_SESSION) 2 []) ∧ u.die l = s.die l) ∧
        (∀ l, ¬ dieInScope (h.g F.HDBG_STAT_SCOPE) l → u.die l = (s.die l).unforce l))) ∧
    (¬ hostSide p → HostDoes (.close p t) s t id) ∧
    ((h.g F.HDBG_STAT_STATE = 0 ∨ t < h.sec.sessEnd) → HostDoes (.ttlExpiry t) s t id)

/-- R411: JTAG. IDCODE shows 0x1964_054F and BYPASS and SAMPLE are always there; EXTEST drives the balls in a session with scope HOST, and DAP reads and writes host memory and the general registers of HC0 to HC3 in one while H_CPU is ON (how its address names a register is the model's choice, log 104); elsewhere both select BYPASS. No JTAG instruction changes a field die. -/
def Sys2Proof.Claims.JtagInstructions : Prop :=
  ∀ (s : State) levels (addr : Fin 4194432) (w : Option Word), ∃ a b c d e : SecSt → SecSt, ∃ m k,
    exec .idcode s = .next { s with host := { s.host with sec := a s.host.sec } } ∧
    (a s.host.sec).jtag = .idcode ∧ (a s.host.sec).jtagDr = 0x1964054F ∧ (a s.host.sec).jtagPins = none ∧
    exec .bypass s = .next { s with host := { s.host with sec := b s.host.sec } } ∧
    (b s.host.sec).jtag = .bypass ∧ (b s.host.sec).jtagPins = none ∧
    exec (.samplePreload levels) s = .next { s with host := { s.host with sec := c s.host.sec } } ∧
    (c s.host.sec).jtag = .sample ∧ (c s.host.sec).jtagDr = levels ∧ (c s.host.sec).jtagPins = none ∧
    exec (.extest levels) s = .next { s with host := { s.host with sec := d s.host.sec } } ∧
    ((s.host.g F.HDBG_STAT_STATE ≠ 0 ∧ (s.host.g F.HDBG_STAT_SCOPE).testBit 0 = true) →
      (d s.host.sec).jtag = .extest ∧ (d s.host.sec).jtagPins = some levels) ∧
    (¬ (s.host.g F.HDBG_STAT_STATE ≠ 0 ∧ (s.host.g F.HDBG_STAT_SCOPE).testBit 0 = true) →
      (d s.host.sec).jtag = .bypass ∧ (d s.host.sec).jtagPins = none) ∧
    exec (.dap addr w) s = .next { s with host := { s.host with sec := e s.host.sec, mem := m, cores := k } } ∧
    ((s.host.g F.HDBG_STAT_STATE ≠ 0 ∧ (s.host.g F.HDBG_STAT_SCOPE).testBit 0 = true ∧ s.host.g F.PWR_HDOM_STATE 1 = 2) →
      (e s.host.sec).jtag = .dap ∧ (w = none → m = s.host.mem ∧ k = s.host.cores) ∧
      (addr.val < 4194304 → k = s.host.cores ∧
        (∀ v, w = some v → (e s.host.sec).jtagDr = v.toNat ∧
          ∀ n, Sparse.get (fun _ => 0) m n = if 8 * addr.val ≤ n ∧ n < 8 * addr.val + 8 then
            BitVec.ofNat 8 (v.toNat / 2 ^ (8 * (n - 8 * addr.val))) else Sparse.get (fun _ => 0) s.host.mem n) ∧
        (w = none → (e s.host.sec).jtagDr = ofBytesLE (s.host.bytes (8 * addr.val) 8))) ∧
      (∀ (n : Fin 4) (i : Fin 32), addr.val = 4194304 + 32 * n.val + i.val → m = s.host.mem ∧
        (∀ v, w = some v → ∀ (c : Fin 4) (j : Fin 32), ({ s.host with cores := k }).hostReg c.val j.val =
          if c = n ∧ j = i ∧ i ≠ 0 then v else s.host.hostReg c.val j.val) ∧
        (w = none → (e s.host.sec).jtagDr = (s.host.hostReg n.val i.val).toNat))) ∧
    (¬ (s.host.g F.HDBG_STAT_STATE ≠ 0 ∧ (s.host.g F.HDBG_STAT_SCOPE).testBit 0 = true ∧ s.host.g F.PWR_HDOM_STATE 1 = 2) →
      (e s.host.sec).jtag = .bypass ∧ m = s.host.mem ∧ k = s.host.cores)


/-- R412, R413: debug requests. Without one nothing happens; one that names no announced session is answered NOSESSION, one at a die outside the scope DENIED, one with an operation that the table does not assign BADOP (which command takes it is the model's choice, log 170). OPEN records session, scope and lifecycle; CLOSE of that session clears them, every force bit (R304) and every breakpoint, lets every core run and releases a hold of both dies; both answer DONE. -/
def Sys2Proof.Claims.DebugSessions : Prop :=
  ∀ (s : State) (x : LogicDie),
    (∀ i d op t, debugForm i = some (d, op, t) → x = (s.die d).at t →
      ((s.modDie d (·.at t)).incoming d false = none → DieDoes i s d t id) ∧
      (∀ n data, (s.modDie d (·.at t)).incoming d false = some (.debugReq n op data) →
        ((x.g F.DBG_STAT_SESSION = 0 ∨ n ≠ x.g F.DBG_STAT_SESSION) → DieHears i s d t (refused n op 6)) ∧
        (x.g F.DBG_STAT_SESSION ≠ 0 → n = x.g F.DBG_STAT_SESSION → (x.g F.DBG_STAT_SCOPE).testBit (1 + d.num) = false →
          DieHears i s d t (refused n op 1)))) ∧
    (∀ d t n op data, op ∉ [0x01, 0x02, 0x10, 0x11, 0x20, 0x21, 0x22, 0x30, 0x31, 0x40, 0x41] → asked s d t op n data →
      DieHears (.debugRead d t) s d t (refused n op 5)) ∧
    (∀ d t n data, (s.modDie d (·.at t)).incoming d false = some (.debugReq n 1 data) → n < 2 ^ 32 →
      ∃ y : LogicDie, exec (.debugOpen d t) s = .next ((heardAt s d t).setDie d (refused n 1 0 y)) ∧ y.g F.DBG_STAT_SESSION = n ∧
        y.g F.DBG_STAT_SCOPE = ofBytesLE ((data.drop 4).take 1) % 64 ∧ y.boot.host.info % 4 = ofBytesLE ((data.drop 5).take 1) % 4 ∧
        y.mem = ((s.die d).at t).mem ∧ y.core = ((s.die d).at t).core) ∧
    (∀ d t n data, x = (s.die d).at t → (s.modDie d (·.at t)).incoming d false = some (.debugReq n 2 data) →
      (x.g F.DBG_STAT_SESSION = 0 ∨ n ≠ x.g F.DBG_STAT_SESSION) → DieHears (.debugClose d t) s d t (refused n 2 6)) ∧
    (∀ d t n data, x = (s.die d).at t → (s.modDie d (·.at t)).incoming d false = some (.debugReq n 2 data) →
      x.g F.DBG_STAT_SESSION ≠ 0 → n = x.g F.DBG_STAT_SESSION →
      ∃ (u : State) (y : LogicDie), exec (.debugClose d t) s = .next u ∧ u.die d = refused n 2 0 y ∧ (u.die d).g F.DBG_STAT_SESSION = 0 ∧ (u.die d).g F.DBG_STAT_SCOPE = 0 ∧
        (u.die d).g F.DBG_STAT_HALTED = 0 ∧ (∀ k, k < 4 → (u.die d).rd .DBG_BKPT k = 0) ∧
        (∀ k, k < 8 → (u.die d).g F.FC_FORCE_BITS k = 0 ∧ (u.die d).g F.FC_FORCEW_BITS k = 0) ∧
        (u.die d).g F.DBG_STAT_HOLD ≠ 1 ∧ (u.die (other d)).g F.DBG_STAT_HOLD ≠ 1 ∧
        ((s.die (other d)).g F.DBG_STAT_HOLD ≠ 1 → u.die (other d) = s.die (other d)))

/-- R413, R417, R465: debug READ. 8 to 1,008 bytes; every byte one that the companion core may load, in hold fold-task code and safety data too; registers at multiples of 8 with their read effects while their domain is ON (which domain a block lies with is in part the model's, log 106); memory byte by byte while LA_MEM is ON. -/
def Sys2Proof.Claims.DebugReads : Prop :=
  ∀ (s : State) d t n data a len (x : LogicDie), asked s d t 0x10 n data → x = (s.die d).at t → a = ofBytesLE (data.take 8) →
    len = ofBytesLE ((data.drop 8).take 8) →
    ((len < 8 ∨ 1008 < len) → DieHears (.debugRead d t) s d t (refused n 0x10 3)) ∧
    (8 ≤ len → len ≤ 1008 →
      (∀ k, k < len → mayLoad true (x.region (a + k)) = false →
        ¬ (x.g F.DBG_STAT_HOLD = 1 ∧ (x.region (a + k) = .code ∨ x.region (a + k) = .data)) →
        DieHears (.debugRead d t) s d t (refused n 0x10 1)) ∧
      ((∀ k, k < len → isRegs (x.region (a + k)) = true) →
        ((a % 8 ≠ 0 ∨ len % 8 ≠ 0) → DieHears (.debugRead d t) s d t (refused n 0x10 3)) ∧
        (a % 8 = 0 → len = 8 → x.regsOn d a 1 = false → DieHears (.debugRead d t) s d t (refused n 0x10 2)) ∧
        (a % 8 = 0 → len = 8 → x.regsOn d a 1 = true → DieHears (.debugRead d t) s d t (fun x =>
          (x.busTouch d a).send (.debugRsp n 0x10 ([0, 0, 0, 0, 0, 0, 0, 0] ++ bytesLE 8 (x.busPeek d a).toNat))))) ∧
      ((∀ k, k < len → isRegs (x.region (a + k)) = false ∧ (mayLoad true (x.region (a + k)) = true ∨
          (x.g F.DBG_STAT_HOLD = 1 ∧ (x.region (a + k) = .code ∨ x.region (a + k) = .data)))) →
        (x.g F.PWR_DOM_STATE 2 ≠ 2 → DieHears (.debugRead d t) s d t (refused n 0x10 2)) ∧
        (x.g F.PWR_DOM_STATE 2 = 2 → DieHears (.debugRead d t) s d t (fun x =>
          x.send (.debugRsp n 0x10 ([0, 0, 0, 0, 0, 0, 0, 0] ++ (List.range len).map (fun k => (seen x true (a + k)).toNat)))))))

/-- R413, R417, R465: debug WRITE. Registers of a domain that is ON take what a host request may write, one access error makes the answer ACCESS; memory only in DEVELOP and in debug hold, with LA_MEM ON: the bytes are written and no other, and fold-task code or safety data mark the die tainted. -/
def Sys2Proof.Claims.DebugWrites : Prop :=
  ∀ (s : State) d t n data a (bs : List Nat) (x : LogicDie), asked s d t 0x11 n data → x = (s.die d).at t →
    a = ofBytesLE (data.take 8) → bs = data.drop 8 →
    (bs = [] → DieHears (.debugWrite d t) s d t (refused n 0x11 3)) ∧
    ((∃ k, k < bs.length ∧ isRegs (x.region (a + k)) = true) → (a % 8 ≠ 0 ∨ bs.length % 8 ≠ 0) →
      DieHears (.debugWrite d t) s d t (refused n 0x11 3)) ∧
    (bs.length = 8 → a % 8 = 0 → x.region a = .pdRegs → DieHears (.debugWrite d t) s d t (refused n 0x11 1)) ∧
    (bs.length = 8 → a % 8 = 0 → x.region a = .dieRegs →
      (x.compMayWrite a = false → DieHears (.debugWrite d t) s d t (refused n 0x11 1)) ∧
      (x.compMayWrite a = true → x.regsOn d a 1 = false → DieHears (.debugWrite d t) s d t (refused n 0x11 2)) ∧
      (x.compMayWrite a = true → x.regsOn d a 1 = true → x.busDenies d .debug a (BitVec.ofNat 64 (ofBytesLE bs)) = false →
        DieHears (.debugWrite d t) s d t (fun x =>
          (x.busPost d .debug a 8 (BitVec.ofNat 64 (ofBytesLE bs))).send (.debugRsp n 0x11 [0]))) ∧
      (x.compMayWrite a = true → x.regsOn d a 1 = true → x.busDenies d .debug a (BitVec.ofNat 64 (ofBytesLE bs)) = true →
        DieHears (.debugWrite d t) s d t (fun x =>
          (x.busPost d .debug a 8 (BitVec.ofNat 64 (ofBytesLE bs))).send (.debugRsp n 0x11 [3])))) ∧
    (bs ≠ [] → (∀ k, k < bs.length → isRegs (x.region (a + k)) = false) →
      ((x.boot.host.info % 4 ≠ 1 ∨ x.g F.DBG_STAT_HOLD ≠ 1 ∨
          ∃ k, k < bs.length ∧ x.region (a + k) ∉ [.code, .data, .compCode, .compData, .sharedComp]) →
        DieHears (.debugWrite d t) s d t (refused n 0x11 1)) ∧
      (x.boot.host.info % 4 = 1 → x.g F.DBG_STAT_HOLD = 1 →
          (∀ k, k < bs.length → x.region (a + k) ∈ [.code, .data, .compCode, .compData, .sharedComp]) →
        (x.g F.PWR_DOM_STATE 2 ≠ 2 → DieHears (.debugWrite d t) s d t (refused n 0x11 2)) ∧
        (x.g F.PWR_DOM_STATE 2 = 2 → ∃ y : LogicDie,
          exec (.debugWrite d t) s = .next ((heardAt s d t).setDie d (y.send (.debugRsp n 0x11 [0]))) ∧
          (∀ k, y.mem8 k = if a ≤ k ∧ k < a + bs.length then BitVec.ofNat 8 (bs.getD (k - a) 0) else x.mem8 k) ∧
          ((∃ k, k < bs.length ∧ (x.region (a + k) = .code ∨ x.region (a + k) = .data)) → y.g F.DBG_STAT_TAINT = 1) ∧
          ((∀ k, k < bs.length → x.region (a + k) ≠ .code ∧ x.region (a + k) ≠ .data) → y.regs = x.regs) ∧
          y.core = x.core ∧ y.comp = x.comp)))

/-- R413-R415, R417: HALT, RESUME and STEP. An empty mask is BADOP, cores without power NOPOWER. A halt of the companion core marks it halted; one of a fold-task core is debug hold with a hold note in DEVELOP, source 40 and a safe channel in CERTIFIED, DENIED elsewhere. RESUME takes halted cores only, and of the fold task releases a hold of
both dies. STEP takes the halted companion core. -/
def Sys2Proof.Claims.HaltAndResume : Prop :=
  ∀ (s : State) d t n data mask (x : LogicDie), x = (s.die d).at t → mask = ofBytesLE (data.take 1) % 8 →
    (asked s d t 0x20 n data →
      (mask = 0 → DieHears (.debugHalt d t) s d t (refused n 0x20 5)) ∧
      (mask ≠ 0 → ¬ coresPowered x mask → DieHears (.debugHalt d t) s d t (refused n 0x20 2)) ∧
      (mask ≠ 0 → coresPowered x mask →
        (namesFoldCore x mask → x.boot.host.info % 4 ≠ 1 → x.boot.host.info % 4 ≠ 2 →
          DieHears (.debugHalt d t) s d t (refused n 0x20 1)) ∧
        (¬ namesFoldCore x mask → ∃ y : LogicDie, exec (.debugHalt d t) s = .next ((heardAt s d t).setDie d (refused n 0x20 0 y)) ∧
          (y.g F.DBG_STAT_HALTED).testBit 2 = true ∧ y.g F.DBG_STAT_HOLD = x.g F.DBG_STAT_HOLD ∧ y.core = x.core ∧ y.mem = x.mem) ∧
        (namesFoldCore x mask → x.boot.host.info % 4 = 1 → x.g F.DBG_STAT_HOLD ≠ 1 → ∃ y : LogicDie,
          exec (.debugHalt d t) s = .next ((heardAt s d t).setDie d (refused n 0x20 0 y)) ∧ enteredHold x y ∧ ∃ q ∈ y.xl.tx, q.item = .note .hold) ∧
        (namesFoldCore x mask → x.boot.host.info % 4 = 2 → x.g F.PWR_STAT_PDSEQ ≠ 1 → x.muted 40 = false → x.driven 40 = false →
          x.g F.FC_CTRL_SAFE ≠ 1 →
          ∃ y : LogicDie, exec (.debugHalt d t) s = .next ((heardAt s d t).setDie d (refused n 0x20 0 y)) ∧
            Nat.land (y.g F.DBG_STAT_HALTED) (foldCores x) = foldCores x ∧ (y.g F.FC_SEEN_BITS 0).testBit 40 = true ∧ y.wentSafe = true))) ∧
    (asked s d t 0x21 n data →
      (mask = 0 → DieHears (.resume d t) s d t (refused n 0x21 5)) ∧
      (mask ≠ 0 → ¬ coresPowered x mask → DieHears (.resume d t) s d t (refused n 0x21 2)) ∧
      (mask ≠ 0 → coresPowered x mask → Nat.land mask (x.g F.DBG_STAT_HALTED) ≠ mask →
        DieHears (.resume d t) s d t (refused n 0x21 4)) ∧
      (mask ≠ 0 → coresPowered x mask → Nat.land mask (x.g F.DBG_STAT_HALTED) = mask → ∃ (u : State) (y : LogicDie),
        exec (.resume d t) s = .next u ∧ u.die d = refused n 0x21 0 y ∧ Nat.land (y.g F.DBG_STAT_HALTED) mask = 0 ∧
        (namesFoldCore x mask → Nat.land (y.g F.DBG_STAT_HALTED) (foldCores x) = 0) ∧
        (namesFoldCore x mask → x.g F.DBG_STAT_HOLD = 1 → y.g F.DBG_STAT_HOLD = 0 ∧ (u.die (other d)).g F.DBG_STAT_HOLD ≠ 1) ∧
        ((¬ namesFoldCore x mask ∨ x.g F.DBG_STAT_HOLD ≠ 1) → u.die (other d) = s.die (other d) ∧ y.core = x.core ∧ y.mem = x.mem))) ∧
    (asked s d t 0x22 n data →
      (x.hdr.triad = true → DieHears (.debugStep d t) s d t (refused n 0x22 1)) ∧
      (x.hdr.triad = false → x.g F.PWR_DOM_STATE 0 ≠ 2 → DieHears (.debugStep d t) s d t (refused n 0x22 2)) ∧
      (x.hdr.triad = false → x.g F.PWR_DOM_STATE 0 = 2 → (x.g F.DBG_STAT_HALTED).testBit 2 = false →
        DieHears (.debugStep d t) s d t (refused n 0x22 4)) ∧
      (x.hdr.triad = false → x.g F.PWR_DOM_STATE 0 = 2 → (x.g F.DBG_STAT_HALTED).testBit 2 = true →
        DieHears (.debugStep d t) s d t (fun x => refused n 0x22 0 { x with comp := { x.comp with stepping := true } })))

/-- R413, R421: core registers and breakpoints. A core that is none is BADOP, one without power NOPOWER, one that runs NOTHALTED. REGRD answers a general register as its role reads it; REGWR writes the companion core's, and the fold task's in DEVELOP in hold. A breakpoint is set where a HALT of its cores is permitted, at an aligned address in one of
four slots; BKCLR clears its slot. -/
def Sys2Proof.Claims.CoreRegistersAndBreakpoints : Prop :=
  ∀ (s : State) d t n data (x : LogicDie) c, x = (s.die d).at t → c = ofBytesLE (data.take 1) →
    (∀ i op, ((i = .regrd d t ∧ op = 0x30) ∨ (i = .regwr d t ∧ op = 0x31)) → asked s d t op n data →
      (3 ≤ c → DieHears i s d t (refused n op 5)) ∧
      (c < 3 → ¬ coresPowered x (2 ^ c) → DieHears i s d t (refused n op 2)) ∧
      (c < 3 → coresPowered x (2 ^ c) → (x.g F.DBG_STAT_HALTED).testBit c = false → DieHears i s d t (refused n op 4))) ∧
    (c < 3 → coresPowered x (2 ^ c) → (x.g F.DBG_STAT_HALTED).testBit c = true → ∀ (r : Fin 32) (comp : Bool) (v : Word),
      comp = (c == 2 && !x.hdr.triad) → ofBytesLE ((data.drop 1).take 1) = 0 → ofBytesLE ((data.drop 2).take 2) = r.val →
      v = BitVec.ofNat 64 (ofBytesLE ((data.drop 8).take 8)) →
      (asked s d t 0x30 n data → DieHears (.regrd d t) s d t (fun x =>
        x.send (.debugRsp n 0x30 ([0, 0, 0, 0, 0, 0, 0, 0] ++ bytesLE 8 (x.w comp r).toNat)))) ∧
      (asked s d t 0x31 n data →
        (comp = false → (x.boot.host.info % 4 ≠ 1 ∨ x.g F.DBG_STAT_HOLD ≠ 1) → DieHears (.regwr d t) s d t (refused n 0x31 1)) ∧
        ((comp = true ∨ (x.boot.host.info % 4 = 1 ∧ x.g F.DBG_STAT_HOLD = 1)) → ∃ y : LogicDie,
          exec (.regwr d t) s = .next ((heardAt s d t).setDie d (refused n 0x31 0 y)) ∧
          (∀ q, y.w comp q = if q = r ∧ q ≠ 0 then v else x.w comp q) ∧ (∀ q, y.w (!comp) q = x.w (!comp) q) ∧
          y.mem = x.mem ∧ y.regs = x.regs))) ∧
    (∀ mask slot a, mask = c % 8 → slot = ofBytesLE ((data.drop 1).take 1) → a = ofBytesLE ((data.drop 8).take 8) →
      asked s d t 0x40 n data →
      ((mask = 0 ∨ 4 ≤ slot ∨ 2 ^ 32 ≤ a ∨ a % 4 ≠ 0) → DieHears (.bkpt d t) s d t (refused n 0x40 5)) ∧
      (mask ≠ 0 → slot < 4 → a < 2 ^ 32 → a % 4 = 0 →
        (¬ coresPowered x mask → DieHears (.bkpt d t) s d t (refused n 0x40 2)) ∧
        (coresPowered x mask → namesFoldCore x mask → x.boot.host.info % 4 ≠ 1 → x.boot.host.info % 4 ≠ 2 →
          DieHears (.bkpt d t) s d t (refused n 0x40 1)) ∧
        (coresPowered x mask → (namesFoldCore x mask → x.boot.host.info % 4 = 1 ∨ x.boot.host.info % 4 = 2) → ∃ y : LogicDie,
          exec (.bkpt d t) s = .next ((heardAt s d t).setDie d (refused n 0x40 0 y)) ∧ y.g F.DBG_BKPT_ADDR slot = a ∧
          y.g F.DBG_BKPT_CORES slot = mask ∧ (∀ k, k < 4 → k ≠ slot → y.rd .DBG_BKPT k = x.rd .DBG_BKPT k) ∧ y.mem = x.mem ∧ y.core = x.core))) ∧
    (asked s d t 0x41 n data →
      (4 ≤ c → DieHears (.bkclr d t) s d t (refused n 0x41 5)) ∧
      (c < 4 → DieHears (.bkclr d t) s d t (fun x => refused n 0x41 0 (x.wr .DBG_BKPT c 0))))

/-- R414, R415: a core that reaches a breakpoint halts as at a HALT: the companion core alone, the fold task with hold and note in DEVELOP. A hold note puts the other die into debug hold, once. -/
def Sys2Proof.Claims.BreakpointsAndHoldNotes : Prop :=
  ∀ (s : State) d t (x : LogicDie), x = (s.die d).at t →
    (∀ (k : Fin 4) (c : Fin 3),
      (((x.g F.DBG_BKPT_CORES k.val).testBit c.val = false ∨ (x.g F.DBG_STAT_HALTED).testBit c.val = true) →
        DieDoes (.breakpointHit d k c t) s d t id) ∧
      ((x.g F.DBG_BKPT_CORES k.val).testBit c.val = true → (x.g F.DBG_STAT_HALTED).testBit c.val = false →
        (c.val = 2 → x.hdr.triad = false → x.comp.on = true → x.comp.pc = x.g F.DBG_BKPT_ADDR k.val → ∃ y : LogicDie,
          exec (.breakpointHit d k c t) s = .next (s.setDie d y) ∧ (y.g F.DBG_STAT_HALTED).testBit 2 = true ∧
          y.core = x.core ∧ y.mem = x.mem ∧ y.g F.DBG_STAT_HOLD = x.g F.DBG_STAT_HOLD) ∧
        ((c.val < 2 ∨ x.hdr.triad = true) → x.core.running = true → x.core.pc = x.g F.DBG_BKPT_ADDR k.val →
          x.boot.host.info % 4 = 1 → x.g F.DBG_STAT_HOLD ≠ 1 → ∃ y : LogicDie,
          exec (.breakpointHit d k c t) s = .next (s.setDie d y) ∧ enteredHold x y ∧ ∃ q ∈ y.xl.tx, q.item = .note .hold))) ∧
    (.hold ∉ x.xl.inbox → DieDoes (.holdNote d t) s d t id) ∧
    (∀ pre rest, x.xl.inbox = pre ++ .hold :: rest → .hold ∉ pre →
      (x.g F.DBG_STAT_HOLD = 1 → DieDoes (.holdNote d t) s d t (fun x => { x with xl := { x.xl with inbox := pre ++ rest } })) ∧
      (x.g F.DBG_STAT_HOLD ≠ 1 → ∃ y : LogicDie, exec (.holdNote d t) s = .next (s.setDie d y) ∧ enteredHold x y ∧
        y.xl.inbox = pre ++ rest))


/-- The block's own rule (log entry 1, DESIGN CHOICE): a step takes the command at the front of the queue and runs it on the state with the rest of the queue; with nothing queued the block idles. -/
def Obligations.StepRunsFront : Prop :=
  (∀ (c : Instr) (s : State) rest, step { s with pending := c :: rest } = exec c { s with pending := rest }) ∧
  (∀ s : State, s.pending = [] → step s = .next s)

/-- No command stops the block, in any state, and none changes the queue: the spec gives every row of the command table an effect or none, and no trap of the block itself. -/
def Obligations.EveryCommandCompletes : Prop :=
  ∀ (i : Instr) (s : State), ∃ u : State, exec i s = .next u ∧ u.pending = s.pending

/-- A number of fuses per field, as the arrays hold it. -/
def Sys2Proof.Claims.fuses (m : Sparse Nat) (k : Nat) : Nat := Sparse.get (fun _ => 0) m k

/-- R400, R404: whatever step the block takes, a blown fuse stays blown: of the lifecycle fields, the key slots, the revocations (8 fuses each), the anti-rollback counter and the image key; and the device identifier never changes. -/
def Obligations.FusesStayBlown : Prop :=
  ∀ s u : State, (∀ n, n < 4 → fuses s.host.sec.krevF n ≤ 8) → s.host.sec.arbF ≤ 64 → s.host.sec.ikFlagF ≤ 8 → step s = .next u →
    (∀ m, fuses s.host.sec.lcF m ≤ fuses u.host.sec.lcF m) ∧
    (∀ n, n < 4 → fuses s.host.sec.krevF n ≤ fuses u.host.sec.krevF n ∧ fuses u.host.sec.krevF n ≤ 8) ∧
    (∀ w b, (Sparse.get (fun _ => 0#64) s.host.sec.keyF w).getLsbD b = true → (Sparse.get (fun _ => 0#64) u.host.sec.keyF w).getLsbD b = true) ∧
    s.host.sec.arbF ≤ u.host.sec.arbF ∧ u.host.sec.arbF ≤ 64 ∧ s.host.sec.ikFlagF ≤ u.host.sec.ikFlagF ∧ u.host.sec.ikFlagF ≤ 8 ∧
    (∀ b, b < 256 → s.host.sec.ikF.testBit b = true → u.host.sec.ikF.testBit b = true) ∧
    (s.host.sec.ikFlag = true → u.host.sec.ikFlag = true) ∧ u.host.sec.uid = s.host.sec.uid

/-- The memories of the device are in canonical form: the byte tables of each logic die, its crosslink view, host SRAM. -/
def Sys2Proof.Claims.Canonical (s : State) : Prop :=
  HostMemory.wf s.host.mem = true ∧ ∀ d, Memory.wf (s.die d).mem = true ∧ Memory.wf (s.die d).memC = true ∧
    Memory.wf (s.die d).memF = true ∧ Memory.wf (s.die d).xview = true

/-- The model's own invariant (log entry on memory): every step keeps the memories of both logic dies and of the host die in canonical form, so that equal memories are equal data. -/
def Obligations.MemoriesStayCanonical : Prop :=
  ∀ s u : State, Canonical s → step s = .next u → Canonical u

/-- R60, R207, R306, R396, R400: reset. Nothing waits; no command is set, no switch closed and no output energised; no fold runs and no number is committed; the host die is held, no session is open, no fuse is blown; the memories list nothing. -/
def Obligations.AtReset : Prop :=
  State.reset.pending = [] ∧ Canonical State.reset ∧ State.reset.host.pw.nrstAt = some 0 ∧
  (∀ n, n < 32 → State.reset.energised n = false) ∧
  (∀ d, (State.reset.die d).opened = true ∧ (State.reset.die d).g F.FOLD_STATUS_RUNNING = 0 ∧
    (State.reset.die d).g F.FOLD_NUMBER_NUMBER = 0 ∧ (State.reset.die d).g F.FC_CTRL_OPEN = 0 ∧
    (State.reset.die d).g F.PWR_DOM_STATE 0 = 2 ∧ (State.reset.die d).g F.BIST_SLFUSE_SL0 = 0xF ∧
    (State.reset.die d).g F.DBG_STAT_SESSION = 0) ∧
  State.reset.host.g F.HDBG_STAT_STATE = 0 ∧ State.reset.host.sec.lifecycle = 0 ∧ State.reset.host.sec.arbF = 0 ∧
  (∀ n, n < 4 → State.reset.host.sec.key n = 0)

/-- The command completes in a next state of which `p` holds. -/
def Sys2Proof.Claims.Completes (i : Instr) (s : State) (p : State → Prop) : Prop := ∃ u : State, exec i s = .next u ∧ p u

/-- R12, R13, R41, R329, R330, R437, R473: what the commands on registers and windows come to where they execute: a lock bit is set; a read-clear field is clear after its read; a DMA run has
ended; the quad-SPI target and BAR0 answer with what they read, and a write stands in its register or in the download window. -/
def Sys2Proof.Claims.RegisterCommandsComplete : Prop :=
  (∀ (s : State) d t (x : LogicDie), x = (s.die d).at t →
    (∀ b, x.g (DieBlock.bit b) ≠ 1 → Completes (.lock (.die d b) t) s (fun u => (u.die d).g (DieBlock.bit b) = 1 ∧ u.host = s.host)) ∧
    (s.host.pw.nrstAt = none → ∀ b, Completes (.lock (.host b) t) s (fun u =>
      u.host.g (HostBlock.bit b) = 1 ∧ u.la = s.la ∧ u.lb = s.lb)) ∧
    (x.g F.FOLD_CTRL_LOCK ≠ 1 → Completes (.foldLock d t) s (fun u => (u.die d).g F.FOLD_CTRL_LOCK = 1 ∧
      (x.admits (x.g F.PWR_PL_CUR) = false → (u.die d).g F.FOLD_STATUS_CFG_REJECT = 1))) ∧
    (∀ p a, p ≠ .foldTask → a - a % 8 = regAddr .FOLD_EXEC 0 → Completes (.rcFieldRead d p ⟨a, false⟩ t) s (fun u =>
      (u.die d).g F.FOLD_EXEC_MAX = 0 ∧ (u.die d).mem = x.mem)) ∧
    (∀ u4 : Fin 4, ∀ at_, x.g F.CK_STAT_BUSY u4.val = 1 → (x.region at_).memory = none →
      (∀ k, k ≤ x.g F.CK_DMA_LEN u4.val → isRegs (x.region (x.g F.CK_DMA_ADDR u4.val / 8 * 8 + 8 * k)) = false) → Completes (.dmaRunEnd d u4 .clean at_ t) s (fun u =>
        (u.die d).g F.CK_STAT_BUSY u4.val = 0))) ∧
  (∀ (s : State) t (h : HostDie), h = s.host.at t → h.pw.nrstAt = none →
    Completes (.readStatus t) s (fun u => u.host.crcErr = false ∧ u.host.answer.length = 1) ∧
    (h.driven 33 = false → ∀ ofs : Fin 1048576, Completes (.bar2Write ofs t) s (fun u =>
      (u.host.g F.HFC_SEEN_BITS 0).testBit 33 = true ∧ u.la = s.la ∧ u.lb = s.lb)) ∧
    (∀ (o : Fin 16777216) (b : List Byte), h.g F.HSTL_STAT_CACHE_VALID ≠ 1 → Completes (.downloadWindowWrite o b t) s (fun u =>
      ∀ k, k < b.length → o.val + k < 0x1000000 → Sparse.get (fun _ => 0#8) u.host.mem (0x1000000 + o.val + k) = b.getD k 0)) ∧
    (∀ (o : Fin 16777216) r i, o.val % 8 = 0 → o.val < 0x100000 → hostRegAt o.val = some (r, i) → (∀ f ∈ r.layout.fields, f.acc ≠ .wo) →
      r ∉ [.HFC_ACT, .BB_PORT, .BB_GCL, .HDBG_STAT, .PWR_HRTC, .FOLD_SNAP_LEASE] →
      Completes (.bar0Read o 8 t) s (fun u => u.host.answer = bytesLE 8 (h.rd r i).toNat) ∧
      (h.g F.HSTL_DL_STAT_BUSY ≠ 1 → Completes (.registerRead o t) s (fun u => u.host.answer = bytesLE 8 (h.rd r i).toNat))) ∧
    (h.g F.HSTL_DL_STAT_BUSY ≠ 1 →
      Completes (.readId t) s (fun u => u.host.answer = [0x47, 0x58, 0x96, 0x40]) ∧
      (∀ (o : Fin 16777216) (n : Nat), o.val + n ≤ 0x1000000 → Completes (.windowRead o n t) s (fun u =>
        u.host.answer = (List.range n).map (fun i => h.byte (0x1000000 + o.val + i)))) ∧
      (∀ (o : Fin 16777216) (b : List Byte) (c : BitVec 32), 8 ≤ b.length → b.length ≤ 4096 → crc32c (b.map (·.toNat)) = c.toNat →
        h.g F.HSTL_STAT_CACHE_VALID ≠ 1 → Completes (.windowWrite o b c t) s (fun u =>
          ∀ k, k < b.length → o.val + k < 0x1000000 → Sparse.get (fun _ => 0#8) u.host.mem (0x1000000 + o.val + k) = b.getD k 0)) ∧
      (∀ (o : Fin 16777216) (v : Word) (c : BitVec 32) r i, crc32c (bytesLE 8 v.toNat) = c.toNat → o.val % 8 = 0 →
        hostRegAt o.val = some (r, i) → r ∉ ownHostRule → h.busDenies .hostBar o.val v = false → h.before = h.regs →
        Completes (.registerWrite o v c t) s (fun u => FieldRule r (h.locked r) (h.rd r i) v 0 (u.host.rd r i)))))

/-- R38, R45, R49, R53-R55, R146: where the phases of a fold execute, what they leave: the fold begun at its start with its exchange frame; the frame and the agreement sent; the combined image
and the fold's start in it; the slot timers in every slot; agreement; and from the end of Y the commit phase. -/
def Sys2Proof.Claims.FoldCommandsComplete : Prop :=
  ∀ (s : State) d t (x : LogicDie), x = (s.die d).at t → Folding x →
    (∀ inA inB, x.fold.phase = .idle → x.onGrid t = true → x.g F.GT_TBASE_TIME = t → (∀ b, x.fold.begun = some b → b < t) →
      Completes (.foldStart d t inA inB t) s (fun u => (u.die d).fold.begun = some t ∧ (u.die d).fold.start = t ∧
        (u.die d).fold.frame.start = t % 2 ^ 32 ∧ (u.die d).fold.frame.digest = x.fold.digest ∧ u.die (other d) = s.die (other d))) ∧
    (x.fold.phase = .sample → t = x.fold.start + 100 → Completes (.exchange d t) s (fun u =>
      (u.die d).fold.phase = .exchange ∧ ∃ q ∈ (u.die d).xl.tx, q.item = .exchange x.fold.frame.payload)) ∧
    (∀ p, x.fold.phase = .exchange → x.fold.start + 100 < t → t ≤ x.fold.start + 550 → x.xl.rxExchange = some p →
      Completes (.exchangeFrame d t) s (fun u => (u.die d).xl.rxExchange = none ∧ (u.die d).fold.omitDigest = false ∧
        ((∀ fa fb : XFrame, (fa, fb) = (match d with | .la => (x.fold.frame, XFrame.ofPayload p) | .lb => (XFrame.ofPayload p, x.fold.frame)) →
            x.exchangeEvents (XFrame.ofPayload p) (x.pairs fa.halves fb.halves) = []) → (u.die d).fold.phase = .ready ∧
          (u.die d).ld64 0x20000008 = BitVec.ofNat 64 x.fold.start))) ∧
    ((x.fold.phase = .sample ∨ x.fold.phase = .exchange ∨ x.fold.phase = .ready) → x.fold.start < t → t ≤ x.fold.start + 550 →
      Completes (.slotTimerExpiry d t) s (fun u => ∀ n, n < 1024 →
        ((u.die d).slot n 0x30).getLsbD 0 = ((x.slot n 0x20).getLsbD 63 &&
          decide ((x.slot n 0x20).toNat % 2 ^ 63 + 1000 * Word.bits (x.slot n 0x08) 31 0 ≤ x.fold.start)) ∧
        ((u.die d).slot n 0x30).getLsbD 1 = ((x.slot n 0x28).getLsbD 63 &&
          decide ((x.slot n 0x28).toNat % 2 ^ 63 + 1000 * Word.bits (x.slot n 0x08) 63 32 ≤ x.fold.start)))) ∧
    (x.fold.phase = .execute → t + 700 = x.fold.start + periodNs x → x.core.complete = true →
      (s.die (other d)).core.complete = true → x.g F.FOLD_STATUS_STARTED = 1 →
      Completes (.outputAgreement d t) s (fun u => (u.die d).fold.phase = .agree ∧
        (u.die d).fold.sent = [x.ld64 0x20001000, x.ld64 0x20001008, x.ld64 0x20001010, x.ld64 0x20001018] ∧
        ∃ q ∈ (u.die d).xl.tx, q.item = .agreement (imageBytes (u.die d).fold.sent))) ∧
    (x.fold.phase = .agree → x.fold.start + periodNs x < t + 700 → t + 260 ≤ x.fold.start + periodNs x →
      x.xl.rxAgreement = some (imageBytes x.fold.sent) → Completes (.outputAgreementFrame d t) s (fun u =>
        (u.die d).fold.phase = .agreed ∧ (u.die d).xl.rxAgreement = none)) ∧
    (x.fold.phase = .agreed → t + 250 = x.fold.start + periodNs x →
      (∀ u, u = (s.setDie d x).modDie d (fun x => x.endY d (s.setDie d x).ioReady ((s.setDie d x).la.dom 4 == 2) t) →
        (u.die d).g F.FOLD_STATUS_SAFE ≠ 1) →
      x.fold.owed ≠ some t → x.core.running = false →
      Completes (.endOfY d t) s (fun u => ((u.die d).fold.phase = .commit ∨ (u.die d).fold.phase = .idle) ∧ (u.die d).core.running = false ∧
        (u.die d).core.complete = false ∧ (u.die d).core.journal = []))

/-- R42, R44, R61, R109, R287, R288, R291, R294: where the commands of an attempt execute, what they leave: the attempt running from the fold entry with the committed registers; the rollback begun; the
next window; the masked core; the retry; and after a missed fold, on both dies, the phase in which its FOLD_DONE is due. -/
def Sys2Proof.Claims.AttemptCommandsComplete : Prop :=
  (∀ (s : State) d t (x : LogicDie), x = (s.die d).at t →
    (Folding x → x.fold.phase = .ready → t = x.fold.start + 550 → ∀ corrected,
      Completes (.checkpoint d none ⟨none, corrected⟩ t) s (fun u => (u.die d).fold.phase = .execute ∧ (u.die d).core.running = true ∧
        (u.die d).core.pc = x.hdr.entry ∧ (u.die d).core.w = x.core.wCommit ∧ (u.die d).core.cycles = 0 ∧ (u.die d).core.attempt = 0 ∧
        (u.die d).mem = x.mem)) ∧
    (x.core.running = true → x.core.attempt = 0 → x.core.jovf = false →
      (x.windowMode = false → Completes (.lockstepMismatch d t) s (fun u => (u.die d).core.rolling = true ∧
        (u.die d).core.running = false ∧ (u.die d).core.stores = [] ∧ (u.die d).core.firstCycles = x.core.cycles)) ∧
      (x.windowMode = true → (x.core.ending.isSome = true ∨ x.core.window + x.g F.FC_LSCFG_WIN ≤ x.core.cycles) →
        Completes (.windowCompare d true t) s (fun u => (u.die d).core.rolling = true ∧ (u.die d).core.running = false ∧
          (u.die d).core.stores = [])) ∧
      (x.windowMode = false → x.g F.FOLD_BUDGET_BUDGET ≤ x.core.cycles → x.foldRuns = true →
        Completes (.budget d t) s (fun u => (u.die d).core.rolling = true ∧ (u.die d).core.running = false ∧
          (u.die d).core.trapPc = BitVec.ofNat 64 x.core.pc ∧ (u.die d).mem = x.mem))) ∧
    (x.core.running = true → x.windowMode = true → x.core.ending = none → x.core.window + x.g F.FC_LSCFG_WIN ≤ x.core.cycles →
      Completes (.windowCompare d false t) s (fun u => (u.die d).core.window = x.core.window + x.g F.FC_LSCFG_WIN ∧
        (u.die d).core.running = true)) ∧
    (x.hdr.triad = true → x.core.running = true → x.core.masked = none → ∀ c : Fin 3,
      Completes (.triadMinority d c t) s (fun u => (u.die d).core.masked = some c.val ∧ (u.die d).core.running = true)) ∧
    (x.core.rolling = true → ∀ corrected, Completes (.rollback d ⟨none, .clean, corrected⟩ t) s (fun u =>
      (u.die d).mem = unwind x.mem x.core.journal ∧ (u.die d).core.running = true ∧ (u.die d).core.attempt = 1 ∧
      (u.die d).core.w = x.core.wCommit ∧ (u.die d).core.cycles = 0 ∧ (u.die d).core.pc = x.hdr.entry ∧
      (u.die d).core.journal = [] ∧ (u.die d).core.stores = []))) ∧
  (∀ (s : State) t (a b : LogicDie), a = s.la.at t → b = s.lb.at t → Folding a → Folding b →
    a.fold.phase = .execute → b.fold.phase = .execute → t + 700 = a.fold.start + periodNs a → t + 700 = b.fold.start + periodNs b →
    a.core.running = false → b.core.running = false → (a.core.complete = false ∨ b.core.complete = false) →
    (a.core.complete = true → a.core.jovf = false) → (b.core.complete = true → b.core.jovf = false) →
    Completes (.missedFold t) s (fun u => u.host = s.host ∧ ∀ d, ((u.die d).fold.phase = .missed ∨ (u.die d).g F.FC_CTRL_SAFE = 1) ∧
      (u.die d).fold.sinceMiss = 0 ∧ (u.die d).core.running = false ∧
      (u.die d).fold.owed = some (((s.die d).at t).fold.start + periodNs ((s.die d).at t) - 250)))

/-- R203, R209-R214, R221: where the findings, pulses and crook checks of the outputs execute, what they leave: the finding in its register, and the switch as the pulse commands it. -/
def Sys2Proof.Claims.OutputCommandsComplete : Prop :=
  ∀ (s : State) d t (n : Fin 32) (x : LogicDie) (q : OutSt), x = (s.die d).at t → q = x.out n.val →
    (((s.lb.at t).g F.SO_CMD_CLOSED).testBit n.val = true → ((s.lb.at t).out n.val).closeAt + 5000000 ≤ t → Completes (.currentLimitExpiry n t) s (fun u =>
      u.la.g F.SO_STAT_OVL n.val = 1 ∧ u.lb.g F.SO_STAT_OVL n.val = 1 ∧ (u.lb.g F.SO_CMD_CLOSED).testBit n.val = false)) ∧
    Completes (.thermalShutdown d n t) s (fun u => (∀ e, (u.die e).g F.SO_STAT_OVT n.val = 1) ∧
      (u.die d).g F.SO_SW_THERMAL n.val = 1 ∧ ((u.die d).g F.SO_CMD_CLOSED).testBit n.val = false) ∧
    (∀ (g : Fin 4) (curr vout : Fin 65536), Completes (.groupOverload d g curr vout t) s (fun u =>
      (u.die d).g F.SO_GRP_CURR g.val = curr.val ∧ (6500 < curr.val → (u.die d).g F.SO_GRP_GRPOVL g.val = 1))) ∧
    ((x.g F.SO_CMD_CLOSED).testBit n.val = false → q.off = false → q.epOpen = none →
      max q.openAt q.offEnd + x.g F.SO_CFG_OFFT n.val * 1000 ≤ t → ∀ flows : Bool, Completes (.stayon d n flows t) s (fun u =>
        (u.die d).g F.SO_STAT_STAYON n.val = 1 ∧ ((u.die d).g F.SO_SHORT_BITS).testBit n.val = true)) ∧
    ((x.g F.SO_CMD_CMD).testBit n.val = true → (x.g F.SO_CMD_CLOSED).testBit n.val = true → q.epLow = none →
      q.closeAt + x.g F.SO_CFG_ONT n.val * 1000 ≤ t → ∀ mid : Bool, Completes (.noon d n mid t) s (fun u =>
        (u.die d).g F.SO_STAT_NOON n.val = 1)) ∧
    ((x.g F.SO_CMD_CLOSED).testBit n.val = false → q.openFrom + 10000000 ≤ t → q.highAt + 10000000 ≤ t → Completes (.shortClear d n t) s (fun u =>
      ((u.die d).g F.SO_SHORT_BITS).testBit n.val = false)) ∧
    (t % (1000 * x.g F.SO_TCFG_SLOT) = 10000 → x.testSlot t = 2 * n.val + d.num → x.g F.SO_CFG_OFFTEST n.val = 1 →
      (x.g F.SO_CMD_CMD).testBit n.val = true → x.permit d n.val = true → q.off = false → q.on = false →
      Completes (.offPulse d n t) s (fun u => ((u.die d).out n.val).off = true ∧ ((u.die d).g F.SO_CMD_CLOSED).testBit n.val = false)) ∧
    (t % (1000 * x.g F.SO_TCFG_SLOT) = 10000 → x.testSlot t = 2 * n.val → x.g F.SO_CFG_ONTEST n.val = 1 →
      x.g F.FOLD_STATUS_STARTED = 1 → (x.g F.SO_CMD_CMD).testBit n.val = false → x.permit d n.val = true → q.freed = true →
      q.off = false → q.on = false → Completes (.onPulse d n t) s (fun u =>
        ((u.die d).out n.val).on = true ∧ ((u.die d).g F.SO_CMD_CLOSED).testBit n.val = true)) ∧
    (x.g F.SO_CROOK_OUT_CMD = 1 →
      (x.g F.SO_CROOK_CPEN = 1 → t % 1000000 = 250000 + 500000 * d.num → x.crookOpen 0 t = true →
        Completes (.crookPulse d true t) s (fun u => (u.die d).g F.SO_CROOK_OUT_RB = 0 ∧ (u.die d).crookRead = x.now) ∧
        Completes (.crookPulse d false t) s (fun u => (u.die d).g F.SO_CROOK_PEND = 1)) ∧
      (750000 - 500000 * d.num ≤ t % 1000000 → t % 1000000 ≤ 750000 - 500000 * d.num + 500 → x.crookOpen 1 t = true →
        Completes (.crookPartnerCheck d true t) s (fun u => (u.die d).g F.SO_CROOK_OUT_RB = 1 ∧ (u.die d).crookRead = x.now) ∧
        Completes (.crookPartnerCheck d false t) s (fun u => (u.die d).g F.SO_CROOK_PEND = 1)) ∧
      (x.crookUp + 2000 ≤ t → Completes (.crookOutputLow d t) s (fun u => (u.die d).g F.SO_CROOK_LOW = 1)))

/-- R228, R233, R237, R248, R249, R255, R262-R266: where the commands of lamps, pattern engines and matrix execute, what they leave: the finding, the flash phase, the working vector, counter, address, mode or
request of the engine and of no other, the configuration kept for the next frame, the pair indicated. -/
def Sys2Proof.Claims.LampCommandsComplete : Prop :=
  ∀ (s : State) t (e : Fin 8) (x : LogicDie) (q : PeSt), x = s.la.at t → q = x.pe e.val →
    (x.g F.PWR_STAT_PDSEQ ≠ 1 → x.muted 56 = false → x.driven 56 = false → ∀ frame, Completes (.lampLinkFault frame t) s (fun u =>
      (u.la.g F.FC_SEEN_BITS 0).testBit 56 = true ∧ u.lb = s.lb)) ∧
    ((x.flashOn e.val t = false ∨ ((t : Int) - 1000000 - x.g F.LMP_FLASH_PHASE e.val * 2000000) %
        (x.g F.LMP_FLASH_PERIOD e.val * 2000000 : Nat) ≠ 0) → Completes (.flashEdge .la e t) s (fun u =>
      u.la.lampSide.flash.testBit e.val = x.flashOn e.val t)) ∧
    (∀ (n : Fin 48) (z : LogicDie) span, z = s.lb.at t → span = z.g F.LMP_TCFG_PALIVE * 1000000 → entProof (z.dispEntry n.val) = true →
      entMode (z.dispEntry n.val) = 3 → z.lampSide.dispAt < t → (t - z.lampSide.dispAt) % span = 0 →
      (∀ a, (z.lamp n.val).lastAlive = some a → a + span ≤ t) →
      Completes (.notalive n t) s (fun u => u.lb.g F.LMP_STAT_NOTALIVE n.val = 1)) ∧
    Completes (.peTick t) s (fun u => u.lb = s.lb ∧ ∀ k, k < 8 → x.peTicks k t = true → (∀ dn lk, (x.pe k).mode ≠ .shift dn lk) →
      (x.pe k).work.length = 8 → (∀ v ∈ (x.pe k).work, v < 65536) → u.la.presented k = (x.pe k).work) ∧
    (PeRuns x e.val →
      (∀ k : Fin 16, Completes (.peSet e k t) s (fun u => (u.la.pe e.val).work = sel q (fun _ => x.g F.PE_LVL_LEVEL k.val))) ∧
      (∀ (k : Fin 16) (s1 : Fin 256), Completes (.peRamp e k s1 t) s (fun u => (u.la.pe e.val).mode = .ramp k.val (s1.val + 1) 1 q.work)) ∧
      (∀ m : Fin 256, Completes (.peMask e m t) s (fun u => (u.la.pe e.val).mask = m.val)) ∧
      (∀ dn, Completes (.peShift e dn false t) s (fun u => (u.la.pe e.val).mode = .shift dn false ∧ u.la.g F.PE_STAT_STALLT e.val = 0)) ∧
      (∀ (i : Fin 4) (n1 : Fin 256), Completes (.peLdc e i n1 t) s (fun u => (u.la.pe e.val).cnt = q.cnt.set i.val (n1.val + 1))) ∧
      (∀ (i : Fin 4) (a : Fin 64), 1 < q.cnt.getD i.val 0 → Completes (.peDjnz e i a t) s (fun u =>
        (u.la.pe e.val).cnt = q.cnt.set i.val (q.cnt.getD i.val 0 - 1) ∧ u.la.g F.PE_STAT_PC e.val = a.val)) ∧
      (∀ a : Fin 64, Completes (.peJmp e a t) s (fun u => u.la.g F.PE_STAT_PC e.val = a.val)) ∧
      (∀ t1 : Fin 4096, Completes (.peWait e t1 t) s (fun u => (u.la.pe e.val).mode = .wait (t1.val + 1))) ∧
      Completes (.peWaitf e t) s (fun u => (u.la.pe e.val).mode = .waitF false) ∧
      (∀ f : Fin 8, Completes (.peWaitp e f t) s (fun u => (u.la.pe e.val).mode = .waitP f.val false)) ∧
      Completes (.peHalt e t) s (fun u => (u.la.pe e.val).mode = .halted)) ∧
    Completes (.peSwap e t) s (fun u => (u.la.g F.PE_CTRL_SWAP).testBit e.val = true) ∧
    Completes (.peFswap e t) s (fun u => (u.la.g F.PE_CTRL_FSWAP).testBit e.val = true) ∧
    (∀ b, Completes (.pePause e b t) s (fun u => (u.la.g F.PE_CTRL_PAUSE).testBit e.val = b)) ∧
    (∀ b, Completes (.peRun e b t) s (fun u => (u.la.g F.PE_CTRL_RUN).testBit e.val = b)) ∧
    Completes (.mxFlip t) s (fun u => u.la.g F.MX_CTRL_FLIP = 1) ∧
    (∀ p v, mxCfgOk v = true → Completes (.mxCfgWrite p v t) s (fun u => u.la.mx.next = some v ∧ u.la.rd .MX_CFG 0 = v)) ∧
    (t % (Word.bits x.mx.cfg F.MX_CFG_FPER.hi F.MX_CFG_FPER.lo * 1000) = 0 → Completes (.frameStart t) s (fun u =>
      u.la.mx.next = none ∧ u.la.g F.MX_CTRL_FLIP = 0)) ∧
    (x.g F.MX_CTRL_BLANKED ≠ 1 → ∀ (l : Fin 16), l.val ≤ x.mxCfg F.MX_CFG_LINES → x.slotEnd l.val t = true →
      Sparse.get (fun _ => 0) s.lb.mx.tripTill l.val < t → Completes (.lineSlot l true 0 0 t) s (fun u => u.la.mx.armOcp.testBit l.val = true ∧ u.lb.g F.MX_LINE_TRIP l.val = 1)) ∧
    (∀ f, f = t / (x.mxCfg F.MX_CFG_FPER * 1000) → x.g F.MX_CTRL_BLANKED ≠ 1 → x.mxCfg F.MX_CFG_NBTEST ≠ 0 → x.inGap t = true →
      x.mx.tested ≠ some f → ∀ (v : Fin 65536), Completes (.matrixNeighbourTest v t) s (fun u => u.la.mx.tested = some f ∧
        (v.val ≤ 100 → (u.la.g F.MX_NBSHORT_PAIRS).testBit (f % 46) = false)))

/-- R270-R274, R277, R279-R282, R284: where the commands of the converters execute, what they leave: the pass and the urgent entries under way, the conversion done, the queue read, the spare and its measurement. -/
def Sys2Proof.Claims.ConverterCommandsComplete : Prop :=
  ∀ (s : State) d (c : Fin 2) t (x : LogicDie) (q : AdcSt), x = (s.die d).at t → q = x.adc c.val →
    (∀ (src : Fin 4) (tm : Fin 16), (src.val = 1 ∨ src.val = 2) → x.trigAt src.val = some t → x.g F.ADC_CFG_TRIG 0 = src.val →
      x.g F.ADC_CFG_TRIG 1 ≠ src.val → x.g F.ADC_CFG_MODE 0 = 2 → x.adcBusy 0 = false → x.converts 0 = true →
      Completes (.adcTrigger d src tm t) s (fun u => ((u.die d).adc 0).pass = true ∧ ((u.die d).adc 0).entry = 0 ∧
        (u.die d).trigAt src.val = none)) ∧
    (x.g F.ADC_CFG_TRIG 1 = 0 → x.g F.ADC_CFG_MODE 1 = 2 → x.adcBusy 1 = false → x.converts 1 = true →
      Completes (.adcSwtrig d 2 t) s (fun u => ((u.die d).adc 1).pass = true ∧ ((u.die d).adc 1).entry = 0)) ∧
    (∀ e0 e1 : Fin 16, x.capturing 1 = false → (x.adc 1).cal = none → x.converts 1 = true → (x.adc 1).urgent ≠ [] →
      Completes (.adcUrg d false e0 true e1 t) s (fun u => ((u.die d).adc 1).urgent = (x.adc 1).urgent ++ [e1.val])) ∧
    (∀ w l, q.queue = w :: l → Completes (.adcPop d c .companion t) s (fun u =>
      ((u.die d).adc c.val).queue = l ∧ (u.die d).g F.ADC_QSTAT_COUNT c.val = l.length % 2 ^ (F.ADC_QSTAT_COUNT.hi + 1 - F.ADC_QSTAT_COUNT.lo))) ∧
    (x.g F.ADC_CTRL_REFEN = 1 → x.g F.PWR_DOM_STATE 8 = 2 → x.refAt + 300000 ≤ t → Completes (.refrdy d t) s (fun u =>
      (u.die d).g F.ADC_CTRL_REFRDY = 1)) ∧
    (∀ (k : Fin 8) p rest df, q.parts = p :: rest → p.slice = k.val → x.converts c.val = true → x.capturing c.val = false →
      gridNs p.hold ≤ t → t ≤ gridNs (p.hold + 7) → x.shadowing c.val = false →
      Completes (.conversion d c k false df t) s (fun u => (u.die d).g F.ADC_STAT_FAULT c.val = x.g F.ADC_STAT_FAULT c.val ∧
        ((u.die d).adc c.val).strikes.testBit k.val = false ∧ ((u.die d).adc c.val).parts = rest)) ∧
    (x.shadowing c.val = true → 4096 ≤ q.shadowed → Completes (.shadowMove d c t) s (fun u => ((u.die d).adc c.val).shadowed = 0 ∧
      ((u.die d).adc c.val).shadow = (q.shadow + 1) % 8)) ∧
    (∀ code : Fin 65536, x.converts c.val = true → x.g F.ADC_STAT_NOSPARE c.val ≠ 1 → q.checked = false → 62000 ≤ code.val →
      code.val ≤ 63000 → Completes (.spareSelfCheck d c code t) s (fun u => ((u.die d).adc c.val).checked = true ∧
        (u.die d).g F.ADC_STAT_NOSPARE c.val = x.g F.ADC_STAT_NOSPARE c.val)) ∧
    (∀ j, t = (j + 1) * 100000000 → q.slowAt < t → x.g F.PWR_DOM_STATE 8 = 2 → Completes (.slowcal d c j t) s (fun u =>
      ((u.die d).adc c.val).slowAt = t ∧ ((u.die d).adc c.val).tally = [])) ∧
    (x.g F.ADC_CTRL_CALEN = 1 → q.cal = none → ∀ p (k : Fin 16),
      (x.converts c.val = true → q.runs = [] → q.parts = [] → q.urgent = [] →
        Completes (.calZero d c k p t) s (fun u => ((u.die d).adc c.val).cal = some (k.val, false) ∧ (u.die d).g F.ADC_CALSTAT_BUSY = 1) ∧
        Completes (.calFull d c k p t) s (fun u => ((u.die d).adc c.val).cal = some (k.val, true) ∧ (u.die d).g F.ADC_CALSTAT_BUSY = 1)) ∧
      Completes (.calClear d c k p t) s (fun u => (u.die d).g F.ADC_CAL_VALID (c.val * 16 + k.val) = 0)) ∧
    (∀ j full sum, q.cal = some (j, full) → x.calUsable c.val j = true → q.measured = true → x.converts c.val = true →
      x.capturing c.val = false → Completes (.calibrationDone d c sum true t) s (fun u =>
        (u.die d).g F.ADC_CALSTAT_RESULT = 2 ∧ (u.die d).g F.ADC_CALSTAT_DONE = 1 ∧ ((u.die d).adc c.val).cal = none)) ∧
    (∀ g r at_, x = (s.die d).at (g * 25 / 2) → x.converts c.val = true → x.capturing c.val = false → x.g F.ADC_CFG_MODE c.val = 2 → q.urgent = [] →
      q.cal = none → q.runs = [r] → r.kind = .seq → r.issued < r.count → at_ = max q.next (q.freeAt q.rot) → g = at_ →
      Completes (.constituent d c g) s (fun u => ((u.die d).adc c.val).next = g + 1 ∧ ((u.die d).adc c.val).rot = (q.rot + 1) % 8 ∧
        ((u.die d).adc c.val).parts.length = q.parts.length + 1))

/-- The next message on the link of logic die `d` at `t` is `m`. -/
def Sys2Proof.Claims.DieGets (s : State) (d : Ch) (t : Nat) (m : StileMsg) : Prop := (s.modDie d (·.at t)).incoming d false = some m

/-- The next message on link `l` for the host die at `t` is `m`. -/
def Sys2Proof.Claims.HostGets (s : State) (l : Ch) (t : Nat) (m : StileMsg) : Prop := (s.modHost (·.at t)).incoming l true = some m

/-- A logic die that has accepted the message it hears. -/
def Sys2Proof.Claims.accepting (x : LogicDie) : LogicDie := { x with stl := { x.stl with expect := (x.stl.expect + 1) % 2 ^ 32 } }

/-- The receive ring of the host die holds one more entry, where it had room. -/
def Sys2Proof.Claims.RingTook (h : HostDie) (u : State) : Prop :=
  (h.g F.HSTL_RXPTR_HEAD + 1) % 64 ≠ h.g F.HSTL_RXPTR_TAIL → u.host.g F.HSTL_RXPTR_HEAD = (h.g F.HSTL_RXPTR_HEAD + 1) % 64

/-- R104, R105, R112: INTERRUPT and a word of an UNASSIGNED encoding complete: an enabled pending line, the lowest, takes the companion core to its vector with its pc and cause saved; the word, whose effect is the trap ILLEGAL,
saves the cause and address in the trap registers of the fold task, whose first attempt it ends, or takes the companion core to TRAP_VBASE + 8 with cause and pc saved. -/
def Sys2Proof.Claims.InterruptAndUnassignedComplete : Prop :=
  (∀ d t (s : State) l (x : LogicDie), x = (s.die d).at t → x.compRuns = true → x.coreHalted 2 = false → Word.bits x.comp.estatus 0 0 = 1 → l < 64 →
    x.irqLines.testBit l = true → x.comp.irqEnable.toNat.testBit l = true →
    (∀ k, k < l → x.irqLines.testBit k = false ∨ x.comp.irqEnable.toNat.testBit k = false) →
    Completes (.interrupt (.companion d) t) s (fun u => (u.die d).comp.epc = BitVec.ofNat 64 x.comp.pc ∧ (u.die d).comp.ecause = BitVec.ofNat 64 l ∧
      (u.die d).comp.pc = (x.comp.irqVbase.toNat + 8 * l) % 2 ^ 64 ∧ (u.die d).core = x.core ∧ (u.die d).mem = x.mem ∧ u.host = s.host)) ∧
  (∀ c s,
    (FoldReady c s → (here c s).windowMode = false → (here c s).core.jovf = false → (here c s).core.attempt = 0 →
      Completes (.unassigned c) s (fun u => (u.die c.die).core.trapCause.toNat % 256 = 1 ∧
        (u.die c.die).core.trapPc = BitVec.ofNat 64 ((here c s).fetched c).core.pc ∧ (u.die c.die).core.running = false ∧
        (u.die c.die).core.rolling = true ∧ u.host = s.host)) ∧
    (CompReady c s → Completes (.unassigned c) s (fun u => (u.die c.die).comp.ecause = 0x81 ∧
      (u.die c.die).comp.epc = BitVec.ofNat 64 (here c s).comp.pc ∧
      (u.die c.die).comp.pc = ((here c s).comp.trapVbase.toNat + 8) % 2 ^ 64 ∧ u.host = s.host)))

/-- R425, R430: the lock of the GT_ block (GTLOCK) completes: the block is locked, every pin takes its initial level, and an unaligned timer starts at 0. -/
def Sys2Proof.Claims.TimerLockCompletes : Prop :=
  ∀ (s : State) d t (x : LogicDie), x = (s.die d).at t → x.g F.GT_CTRL_LOCK ≠ 1 → Completes (.gtLock d t) s (fun u =>
    (u.die d).g F.GT_CTRL_LOCK = 1 ∧ (u.die d).mem = x.mem ∧ u.host = s.host ∧ ∀ n : Fin 16,
      (u.die d).g F.GT_STAT_PIN n.val = x.g F.GT_CFG_INIT n.val ∧ (x.g F.GT_CFG_ALIGN n.val ≠ 1 → (u.die d).g F.GT_CNT_VALUE n.val = 0))

/-- The pending flag of the switch of a channel. -/
def Sys2Proof.Claims.pendOf : Ch → Fld
  | .la => F.SO_STAT_PENDA
  | .lb => F.SO_STAT_PENDB

/-- R207, R210-R213: OFF_PULSE_END and ON_PULSE_END complete, OPW or OPON after the start of the pulse: the pulse is over and the switch follows its command again; where it was not spoiled, levels that pass are recorded and clear the pending flag. -/
def Sys2Proof.Claims.PulseEndsComplete : Prop :=
  ∀ (s : State) d t (n : Fin 32) (x : LogicDie) (q : OutSt), x = (s.die d).at t → q = x.out n.val →
    (q.off = true → t = q.start + x.g F.SO_CFG_OPW n.val * 1000 → ∀ flows,
      (q.spoiled = true → ∀ a b c e, Completes (.offPulseEnd d n a b c e flows t) s (fun u => ((u.die d).out n.val).off = false)) ∧
      (q.spoiled = false → Completes (.offPulseEnd d n false false false false flows t) s (fun u => ((u.die d).out n.val).off = false ∧
        ∀ e, (u.die e).g (pendOf d) n.val = 0 ∧ (u.die e).g F.SO_STAT_NODE n.val = 0))) ∧
    (q.on = true → t = q.start + x.g F.SO_CFG_OPON n.val * 1000 →
      (q.spoiled = true → ∀ a b c e, Completes (.onPulseEnd d n a b c e t) s (fun u => ((u.die d).out n.val).on = false)) ∧
      (q.spoiled = false → ∀ mid hd, Completes (.onPulseEnd d n true mid 0 hd t) s (fun u => ((u.die d).out n.val).on = false ∧
        (u.die d).g F.SO_STAT_NODE n.val = 1 ∧ (u.die d).mem = x.mem)))

/-- R164, R216, R217, R219, R220: CROOK_IN_LOW and CAPTURE_COMPLETE complete: every output of the die is held, its switches open and its crook output low; the points of the capture stand in the buffer with VALID and DONE. -/
def Sys2Proof.Claims.CrookAndCaptureComplete : Prop :=
  ∀ (s : State) d t,
    Completes (.crookInLow d t) s (fun u => (u.die d).g F.SO_HELD_BITS = 2 ^ 32 - 1 ∧ (u.die d).g F.SO_CROOK_OUT_CMD = 0 ∧
      (u.die d).g F.SO_CROOK_HOLD = 1 ∧ (∀ n, n < 32 → ((u.die d).g F.SO_CMD_CLOSED).testBit n = false) ∧ u.host = s.host) ∧
    (∀ (n : Fin 32) (pts : List (BitVec 16)), n.val ∈ ((s.die d).at t).sigBusy → pts.length = 256 →
      gridNs (((s.die d).at t).adc (n.val / 16)).next ≤ t → Completes (.captureComplete d n pts t) s (fun u =>
        n.val ∉ (u.die d).sigBusy ∧ (u.die d).g F.SO_SIGSTAT_VALID n.val = 1 ∧ (u.die d).g F.SO_SIGSTAT_DONE n.val = 1 ∧
        ∀ i, i < 256 → (u.die d).sigPoint (sigCapAddr n.val 0) i = (pts.getD i 0).toNat))

/-- R227-R229, R236, R241, R243, R244, R264: the four stage findings, LAMP_CHECK_SAMPLE, OPTICAL_WINDOW, COLOUR_LOOP, NEIGHBOUR_TEST, LAMP_DARKENING and LAMP_LINK_TIMEOUT complete where they act: the finding stands on
both dies and the stage is off; sample, window and light show; the short is cleared below 1 V; in a dark condition every stage is off and the matrix blanked; PD1 does so alone where its link is silent. -/
def Sys2Proof.Claims.LampFindingsComplete : Prop :=
  ∀ (s : State) t,
    (∀ (n : Fin 48) (pd : Ch), pd = (if n.val < 24 then .la else .lb) → (s.die pd).g F.LMP_STG_B (n.val % 24) ≠ 0 → s.la.loopDark n.val t = false →
      Completes (.stageOpen n t) s (fun u => (∀ d, (u.die d).g F.LMP_STAT_OPEN n.val = 1) ∧ (u.die pd).g F.LMP_STG_B (n.val % 24) = 0) ∧
      Completes (.stageOcp n t) s (fun u => (∀ d, (u.die d).g F.LMP_STAT_OCP n.val = 1) ∧ (u.die pd).g F.LMP_STG_B (n.val % 24) = 0) ∧
      Completes (.stageLxfail n t) s (fun u => (∀ d, (u.die d).g F.LMP_STAT_LXFAIL n.val = 1) ∧ (u.die pd).g F.LMP_STG_B (n.val % 24) = 0) ∧
      Completes (.stageOvt n true t) s (fun u => (∀ d, (u.die d).g F.LMP_STAT_OVT n.val = 1) ∧ (u.die pd).g F.LMP_STG_B (n.val % 24) = 0)) ∧
    (∀ n : Fin 48, Completes (.stageOvt n false t) s (fun u => ∀ d, (u.die d).g F.LMP_STAT_OVT n.val = 0)) ∧
    (∀ (n : Fin 48) (curr volt : Fin 65536), s.lb.sampleDue n.val t = true → Completes (.lampCheckSample n curr volt t) s (fun u => ∀ d,
      (u.die d).g F.LMP_MEAS_CURR n.val = curr.val ∧ (u.die d).g F.LMP_MEAS_VOLT n.val = volt.val)) ∧
    (∀ (k : Fin 8) (v : Fin 65536) start, s.lb.windowDue k.val start t = true → Completes (.opticalWindow k v start t) s (fun u =>
      u.la.g F.LMP_OSSTAT_LAST k.val = v.val ∧ u.host = s.host)) ∧
    (∀ (k : Fin 8) (v : Fin 65536), t % 2000000 = 90000 → s.la.members k.val ≠ [] →
      Sparse.get (fun _ => none) s.la.lampSide.loopAt k.val ≠ some t → Completes (.colourLoop k v t) s (fun u =>
        u.la.g F.LMP_OSSTAT_SLOT k.val = v.val ∧ u.lb = s.lb)) ∧
    (∀ (v : Fin 65536) j q (z : LogicDie), t = (j + 1) * 2000000 → q = j % 46 → z = s.lb.at t → z.nbDark (pairLow q) (j * 2000000) = true →
      z.nbDark (pairLow q + 1) (j * 2000000) = true → z.lampSide.dispAt ≤ j * 2000000 → v.val ≤ 100 →
      Completes (.neighbourTest v t) s (fun u => (u.lb.g F.LMP_NBSHORT_PAIRS).testBit q = false ∧ u.lb.lampSide.nbPend.testBit q = false)) ∧
    (∀ (x y : LogicDie), x = s.la.at t → y = s.lb.at t → (x.g F.FOLD_STATUS_SAFE = 1 ∨ y.g F.FOLD_STATUS_SAFE = 1 ∨ x.pw.frstOn = true ∨
        y.pw.frstOn = true ∨ x.g F.PWR_DOM_STATE 4 ≠ 2) →
      Completes (.lampDarkening t) s (fun u => u.la.g F.MX_CTRL_BLANKED = 1 ∧ ∀ d, (u.die d).g F.LMP_CTRL_ACTIVE = 0 ∧
        ∀ n, n < 24 → (u.die d).rd .LMP_STG n = 0)) ∧
    Completes (.lampLinkTimeout t) s (fun u => u.lb.g F.MX_DRVSTAT_BLANKED = 1 ∧ u.la.g F.MX_CTRL_BLANKED = 1 ∧
      ∀ n, n < 24 → u.lb.rd .LMP_STG n = 0)

/-- R34, R41, R298, R304, R306: WIRE, FC_FORCE, RESUMPTION and LASTING_CROSSLINK_FAULT complete: the event joins the open record, which WIRE marks; the force bits stand as written, on a logic die and on the host die; at the instant
both dies agreed on their folds run again from the larger number; source 49 is seen on both. -/
def Sys2Proof.Claims.FaultCommandsComplete : Prop :=
  ∀ (s : State) t,
    (∀ d (src : Fin 512) (detail : BitVec 48) (x : LogicDie), x = (s.die d).at t → dieSource d src.val = true → Unforced x →
      x.fc.held.testBit src.val = false → x.fc.wire.testBit src.val = false → x.g F.PWR_STAT_PDSEQ ≠ 1 → x.muted src.val = false → x.g F.FC_CTRL_OPEN = 1 →
      Completes (.wire (some d) src detail t) s (fun u => (u.die d).g F.FC_RECS_WIRE = 1 ∧
        (u.die d).g F.FC_RECS_MERGED = min (x.g F.FC_RECS_MERGED + 1) 65535 ∧ (u.die d).g F.FC_RECA_SRC = x.g F.FC_RECA_SRC)) ∧
    (∀ (k : Fin 8) (v : Word) p (w : Bool),
      (∀ d (x : LogicDie), x = (s.die d).at t → (p = .companion ∨ p = .hostReq) →
        (x.boot.host.info % 4 ≠ 2 ∨ (x.g F.DBG_STAT_SCOPE).testBit 3 = true) → Completes (.fcForce (some d) w k v p t) s (fun u =>
          (u.die d).g (if w then F.FC_FORCEW_BITS else F.FC_FORCE_BITS) k.val = v.toNat)) ∧
      (∀ h : HostDie, h = s.host.at t → (p = .hostFirmware ∨ p = .hostBar) →
        (h.g F.SEC_LC_LC ≠ 2 ∨ (h.g F.HDBG_STAT_SCOPE).testBit 3 = true) → k.val < 4 → Completes (.fcForce none w k v p t) s (fun u =>
          u.host.g (if w then F.HFC_FORCEW_BITS else F.HFC_FORCE_BITS) k.val = v.toNat))) ∧
    (∀ n na nb ia ib, s.la.fc.mine = some (na, ia) → s.lb.fc.mine = some (nb, ib) → s.la.fc.theirs = some (nb, ib) → s.lb.fc.theirs = some (na, ia) →
      (∀ d, (s.die d).g F.FC_CTRL_READY = 1 ∧ (s.die d).g F.FC_CTRL_LOCKED ≠ 1 ∧ (s.die d).g F.FC_CTRL_NORESUME ≠ 1 ∧
        (s.die d).g F.FOLD_STATUS_CFG_REJECT ≠ 1) →
      n = max (s.la.g F.FOLD_NUMBER_NUMBER) (s.lb.g F.FOLD_NUMBER_NUMBER) → t = max ia ib → Completes (.resumption t) s (fun u => u.host = s.host ∧
        ∀ d, (u.die d).g F.FOLD_NUMBER_NUMBER = n ∧ (u.die d).g F.FC_CTRL_SAFE = 0 ∧ (u.die d).g F.FOLD_STATUS_RUNNING = 1)) ∧
    (∀ d (slot : Fin 3) q, ((s.die d).at t).xhead slot.val = some q → q.resent = true →
      (∀ c (y : LogicDie), y = (s.die c).at t → y.g F.DBG_STAT_HOLD ≠ 1 ∧ y.g F.PWR_STAT_PDSEQ ≠ 1 ∧ y.muted 49 = false ∧ y.driven 49 = false) →
      Completes (.lastingCrosslinkFault d slot t) s (fun u => u.host = s.host ∧ ∀ c, ((u.die c).g F.FC_SEEN_BITS 0).testBit 49 = true))

/-- R47, R61, R316-R320, R324, R326, R440, R441: CONTROL_WORD, CONTROL_WORD_SEND, TIME_SYNC, LOG_RECORD and FOLD_DONE complete where they arrive: the end that hears a control word restarts its time, and what the word names leaves the list of
unacknowledged messages; the word that an end sends names the last message it accepted; the alignment error is that of the received time; the records enter the merged log; the FOLD_DONE waits for its partner. -/
def Sys2Proof.Claims.LinkCommandsComplete : Prop :=
  ∀ (s : State) l t,
    (∀ h (u : State) (e : LinkEnd), u = s.endAt l h t → e = u.linkEnd l h →
      (u.sendsCtl l h t = true → Completes (.controlWordSend l h t) s (fun v =>
        (v.linkEnd l h).cw = if e.heard = true ∧ e.down = false then some ((e.expect + (2 ^ 32 - 1)) % 2 ^ 32) else none)) ∧
      (e.down = false → u.sendsCtl l (!h) t = true → u.hears l h = true → (u.linkEnd l (!h)).cw = none →
        Completes (.controlWord l h t) s (fun v => (v.linkEnd l h).cwAt = t ∧ (v.linkEnd l h).missed = false ∧
          (v.linkEnd l h).unacked = e.unacked)) ∧
      (h = false → e.down = false → u.sendsCtl l true t = true → u.hears l false = true → e.queue = [] → ∀ done q rest,
        e.unacked = done ++ q :: rest → (∀ p ∈ done, p.seq ≠ q.seq) → (u.linkEnd l true).cw = some q.seq →
        Completes (.controlWord l false t) s (fun v => (v.die l).stl.cwAt = t ∧ (v.die l).stl.unacked = rest))) ∧
    (∀ d (time : Nat) (off : Int), off = (t : Int) - 80 - (time : Int) → -(2 ^ 31) ≤ off → off < 2 ^ 31 → DieGets s d t (.timeSync time true) →
      Completes (.timeSync d t) s (fun u => ((u.die d).rd .FOLD_ALIGN_ERR 0).toNat % 2 ^ 32 = (off % 2 ^ 32).toNat ∧
        (u.die d).g F.FOLD_ALIGN_ERR_VALID = 1)) ∧
    (∀ recs n, HostGets s l t (.logRecord recs n) → Completes (.logRecord l t) s (fun u =>
      u.host.g F.LOG_HSTAT_WRITE = ((s.host.at t).g F.LOG_HSTAT_WRITE + recs.length) % 32768)) ∧
    (∀ f master, HostGets s l t (.foldDone f) → f.missed = false → s.host.snap.wait l = none → s.host.snap.wait (other l) = none →
      Completes (.foldDone l master t) s (fun u => u.host.snap.wait l = some f ∧ u.host.snap.wait (other l) = none))

/-- R320, R327, R334, R336: HELLO, IMAGE_BEGIN, IMAGE_CHUNK, IMAGE_END and PARAM_WRITE complete at the logic die that waits for them, IMAGE_VERDICT and PARAM_ACK at the host die: the session is open; the transfer begins; the
chunk joins the image, and the data the parameters; parameters are awaited; the second verdict ends the download; the acknowledgement enters the receive ring. -/
def Sys2Proof.Claims.DownloadCommandsComplete : Prop :=
  ∀ (s : State) d t (x : LogicDie), x = (s.die d).at t →
    (∀ e h, (s.endAt d false t).newHello d false = some (e, h) → Completes (.hello d false t) s (fun u =>
      (u.die d).boot.host = h ∧ (u.die d).g F.STL_STAT_SESSION = 1 ∧ (u.die d).stl.expect = 1)) ∧
    (∀ e h, (s.endAt d true t).newHello d true = some (e, h) → Completes (.hello d true t) s (fun u =>
      (u.host.link d).heard = true ∧ (u.host.link d).expect = 1)) ∧
    (∀ total, DieGets s d t (.imageBegin total) → x.boot.phase = .hello → Completes (.imageBegin d t) s (fun u =>
      (u.die d).boot.phase = .image ∧ (u.die d).boot.total = total ∧ (u.die d).boot.image = [])) ∧
    (∀ ofs data last, DieGets s d t (.imageChunk ofs data last) → x.boot.phase = .image → ofs = x.boot.image.length →
      Completes (.imageChunk d t) s (fun u => (u.die d).boot.image = x.boot.image ++ data ∧ (u.die d).boot.chunks = x.boot.chunks + 1)) ∧
    (∀ total chunks, DieGets s d t (.imageEnd total chunks) → x.boot.phase = .image → Completes (.imageEnd d t) s (fun u =>
      (u.die d).boot.phase = .params)) ∧
    (∀ ofs data last, DieGets s d t (.paramWrite ofs data last) → x.boot.phase = .params → ofs = x.boot.params.length →
      Completes (.paramWrite d t) s (fun u => (u.die d).boot.params = x.boot.params ++ data ∧
        (u.die d).boot.phase = if last then .verify else .params)) ∧
    (∀ reason detail digest tally (h : HostDie), h = s.host.at t → h.pw.nrstAt = none → HostGets s d t (.imageVerdict reason detail digest tally) →
      h.down.sending = true → h.down.got = 2 ^ (other d).num → Completes (.imageVerdict d t) s (fun u =>
        u.host.g F.HSTL_DL_STAT_DONE = 1 ∧ u.host.g F.HSTL_DL_STAT_BUSY = 0 ∧ u.host.down.busy = false)) ∧
    (∀ a b c (h : HostDie), h = s.host.at t → h.pw.nrstAt = none → HostGets s d t (.paramAck a b c) →
      Completes (.paramAck d t) s (RingTook h))

/-- R340-R342, R379, R381, R413, R451: HOST_REQ (read, write, start and restart) and POWER_REQ (request) complete at a logic die that may serve them, HOST_REQ (reply), POWER_REQ (state report, grant and refusal), DEBUG_RSP and BIST_RES at the host die:
the reply carries the word read, or tells that the write has been made and stands; the start is kept; both dies restart; the request of ON is granted; the last reply ends the request; the others enter the
receive ring, the report in PWR_FREP, and a result frees a command in flight. -/
def Sys2Proof.Claims.RequestCommandsComplete : Prop :=
  (∀ (s : State) d t (x : LogicDie) tag a data, x = (s.die d).at t →
    (DieGets s d t (.hostReq 1 tag a data) → a % 8 = 0 → mayLoad true (x.region a) = true → isRegs (x.region a) = false →
      Completes (.hostReqRead d t) s (fun u => u.die d = (accepting x).send (.hostRep 1 0 tag a (leNum (seen x true) a 8)))) ∧
    (DieGets s d t (.hostReq 2 tag a data) → a % 8 = 0 → x.region a = .dieRegs → x.compMayWrite a = true →
      x.busDenies d .hostReq a (BitVec.ofNat 64 data) = false → Completes (.hostReqWrite d t) s (fun u =>
        u.die d = ((accepting x).busPost d .hostReq a 8 (BitVec.ofNat 64 data)).send (.hostRep 2 0 tag a 0))) ∧
    (DieGets s d t (.hostReq 3 tag a data) → x.g F.FOLD_STATUS_STARTED ≠ 1 → x.g F.FOLD_STATUS_RUNNING = 1 → x.now + 20000 ≤ a →
      x.fold.startAt = none → Completes (.hostReqStart d t) s (fun u => (u.die d).fold.startAt = some a)) ∧
    (DieGets s d t (.hostReq 4 tag a data) → Completes (.hostReqRestart d t) s (fun u => ∀ e, (u.die e).boot.phase = .scrub ∧
      (u.die e).boot.reason = 2)) ∧
    (∀ k st tm, DieGets s d t (.powerReq 1 k st tm) → st = 2 → x.g F.PWR_STAT_PAUSED ≠ 1 → Completes (.powerReqRequest d t) s (fun u =>
      u.die d = (accepting x).send (.powerReq 2 k 2 x.now)))) ∧
  (∀ (s : State) l t (h : HostDie), h = s.host.at t → h.pw.nrstAt = none →
    (∀ op st tag a data, HostGets s l t (.hostRep op st tag a data) → h.req.unanswered = 2 ^ l.num → h.req.unacked = 0 → op ≠ 1 →
      Completes (.hostReqReply l t) s (fun u => u.host.g F.HSTL_REQ_CMD_BUSY = 0 ∧ u.host.req.unanswered = 0 ∧
        u.host.g (reqStat l) = st % 2 ^ ((reqStat l).hi + 1 - (reqStat l).lo))) ∧
    (∀ k st time, HostGets s l t (.powerReq 2 k st time) → Completes (.powerReqGrant l t) s (RingTook h)) ∧
    (∀ k st time, HostGets s l t (.powerReq 3 k st time) → Completes (.powerReqRefusal l t) s (RingTook h)) ∧
    (∀ k st time, HostGets s l t (.powerReq 4 k st time) → s.host.g F.PWR_HWAKE_FIELD ≠ 1 → k < 10 → k ≠ 0 →
      Completes (.powerReqStateReport l t) s (fun u => RingTook h u ∧ (u.host.g (frepOn l)).testBit k = (st == domOn))) ∧
    (∀ n op data, HostGets s l t (.debugRsp n op data) → Completes (.debugRsp l t) s (RingTook h)) ∧
    (∀ a b c e f g, HostGets s l t (.bistRes a b c e f g) → s.host.bistWait = [] → Completes (.bistRes l t) s (fun u =>
      RingTook h u ∧ u.host.bistOut = s.host.bistOut - 1)))

/-- R351, R352, R356, R362, R364: VCT_TX, GRANDMASTER_SYNC and BELLWETHER_ROLE complete: the half waits for its partner, and an equal partner takes both from the queue with the next SEQ; a synchronised host die that is no grandmaster shows its offset; a
device that has heard no lower rank for its time takes the role. -/
def Sys2Proof.Claims.BackboneCommandsComplete : Prop :=
  ∀ (s : State) t,
    (∀ conn crc fold payload ahead (h : HostDie), h = s.host.at t → HostGets s .la t (.vctTx conn crc fold payload ahead) →
      (252 ≤ conn ∨ h.g F.BB_TXC_EN conn = 1) →
      ((∀ o ∈ h.back.txB, ¬ (o.conn = conn ∧ o.no = h.txCount .la conn)) → h.txCount .lb conn ≤ h.txCount .la conn →
        Completes (.vctTx .la t) s (fun u => ∃ q ∈ u.host.back.txA, q.conn = conn ∧ q.crc = crc ∧ q.fold = fold ∧ q.payload = payload)) ∧
      (∀ o, h.back.txB = [o] → o.conn = conn → o.no = h.txCount .la conn → t ≤ o.at_ + 10000 → o.payload = payload → o.fold = fold →
        h.g F.BB_CTRL_EN = 1 → PortsIdle h → h.back.fdb = [] → h.g F.BB_PORT_EN 0 = 1 → Completes (.vctTx .la t) s (fun u =>
          u.host.back.txB = [] ∧ u.host.txSeq conn = if h.txSeq conn + 1 = 2 ^ 32 then 1 else h.txSeq conn + 1))) ∧
    (∀ gm ofs (h : HostDie), h = s.host.at t → h.g F.BB_AS_ROLE ≠ 1 → (h.g F.BB_AS_ROLE = 2 ∨ gm = false) →
      Completes (.grandmasterSync gm ofs t) s (fun u => u.host.g F.BB_ASSTAT_SYNC = 1 ∧ u.host.g F.BB_ASSTAT_GM = 0 ∧
        u.host.g F.BB_ASSTAT_OFFSET = ofs.toNat ∧ u.la = s.la ∧ u.lb = s.lb)) ∧
    (∀ d (x : LogicDie) n, x = (s.die d).at t → 0 < x.cper → t = n * x.cper → x.g F.VCT_CFG_RANK ≠ 0 → x.g F.VCT_STAT_BWL ≠ 1 →
      x.leadHeard (x.g F.VCT_CFG_RANK) ((n : Int) * x.cper - ((x.g F.VCT_CFG_BMISS : Int) + x.g F.VCT_CFG_RANK - 1) * x.cper) = false →
      Completes (.bellwetherRole t) s (fun u => (u.die d).g F.VCT_STAT_BWL = 1 ∧ ((u.die d).g F.VCT_EVT_EVT).testBit 5 = true))

/-- R387, R392-R396, R477, R478: CLOCK_SWITCH, LEVEL_ABANDON, the VF24 commands, FIELD_POWER_UP, WARM_RETURN, FRST_ASSERT and FRST_RELEASE, NRST_H_ASSERT, HOST_SUPPLY_LOW and DOMAIN_FAILURE complete: the level is in force,
or abandoned; the stop path acts and every switch is open; below 8 V both dies are off; a rise boots them; a warm return finds them WARM, a cold one restarts them; FRST is held; its release restarts the dies it reset;
the host die is held; the failed domain is OFF. -/
def Sys2Proof.Claims.PowerCommandsComplete : Prop :=
  ∀ (s : State) t,
    (∀ a b : LogicDie, a = s.la.at t → b = s.lb.at t →
      (∀ y ∈ [a, b], y.g F.PWR_PL_PEND = 1 ∧ y.pw.plMine = true ∧ y.pw.plTheirs = true ∧ y.fold.phase = .idle ∧ y.pw.plBoth + 1000 ≤ y.nextStart t) →
      Completes (.clockSwitch t) s (fun u => u.la.g F.PWR_PL_CUR = a.g F.PWR_PL_REQ ∧ u.lb.g F.PWR_PL_CUR = b.g F.PWR_PL_REQ ∧
        ∀ e, (u.die e).g F.PWR_PL_PEND = 0)) ∧
    (∀ d (x : LogicDie), x = (s.die d).at t → x.g F.PWR_PL_PEND = 1 → x.pw.plAt + 1000000 ≤ t → Completes (.levelAbandon t) s (fun u =>
      (u.die d).g F.PWR_PL_PEND = 0 ∧ (u.die d).g F.PWR_PL_REFUSED = 1)) ∧
    ((∀ d, (s.die d).bist.cur = none ∧ (s.die d).bist.queue = []) →
      (∀ mv : Fin 1900, Completes (.vf24Low mv t) s (fun u => ∀ d, (u.die d).opened = true ∧ (u.die d).g F.PWR_PDSTAT_STOP = 1)) ∧
      (∀ mv : Fin 65536, Completes (.vf24Overvoltage mv t) s (fun u => ∀ d, (u.die d).opened = true ∧ (u.die d).g F.PWR_PDSTAT_STOP = 1)) ∧
      Completes (.vf24Brownout true t) s (fun u => ∀ d, (u.die d).boot.phase = .off ∧ (u.die d).mem = [])) ∧
    (∀ mv : Fin 65536, (∀ d, (s.die d).boot.phase = .off ∧ (s.die d).pw.frstAt = none) → Completes (.fieldPowerUp mv t) s (fun u => ∀ d,
      (u.die d).boot.phase = .scrub ∧ (u.die d).boot.reason = 0 ∧ (u.die d).g F.PWR_PDSTAT_VF24 = mv.val)) ∧
    (∀ fa fb slow (a b : LogicDie), a = s.la.at t → b = s.lb.at t →
      (∀ y ∈ [a, b], y.g F.PWR_STAT_PDSEQ ≠ 1 ∧ y.pw.dipped = true ∧ ∃ up, y.pw.upAt = some up ∧ max up y.pw.seqEnd + 1000000 ≤ t) →
      (fa = true → Completes (.warmReturn fa fb slow t) s (fun u => ∀ d, (u.die d).boot.phase = .scrub ∧ (u.die d).boot.reason = 0)) ∧
      (∀ v : State, v = (((s.setDie .la a).setDie .lb b).allOn .la slow t).allOn .lb slow t → v.la.returnCause fa = 15 → v.lb.returnCause fb = 15 →
        Completes (.warmReturn fa fb slow t) s (fun u => ∀ d, (u.die d).g F.PWR_STAT_WARM = 1 ∧ (u.die d).g F.PWR_STAT_PAUSED = 0))) ∧
    Completes (.frstAssert t) s (fun u => u.host = s.host ∧ ∀ d, (((s.die d).at t).pw.frstAt = none → (u.die d).pw.frstAt = some t) ∧
      (u.die d).mem = ((s.die d).at t).mem) ∧
    (∀ d a, ((s.die d).at t).pw.frstAt = some a → ((s.die d).at t).pw.frstOn = true → Completes (.frstRelease t) s (fun u =>
      (u.die d).boot.phase = .scrub ∧ (u.die d).boot.reason = 1 ∧ (u.die d).pw.frstAt = none)) ∧
    (s.host.pw.nrstAt = none →
      Completes (.nrstHAssert t) s (fun u => u.host.pw.nrstAt = some t ∧ u.host.mem = [] ∧ u.host.g F.HDBG_STAT_STATE = 0) ∧
      Completes (.hostSupplyLow t) s (fun u => u.host.pw.nrstAt = some t ∧ u.host.mem = [] ∧ u.host.g F.HDBG_STAT_STATE = 0)) ∧
    (∀ d (k : Fin 10), k.val = 6 → ((s.die d).at t).g F.PWR_DOM_STATE 6 = 2 →
      (∀ e, ((s.die e).at t).bist.cur = none ∧ ((s.die e).at t).bist.queue = []) → Completes (.domainFailure d k t) s (fun u =>
        (u.die d).g F.PWR_DOM_STATE 6 = 0 ∧ (u.die d).g F.PWR_DOM_FAIL 6 = 1))

/-- R403, R419: PROGRAM_KEY_SLOT, REVOKE_KEY_SLOT, PROGRAM_IK, ADVANCE_LIFECYCLE and RAISE_ARB complete while no fuse command runs and the host die is released: the block is BUSY with the command, which its table permits or not. -/
def Sys2Proof.Claims.FuseCommandsComplete : Prop :=
  ∀ (s : State) t p (h : HostDie), h = s.host.at t → h.pw.nrstAt = none → h.g F.SEC_OTPSTAT_BUSY ≠ 1 →
    ∀ i op slot lct arbt, fuseForm i = some (op, slot, lct, arbt, p, t) →
    ((∃ k : Fin 4, i = .programKeySlot k p t) ∨ (∃ k : Fin 4, i = .revokeKeySlot k p t) ∨ i = .programIk p t ∨
      (∃ k : Fin 4, i = .advanceLifecycle k p t) ∨ (∃ n : Fin 128, i = .raiseArb n p t)) →
    Completes i s (fun u => u.host.g F.SEC_OTPSTAT_BUSY = 1 ∧ u.la = s.la ∧ u.lb = s.lb ∧
      ∃ j, u.host.sec.job = some j ∧ j.op = op ∧ (j.refused = false ↔ fuseCondition h op slot lct arbt))

/-- R407, R412-R415, R421: DEBUG_OPEN and DEBUG_CLOSE, and in the session DEBUG_READ and DEBUG_WRITE, DEBUG_HALT, RESUME and DEBUG_STEP of the companion core, REGRD and REGWR of its registers, BKPT and BKCLR complete with the answer DONE: the session and scope stand,
or are gone; memory that the companion core may load is answered, a register that it may write is written; the core is halted, let go or steps; the register is answered or written; the breakpoint stands or is gone. -/
def Sys2Proof.Claims.DebugCommandsComplete : Prop :=
  ∀ (s : State) d t n data (x : LogicDie), x = (s.die d).at t →
    (DieGets s d t (.debugReq n 1 data) → n < 2 ^ 32 → Completes (.debugOpen d t) s (fun u =>
      (u.die d).g F.DBG_STAT_SESSION = n ∧ (u.die d).g F.DBG_STAT_SCOPE = ofBytesLE ((data.drop 4).take 1) % 64)) ∧
    (DieGets s d t (.debugReq n 2 data) → x.g F.DBG_STAT_SESSION ≠ 0 → n = x.g F.DBG_STAT_SESSION → Completes (.debugClose d t) s (fun u =>
      (u.die d).g F.DBG_STAT_SESSION = 0 ∧ (u.die d).g F.DBG_STAT_SCOPE = 0 ∧ (u.die d).g F.DBG_STAT_HALTED = 0)) ∧
    (∀ a len, asked s d t 0x10 n data → a = ofBytesLE (data.take 8) → len = ofBytesLE ((data.drop 8).take 8) → 8 ≤ len → len ≤ 1008 →
      x.g F.PWR_DOM_STATE 2 = 2 → (∀ k, k < len → isRegs (x.region (a + k)) = false ∧ mayLoad true (x.region (a + k)) = true) →
      Completes (.debugRead d t) s (fun u => u.die d = (accepting x).send
        (.debugRsp n 0x10 ([0, 0, 0, 0, 0, 0, 0, 0] ++ (List.range len).map (fun k => (seen x true (a + k)).toNat))))) ∧
    (∀ a bs, asked s d t 0x11 n data → a = ofBytesLE (data.take 8) → bs = data.drop 8 → bs.length = 8 → a % 8 = 0 → x.region a = .dieRegs →
      x.compMayWrite a = true → x.regsOn d a 1 = true → x.busDenies d .debug a (BitVec.ofNat 64 (ofBytesLE bs)) = false →
      Completes (.debugWrite d t) s (fun u => u.die d =
        ((accepting x).busPost d .debug a 8 (BitVec.ofNat 64 (ofBytesLE bs))).send (.debugRsp n 0x11 [0]))) ∧
    (x.hdr.triad = false → x.g F.PWR_DOM_STATE 0 = 2 →
      (asked s d t 0x20 n data → ofBytesLE (data.take 1) % 8 = 4 → Completes (.debugHalt d t) s (fun u =>
        ((u.die d).g F.DBG_STAT_HALTED).testBit 2 = true ∧ (u.die d).core = x.core ∧ (u.die d).mem = x.mem)) ∧
      ((x.g F.DBG_STAT_HALTED).testBit 2 = true →
        (asked s d t 0x21 n data → ofBytesLE (data.take 1) % 8 = 4 → Completes (.resume d t) s (fun u =>
          ((u.die d).g F.DBG_STAT_HALTED).testBit 2 = false ∧ (u.die d).core = x.core ∧ (u.die d).mem = x.mem)) ∧
        (asked s d t 0x22 n data → Completes (.debugStep d t) s (fun u => (u.die d).comp.stepping = true ∧ (u.die d).mem = x.mem)) ∧
        (∀ (r : Fin 32) (v : Word), ofBytesLE (data.take 1) = 2 → ofBytesLE ((data.drop 1).take 1) = 0 → ofBytesLE ((data.drop 2).take 2) = r.val →
          v = BitVec.ofNat 64 (ofBytesLE ((data.drop 8).take 8)) →
          (asked s d t 0x30 n data → Completes (.regrd d t) s (fun u => u.die d = (accepting x).send
            (.debugRsp n 0x30 ([0, 0, 0, 0, 0, 0, 0, 0] ++ bytesLE 8 (x.w true r).toNat)))) ∧
          (asked s d t 0x31 n data → Completes (.regwr d t) s (fun u =>
            ∀ q, (u.die d).w true q = if q = r ∧ q ≠ 0 then v else x.w true q)))) ∧
      (∀ slot a, asked s d t 0x40 n data → ofBytesLE (data.take 1) % 8 = 4 → slot = ofBytesLE ((data.drop 1).take 1) → slot < 4 →
        a = ofBytesLE ((data.drop 8).take 8) → a < 2 ^ 32 → a % 4 = 0 → Completes (.bkpt d t) s (fun u =>
          (u.die d).g F.DBG_BKPT_ADDR slot = a ∧ (u.die d).g F.DBG_BKPT_CORES slot = 4))) ∧
    (∀ c, asked s d t 0x41 n data → c = ofBytesLE (data.take 1) → c < 4 → Completes (.bkclr d t) s (fun u => (u.die d).rd .DBG_BKPT c = 0))

/-- R411: IDCODE, BYPASS and SAMPLE complete in every state; EXTEST completes in a session with scope HOST, and DAP in one while H_CPU is ON: the instruction is selected, with the identification, the pin levels, the driven balls or the word read. -/
def Sys2Proof.Claims.JtagCommandsComplete : Prop :=
  ∀ (s : State) levels (addr : Fin 4194432),
    Completes .idcode s (fun u => u.host.sec.jtag = .idcode ∧ u.host.sec.jtagDr = 0x1964054F ∧ u.la = s.la ∧ u.lb = s.lb) ∧
    Completes .bypass s (fun u => u.host.sec.jtag = .bypass ∧ u.host.sec.jtagPins = none ∧ u.la = s.la ∧ u.lb = s.lb) ∧
    Completes (.samplePreload levels) s (fun u => u.host.sec.jtag = .sample ∧ u.host.sec.jtagDr = levels ∧ u.la = s.la ∧ u.lb = s.lb) ∧
    (s.host.g F.HDBG_STAT_STATE ≠ 0 → (s.host.g F.HDBG_STAT_SCOPE).testBit 0 = true →
      Completes (.extest levels) s (fun u => u.host.sec.jtag = .extest ∧ u.host.sec.jtagPins = some levels ∧ u.la = s.la ∧ u.lb = s.lb) ∧
      (s.host.g F.PWR_HDOM_STATE 1 = 2 → addr.val < 4194304 →
        Completes (.dap addr none) s (fun u => u.host.sec.jtag = .dap ∧ u.host.sec.jtagDr = ofBytesLE (s.host.bytes (8 * addr.val) 8) ∧
          u.host.mem = s.host.mem) ∧
        (∀ v : Word, Completes (.dap addr (some v)) s (fun u => u.host.sec.jtag = .dap ∧ ∀ k, k < 8 →
          Sparse.get (fun _ => 0) u.host.mem (8 * addr.val + k) = BitVec.ofNat 8 (v.toNat / 2 ^ (8 * k))))))

/-- R449, R450, R452, R458, R461: BIST_LANE, BIST_PIN, BIST_NEIGHBOUR, BIST_SLICE and BIST_FUSE complete where no test runs, the unit is one that the die tests and penned by neither die, its domains are ON, the device quiet where the test asks for it, and the conditions of a burn hold:
the test runs, shown as BUSY but for a burn, with the fold task untouched. -/
def Sys2Proof.Claims.SelfTestCommandsComplete : Prop :=
  ∀ (s v : State) d t (x : LogicDie) test unit opts (i : Instr), x = (s.die d).at t → v = s.modDie d (·.at t) → test < 65536 → unit < 65536 →
    ((i = .bistLane d t ∧ test = 1) ∨ (i = .bistPin d t ∧ test = 2) ∨ (i = .bistNeighbour d t ∧ test = 3) ∨ (i = .bistSlice d t ∧ test = 4) ∨
      (i = .bistFuse d t ∧ test = 0x10)) →
    DieGets s d t (.bistCmd test unit opts) → unitTested d test unit → x.bist.cur = none → x.bist.queue = [] →
    v.bistPenned d ⟨test, unit, opts⟩ = false → unitOn v d test unit → x.g F.PWR_STAT_PDSEQ ≠ 1 → (quietTest test unit = true → deviceQuiet x) →
    (test = 0x10 → fuseReadyAll v d unit) →
    Completes i s (fun u => (u.die d).bist.cur = some ⟨test, unit, opts⟩ ∧ (u.die d).bist.penAt = x.now ∧ (u.die d).g F.BIST_STAT_TEST = test ∧
      (u.die d).g F.BIST_STAT_BUSY = (if test = 0x10 then 0 else 1) ∧ (u.die d).core = x.core ∧ (u.die d).mem = x.mem)

/-! ### The statements that join several claims -/

/-- Integer instructions write the value of their table and nothing else: the claims below, each with its rules. -/
def Obligations.IntegerForms : Prop :=
  IntegerRegisterForms ∧ IntegerMultiplication ∧ IntegerDivision ∧ IntegerImmediateForms ∧ HostCoreIntegers

/-- Loads take the bytes that the role sees; where they trap: the claims below, each with its rules. -/
def Obligations.LoadsAndLoadTraps : Prop :=
  Loads ∧ LoadTraps

/-- Stores write their bytes and no other, with journal or hold; where they trap: the claims below, each with its rules. -/
def Obligations.StoresAndStoreTraps : Prop :=
  FoldStores ∧ HeldAndCompanionStores ∧ StoreTraps

/-- Branches, jumps and the bounded loop: the claims below, each with its rules. -/
def Obligations.BranchesAndLoops : Prop :=
  BranchIfEqual ∧ RegisterJumps ∧ LoopStart ∧ LoopRule

/-- CALL and RET with their limits: the claims below, each with its rules. -/
def Obligations.CallsAndReturns : Prop :=
  Call ∧ Return

/-- Image reads and writes, and FOLD ends an attempt: the claims below, each with its rules. -/
def Obligations.ImageInstructions : Prop :=
  ImageIn ∧ ImageOut ∧ FoldCompletes

/-- Telegram instructions: the claims below, each with its rules. -/
def Obligations.TelegramInstructions : Prop :=
  TelegramSend ∧ TelegramReceive

/-- MOVS and MOVT on every system register: the claims below, each with its rules. -/
def Obligations.SystemRegisters : Prop :=
  SystemRegisterReads ∧ SystemRegisterWrites

/-- Check-value, log, timer and domain instructions: the claims below, each with its rules. -/
def Obligations.HeldEffectInstructions : Prop :=
  CheckValueInstructions ∧ LogInstruction ∧ TimerInstructions ∧ DomainInstruction

/-- Pair, two-hand and restart-interlock instructions follow their state tables: the claims below, each with its rules. -/
def Obligations.EvaluationSlots : Prop :=
  EquivalentPairs ∧ TwoHandControl ∧ RestartInterlock

/-- Device monitoring, muting, delay and limit instructions follow their state tables: the claims below, each with its rules. -/
def Obligations.MonitoringSlots : Prop :=
  DeviceMonitoringAndMuting ∧ DelaysAndLimit

/-- What a fold-task trap does, and the assigned and unassigned encodings: the claims below, each with its rules. -/
def Obligations.FoldTraps : Prop :=
  FoldTrapReaction ∧ UnassignedEncodings ∧ EncodedWords ∧ InterruptAndUnassignedComplete

/-- Attempts, retry and missed folds: the claims below, each with its rules. -/
def Obligations.RetryAndMissedFolds : Prop :=
  AttemptAndRetry ∧ MissedFolds

/-- Resumption, crosslink and power-die links: the claims below, each with its rules. -/
def Obligations.ResumptionAndLinks : Prop :=
  Resumption ∧ ExchangeFrameContents ∧ CrosslinkAndPowerLinks

/-- A register write follows the field types, or is an access error: the claims below, each with its rules. -/
def Obligations.RegisterWrites : Prop :=
  DieRegisterWrites ∧ HostRegisterWrites

/-- Lock bits, read-clear fields, check-value reads, the host's windows: the claims below, each with its rules. -/
def Obligations.RegisterAccess : Prop :=
  LockBits ∧ ReadClearAndDma ∧ QuadSpiAndWindow

/-- Snapshot leases, and the pairing of FOLD_DONE: the claims below, each with its rules. -/
def Obligations.Snapshots : Prop :=
  SnapshotLease ∧ FoldDonePairing

/-- Control words, resends, link faults and their end: the claims below, each with its rules. -/
def Obligations.LinkControl : Prop :=
  ControlWords ∧ ResendAndLinkFault ∧ DiscardAndReturn ∧ LinkCommandsComplete

/-- Time synchronisation and fault notes: the claims below, each with its rules. -/
def Obligations.TimeAndFaultNotes : Prop :=
  TimeSynchronisation ∧ FaultNotes

/-- The host die's rings, what it receives, and the transport of the log: the claims below, each with its rules. -/
def Obligations.RingsAndLog : Prop :=
  HostRings ∧ HostReceives ∧ LogTransport

/-- Host requests on the host die and at a logic die: the claims below, each with its rules. -/
def Obligations.Requests : Prop :=
  HostRequests ∧ RequestsAtADie ∧ RequestCommandsComplete

/-- Timer ticks and timer commands: the claims below, each with its rules. -/
def Obligations.Timers : Prop :=
  TimerTick ∧ TimerCommands ∧ TimerLockCompletes

/-- Own switches and overload: the claims below, each with its rules. -/
def Obligations.Switches : Prop :=
  OwnSwitch ∧ Overload

/-- Output findings and pulse tests: the claims below, each with its rules. -/
def Obligations.OutputFindings : Prop :=
  OutputFindingsAndPulses ∧ OffPulseJudged ∧ PulseEndsComplete

/-- The crook chain and the coil signature: the claims below, each with its rules. -/
def Obligations.CrookAndSignature : Prop :=
  CrookChain ∧ CoilSignature ∧ CrookAndCaptureComplete

/-- Lamp darkness and stage findings: the claims below, each with its rules. -/
def Obligations.LampStages : Prop :=
  LampDarkness ∧ StageFindings

/-- Dimming periods, lamp checks, optical and neighbour checks: the claims below, each with its rules. -/
def Obligations.LampProof : Prop :=
  DimmingPeriods ∧ LampChecks ∧ OpticalAndNeighbours ∧ LampFindingsComplete

/-- Pattern-engine instructions, shifts, controls and ticks: the claims below, each with its rules. -/
def Obligations.PatternEngines : Prop :=
  PatternInstructions ∧ PatternShiftAndControl ∧ PatternTick

/-- Converter requests, constituents and results: the claims below, each with its rules. -/
def Obligations.Conversions : Prop :=
  AdcRequests ∧ AdcConstituents ∧ AdcResults

/-- Converter slices and calibration: the claims below, each with its rules. -/
def Obligations.SlicesAndCalibration : Prop :=
  AdcSlices ∧ AdcCalibration

/-- A source opens a record or joins the open one: the claims below, each with its rules. -/
def Obligations.FaultRecords : Prop :=
  FaultOpensRecord ∧ FaultMerges

/-- Records close and channels resume; force bits; the host die's collector: the claims below, each with its rules. -/
def Obligations.RecordsAndForceBits : Prop :=
  FaultCloses ∧ ForceBits ∧ HostFaults ∧ FaultCommandsComplete

/-- HELLO, sessions and the download messages: the claims below, each with its rules. -/
def Obligations.Download : Prop :=
  HelloOpensSession ∧ DownloadMessages ∧ DownloadCommandsComplete

/-- Field boot, host boot and the host's part of the download: the claims below, each with its rules. -/
def Obligations.Boot : Prop :=
  FieldBoot ∧ HostBootAndDownload

/-- Telegram frames and flock commands: the claims below, each with its rules. -/
def Obligations.TelegramsAndFlock : Prop :=
  TelegramFrames ∧ FlockCommands

/-- The bridge, cell time and telegram pairs: the claims below, each with its rules. -/
def Obligations.Backbone : Prop :=
  Bridge ∧ CellTime ∧ TelegramPairs ∧ BackboneCommandsComplete

/-- Domain transitions and power requests: the claims below, each with its rules. -/
def Obligations.PowerDomains : Prop :=
  DomainTransitions ∧ PowerRequests

/-- Core levels, supply events, field restart and host reset: the claims below, each with its rules. -/
def Obligations.SupplyAndReset : Prop :=
  CoreLevels ∧ SupplyAndFieldReset ∧ HostReset ∧ PowerCommandsComplete

/-- Self-test commands, the end of a test, soft repair: the claims below, each with its rules. -/
def Obligations.SelfTest : Prop :=
  SelfTestCommands ∧ SelfTestEnds ∧ SoftRepair ∧ SelfTestCommandsComplete

/-- Fuse commands and their end: the claims below, each with its rules. -/
def Obligations.FuseBlowing : Prop :=
  FuseCommands ∧ FuseCommandEnds ∧ FuseCommandsComplete

/-- Challenge and response, sessions, JTAG: the claims below, each with its rules. -/
def Obligations.DebugAccess : Prop :=
  ChallengeAndResponse ∧ Sessions ∧ JtagInstructions ∧ JtagCommandsComplete

/-- Stile debug: sessions, reads and writes: the claims below, each with its rules. -/
def Obligations.StileDebug : Prop :=
  DebugSessions ∧ DebugReads ∧ DebugWrites ∧ DebugCommandsComplete

/-- Stile debug: halts, core registers, breakpoints, debug hold: the claims below, each with its rules. -/
def Obligations.DebugHalt : Prop :=
  HaltAndResume ∧ CoreRegistersAndBreakpoints ∧ BreakpointsAndHoldNotes

/-- Where registers, folds, outputs, lamps, engines and converters execute their commands, what they leave: the claims below, each with its rules. -/
def Obligations.CommandsTakeEffect : Prop :=
  RegisterCommandsComplete ∧ FoldCommandsComplete ∧ AttemptCommandsComplete ∧ OutputCommandsComplete ∧ LampCommandsComplete ∧ ConverterCommandsComplete
end

