-- ==== Sys2Proof/Laws/State.lean ====
section
/-! SUPPORT. One lemma per field and update: what each primitive update of a die and of the device keeps, and what it sets. -/

namespace Sys2Proof.Machine

@[simp] theorem LogicDie.p_before (x : LogicDie) (f : Fld) (n i : Nat) : (x.p f n i).before = x.before := rfl
@[simp] theorem LogicDie.p_posts (x : LogicDie) (f : Fld) (n i : Nat) : (x.p f n i).posts = x.posts := rfl
@[simp] theorem LogicDie.p_rwf (x : LogicDie) (f : Fld) (n i : Nat) : (x.p f n i).rwf = x.rwf := rfl
@[simp] theorem LogicDie.p_mem (x : LogicDie) (f : Fld) (n i : Nat) : (x.p f n i).mem = x.mem := rfl
@[simp] theorem LogicDie.p_memC (x : LogicDie) (f : Fld) (n i : Nat) : (x.p f n i).memC = x.memC := rfl
@[simp] theorem LogicDie.p_memF (x : LogicDie) (f : Fld) (n i : Nat) : (x.p f n i).memF = x.memF := rfl
@[simp] theorem LogicDie.p_xview (x : LogicDie) (f : Fld) (n i : Nat) : (x.p f n i).xview = x.xview := rfl
@[simp] theorem LogicDie.p_hdr (x : LogicDie) (f : Fld) (n i : Nat) : (x.p f n i).hdr = x.hdr := rfl
@[simp] theorem LogicDie.p_core (x : LogicDie) (f : Fld) (n i : Nat) : (x.p f n i).core = x.core := rfl
@[simp] theorem LogicDie.p_pipe (x : LogicDie) (f : Fld) (n i : Nat) : (x.p f n i).pipe = x.pipe := rfl
@[simp] theorem LogicDie.p_comp (x : LogicDie) (f : Fld) (n i : Nat) : (x.p f n i).comp = x.comp := rfl
@[simp] theorem LogicDie.p_fold (x : LogicDie) (f : Fld) (n i : Nat) : (x.p f n i).fold = x.fold := rfl
@[simp] theorem LogicDie.p_fc (x : LogicDie) (f : Fld) (n i : Nat) : (x.p f n i).fc = x.fc := rfl
@[simp] theorem LogicDie.p_aon (x : LogicDie) (f : Fld) (n i : Nat) : (x.p f n i).aon = x.aon := rfl
@[simp] theorem LogicDie.p_boot (x : LogicDie) (f : Fld) (n i : Nat) : (x.p f n i).boot = x.boot := rfl
@[simp] theorem LogicDie.p_logRing (x : LogicDie) (f : Fld) (n i : Nat) : (x.p f n i).logRing = x.logRing := rfl
@[simp] theorem LogicDie.p_logInFlight (x : LogicDie) (f : Fld) (n i : Nat) : (x.p f n i).logInFlight = x.logInFlight := rfl
@[simp] theorem LogicDie.p_logDropSent (x : LogicDie) (f : Fld) (n i : Nat) : (x.p f n i).logDropSent = x.logDropSent := rfl
@[simp] theorem LogicDie.p_logDropSeen (x : LogicDie) (f : Fld) (n i : Nat) : (x.p f n i).logDropSeen = x.logDropSeen := rfl
@[simp] theorem LogicDie.p_stl (x : LogicDie) (f : Fld) (n i : Nat) : (x.p f n i).stl = x.stl := rfl
@[simp] theorem LogicDie.p_xl (x : LogicDie) (f : Fld) (n i : Nat) : (x.p f n i).xl = x.xl := rfl
@[simp] theorem LogicDie.p_inputs (x : LogicDie) (f : Fld) (n i : Nat) : (x.p f n i).inputs = x.inputs := rfl
@[simp] theorem LogicDie.p_sources (x : LogicDie) (f : Fld) (n i : Nat) : (x.p f n i).sources = x.sources := rfl
@[simp] theorem LogicDie.p_inSide (x : LogicDie) (f : Fld) (n i : Nat) : (x.p f n i).inSide = x.inSide := rfl
@[simp] theorem LogicDie.p_gtCaps (x : LogicDie) (f : Fld) (n i : Nat) : (x.p f n i).gtCaps = x.gtCaps := rfl
@[simp] theorem LogicDie.p_gtCapNum (x : LogicDie) (f : Fld) (n i : Nat) : (x.p f n i).gtCapNum = x.gtCapNum := rfl
@[simp] theorem LogicDie.p_gtLog (x : LogicDie) (f : Fld) (n i : Nat) : (x.p f n i).gtLog = x.gtLog := rfl
@[simp] theorem LogicDie.p_gtTicked (x : LogicDie) (f : Fld) (n i : Nat) : (x.p f n i).gtTicked = x.gtTicked := rfl
@[simp] theorem LogicDie.p_cks (x : LogicDie) (f : Fld) (n i : Nat) : (x.p f n i).cks = x.cks := rfl
@[simp] theorem LogicDie.p_outs (x : LogicDie) (f : Fld) (n i : Nat) : (x.p f n i).outs = x.outs := rfl
@[simp] theorem LogicDie.p_sigBusy (x : LogicDie) (f : Fld) (n i : Nat) : (x.p f n i).sigBusy = x.sigBusy := rfl
@[simp] theorem LogicDie.p_buf (x : LogicDie) (f : Fld) (n i : Nat) : (x.p f n i).buf = x.buf := rfl
@[simp] theorem LogicDie.p_crookPend (x : LogicDie) (f : Fld) (n i : Nat) : (x.p f n i).crookPend = x.crookPend := rfl
@[simp] theorem LogicDie.p_crookRead (x : LogicDie) (f : Fld) (n i : Nat) : (x.p f n i).crookRead = x.crookRead := rfl
@[simp] theorem LogicDie.p_crookUp (x : LogicDie) (f : Fld) (n i : Nat) : (x.p f n i).crookUp = x.crookUp := rfl
@[simp] theorem LogicDie.p_crookSeen (x : LogicDie) (f : Fld) (n i : Nat) : (x.p f n i).crookSeen = x.crookSeen := rfl
@[simp] theorem LogicDie.p_lamps (x : LogicDie) (f : Fld) (n i : Nat) : (x.p f n i).lamps = x.lamps := rfl
@[simp] theorem LogicDie.p_lampSide (x : LogicDie) (f : Fld) (n i : Nat) : (x.p f n i).lampSide = x.lampSide := rfl
@[simp] theorem LogicDie.p_pes (x : LogicDie) (f : Fld) (n i : Nat) : (x.p f n i).pes = x.pes := rfl
@[simp] theorem LogicDie.p_mx (x : LogicDie) (f : Fld) (n i : Nat) : (x.p f n i).mx = x.mx := rfl
@[simp] theorem LogicDie.p_adcs (x : LogicDie) (f : Fld) (n i : Nat) : (x.p f n i).adcs = x.adcs := rfl
@[simp] theorem LogicDie.p_trigs (x : LogicDie) (f : Fld) (n i : Nat) : (x.p f n i).trigs = x.trigs := rfl
@[simp] theorem LogicDie.p_refAt (x : LogicDie) (f : Fld) (n i : Nat) : (x.p f n i).refAt = x.refAt := rfl
@[simp] theorem LogicDie.p_refWas (x : LogicDie) (f : Fld) (n i : Nat) : (x.p f n i).refWas = x.refWas := rfl
@[simp] theorem LogicDie.p_vct (x : LogicDie) (f : Fld) (n i : Nat) : (x.p f n i).vct = x.vct := rfl
@[simp] theorem LogicDie.p_pw (x : LogicDie) (f : Fld) (n i : Nat) : (x.p f n i).pw = x.pw := rfl
@[simp] theorem LogicDie.p_bist (x : LogicDie) (f : Fld) (n i : Nat) : (x.p f n i).bist = x.bist := rfl
@[simp] theorem LogicDie.p_fresh (x : LogicDie) (f : Fld) (n i : Nat) : (x.p f n i).fresh = x.fresh := rfl

@[simp] theorem LogicDie.wr_before (x : LogicDie) (r : Reg) (i : Nat) (v : Word) : (x.wr r i v).before = x.before := rfl
@[simp] theorem LogicDie.wr_posts (x : LogicDie) (r : Reg) (i : Nat) (v : Word) : (x.wr r i v).posts = x.posts := rfl
@[simp] theorem LogicDie.wr_rwf (x : LogicDie) (r : Reg) (i : Nat) (v : Word) : (x.wr r i v).rwf = x.rwf := rfl
@[simp] theorem LogicDie.wr_mem (x : LogicDie) (r : Reg) (i : Nat) (v : Word) : (x.wr r i v).mem = x.mem := rfl
@[simp] theorem LogicDie.wr_memC (x : LogicDie) (r : Reg) (i : Nat) (v : Word) : (x.wr r i v).memC = x.memC := rfl
@[simp] theorem LogicDie.wr_memF (x : LogicDie) (r : Reg) (i : Nat) (v : Word) : (x.wr r i v).memF = x.memF := rfl
@[simp] theorem LogicDie.wr_xview (x : LogicDie) (r : Reg) (i : Nat) (v : Word) : (x.wr r i v).xview = x.xview := rfl
@[simp] theorem LogicDie.wr_hdr (x : LogicDie) (r : Reg) (i : Nat) (v : Word) : (x.wr r i v).hdr = x.hdr := rfl
@[simp] theorem LogicDie.wr_core (x : LogicDie) (r : Reg) (i : Nat) (v : Word) : (x.wr r i v).core = x.core := rfl
@[simp] theorem LogicDie.wr_pipe (x : LogicDie) (r : Reg) (i : Nat) (v : Word) : (x.wr r i v).pipe = x.pipe := rfl
@[simp] theorem LogicDie.wr_comp (x : LogicDie) (r : Reg) (i : Nat) (v : Word) : (x.wr r i v).comp = x.comp := rfl
@[simp] theorem LogicDie.wr_fold (x : LogicDie) (r : Reg) (i : Nat) (v : Word) : (x.wr r i v).fold = x.fold := rfl
@[simp] theorem LogicDie.wr_fc (x : LogicDie) (r : Reg) (i : Nat) (v : Word) : (x.wr r i v).fc = x.fc := rfl
@[simp] theorem LogicDie.wr_aon (x : LogicDie) (r : Reg) (i : Nat) (v : Word) : (x.wr r i v).aon = x.aon := rfl
@[simp] theorem LogicDie.wr_boot (x : LogicDie) (r : Reg) (i : Nat) (v : Word) : (x.wr r i v).boot = x.boot := rfl
@[simp] theorem LogicDie.wr_logRing (x : LogicDie) (r : Reg) (i : Nat) (v : Word) : (x.wr r i v).logRing = x.logRing := rfl
@[simp] theorem LogicDie.wr_logInFlight (x : LogicDie) (r : Reg) (i : Nat) (v : Word) : (x.wr r i v).logInFlight = x.logInFlight := rfl
@[simp] theorem LogicDie.wr_logDropSent (x : LogicDie) (r : Reg) (i : Nat) (v : Word) : (x.wr r i v).logDropSent = x.logDropSent := rfl
@[simp] theorem LogicDie.wr_logDropSeen (x : LogicDie) (r : Reg) (i : Nat) (v : Word) : (x.wr r i v).logDropSeen = x.logDropSeen := rfl
@[simp] theorem LogicDie.wr_stl (x : LogicDie) (r : Reg) (i : Nat) (v : Word) : (x.wr r i v).stl = x.stl := rfl
@[simp] theorem LogicDie.wr_xl (x : LogicDie) (r : Reg) (i : Nat) (v : Word) : (x.wr r i v).xl = x.xl := rfl
@[simp] theorem LogicDie.wr_inputs (x : LogicDie) (r : Reg) (i : Nat) (v : Word) : (x.wr r i v).inputs = x.inputs := rfl
@[simp] theorem LogicDie.wr_sources (x : LogicDie) (r : Reg) (i : Nat) (v : Word) : (x.wr r i v).sources = x.sources := rfl
@[simp] theorem LogicDie.wr_inSide (x : LogicDie) (r : Reg) (i : Nat) (v : Word) : (x.wr r i v).inSide = x.inSide := rfl
@[simp] theorem LogicDie.wr_gtCaps (x : LogicDie) (r : Reg) (i : Nat) (v : Word) : (x.wr r i v).gtCaps = x.gtCaps := rfl
@[simp] theorem LogicDie.wr_gtCapNum (x : LogicDie) (r : Reg) (i : Nat) (v : Word) : (x.wr r i v).gtCapNum = x.gtCapNum := rfl
@[simp] theorem LogicDie.wr_gtLog (x : LogicDie) (r : Reg) (i : Nat) (v : Word) : (x.wr r i v).gtLog = x.gtLog := rfl
@[simp] theorem LogicDie.wr_gtTicked (x : LogicDie) (r : Reg) (i : Nat) (v : Word) : (x.wr r i v).gtTicked = x.gtTicked := rfl
@[simp] theorem LogicDie.wr_cks (x : LogicDie) (r : Reg) (i : Nat) (v : Word) : (x.wr r i v).cks = x.cks := rfl
@[simp] theorem LogicDie.wr_outs (x : LogicDie) (r : Reg) (i : Nat) (v : Word) : (x.wr r i v).outs = x.outs := rfl
@[simp] theorem LogicDie.wr_sigBusy (x : LogicDie) (r : Reg) (i : Nat) (v : Word) : (x.wr r i v).sigBusy = x.sigBusy := rfl
@[simp] theorem LogicDie.wr_buf (x : LogicDie) (r : Reg) (i : Nat) (v : Word) : (x.wr r i v).buf = x.buf := rfl
@[simp] theorem LogicDie.wr_crookPend (x : LogicDie) (r : Reg) (i : Nat) (v : Word) : (x.wr r i v).crookPend = x.crookPend := rfl
@[simp] theorem LogicDie.wr_crookRead (x : LogicDie) (r : Reg) (i : Nat) (v : Word) : (x.wr r i v).crookRead = x.crookRead := rfl
@[simp] theorem LogicDie.wr_crookUp (x : LogicDie) (r : Reg) (i : Nat) (v : Word) : (x.wr r i v).crookUp = x.crookUp := rfl
@[simp] theorem LogicDie.wr_crookSeen (x : LogicDie) (r : Reg) (i : Nat) (v : Word) : (x.wr r i v).crookSeen = x.crookSeen := rfl
@[simp] theorem LogicDie.wr_lamps (x : LogicDie) (r : Reg) (i : Nat) (v : Word) : (x.wr r i v).lamps = x.lamps := rfl
@[simp] theorem LogicDie.wr_lampSide (x : LogicDie) (r : Reg) (i : Nat) (v : Word) : (x.wr r i v).lampSide = x.lampSide := rfl
@[simp] theorem LogicDie.wr_pes (x : LogicDie) (r : Reg) (i : Nat) (v : Word) : (x.wr r i v).pes = x.pes := rfl
@[simp] theorem LogicDie.wr_mx (x : LogicDie) (r : Reg) (i : Nat) (v : Word) : (x.wr r i v).mx = x.mx := rfl
@[simp] theorem LogicDie.wr_adcs (x : LogicDie) (r : Reg) (i : Nat) (v : Word) : (x.wr r i v).adcs = x.adcs := rfl
@[simp] theorem LogicDie.wr_trigs (x : LogicDie) (r : Reg) (i : Nat) (v : Word) : (x.wr r i v).trigs = x.trigs := rfl
@[simp] theorem LogicDie.wr_refAt (x : LogicDie) (r : Reg) (i : Nat) (v : Word) : (x.wr r i v).refAt = x.refAt := rfl
@[simp] theorem LogicDie.wr_refWas (x : LogicDie) (r : Reg) (i : Nat) (v : Word) : (x.wr r i v).refWas = x.refWas := rfl
@[simp] theorem LogicDie.wr_vct (x : LogicDie) (r : Reg) (i : Nat) (v : Word) : (x.wr r i v).vct = x.vct := rfl
@[simp] theorem LogicDie.wr_pw (x : LogicDie) (r : Reg) (i : Nat) (v : Word) : (x.wr r i v).pw = x.pw := rfl
@[simp] theorem LogicDie.wr_bist (x : LogicDie) (r : Reg) (i : Nat) (v : Word) : (x.wr r i v).bist = x.bist := rfl
@[simp] theorem LogicDie.wr_fresh (x : LogicDie) (r : Reg) (i : Nat) (v : Word) : (x.wr r i v).fresh = x.fresh := rfl

@[simp] theorem LogicDie.count_before (x : LogicDie) (f : Fld) (n i : Nat) : (x.count f n i).before = x.before := rfl
@[simp] theorem LogicDie.count_posts (x : LogicDie) (f : Fld) (n i : Nat) : (x.count f n i).posts = x.posts := rfl
@[simp] theorem LogicDie.count_rwf (x : LogicDie) (f : Fld) (n i : Nat) : (x.count f n i).rwf = x.rwf := rfl
@[simp] theorem LogicDie.count_mem (x : LogicDie) (f : Fld) (n i : Nat) : (x.count f n i).mem = x.mem := rfl
@[simp] theorem LogicDie.count_memC (x : LogicDie) (f : Fld) (n i : Nat) : (x.count f n i).memC = x.memC := rfl
@[simp] theorem LogicDie.count_memF (x : LogicDie) (f : Fld) (n i : Nat) : (x.count f n i).memF = x.memF := rfl
@[simp] theorem LogicDie.count_xview (x : LogicDie) (f : Fld) (n i : Nat) : (x.count f n i).xview = x.xview := rfl
@[simp] theorem LogicDie.count_hdr (x : LogicDie) (f : Fld) (n i : Nat) : (x.count f n i).hdr = x.hdr := rfl
@[simp] theorem LogicDie.count_core (x : LogicDie) (f : Fld) (n i : Nat) : (x.count f n i).core = x.core := rfl
@[simp] theorem LogicDie.count_pipe (x : LogicDie) (f : Fld) (n i : Nat) : (x.count f n i).pipe = x.pipe := rfl
@[simp] theorem LogicDie.count_comp (x : LogicDie) (f : Fld) (n i : Nat) : (x.count f n i).comp = x.comp := rfl
@[simp] theorem LogicDie.count_fold (x : LogicDie) (f : Fld) (n i : Nat) : (x.count f n i).fold = x.fold := rfl
@[simp] theorem LogicDie.count_fc (x : LogicDie) (f : Fld) (n i : Nat) : (x.count f n i).fc = x.fc := rfl
@[simp] theorem LogicDie.count_aon (x : LogicDie) (f : Fld) (n i : Nat) : (x.count f n i).aon = x.aon := rfl
@[simp] theorem LogicDie.count_boot (x : LogicDie) (f : Fld) (n i : Nat) : (x.count f n i).boot = x.boot := rfl
@[simp] theorem LogicDie.count_logRing (x : LogicDie) (f : Fld) (n i : Nat) : (x.count f n i).logRing = x.logRing := rfl
@[simp] theorem LogicDie.count_logInFlight (x : LogicDie) (f : Fld) (n i : Nat) : (x.count f n i).logInFlight = x.logInFlight := rfl
@[simp] theorem LogicDie.count_logDropSent (x : LogicDie) (f : Fld) (n i : Nat) : (x.count f n i).logDropSent = x.logDropSent := rfl
@[simp] theorem LogicDie.count_logDropSeen (x : LogicDie) (f : Fld) (n i : Nat) : (x.count f n i).logDropSeen = x.logDropSeen := rfl
@[simp] theorem LogicDie.count_stl (x : LogicDie) (f : Fld) (n i : Nat) : (x.count f n i).stl = x.stl := rfl
@[simp] theorem LogicDie.count_xl (x : LogicDie) (f : Fld) (n i : Nat) : (x.count f n i).xl = x.xl := rfl
@[simp] theorem LogicDie.count_inputs (x : LogicDie) (f : Fld) (n i : Nat) : (x.count f n i).inputs = x.inputs := rfl
@[simp] theorem LogicDie.count_sources (x : LogicDie) (f : Fld) (n i : Nat) : (x.count f n i).sources = x.sources := rfl
@[simp] theorem LogicDie.count_inSide (x : LogicDie) (f : Fld) (n i : Nat) : (x.count f n i).inSide = x.inSide := rfl
@[simp] theorem LogicDie.count_gtCaps (x : LogicDie) (f : Fld) (n i : Nat) : (x.count f n i).gtCaps = x.gtCaps := rfl
@[simp] theorem LogicDie.count_gtCapNum (x : LogicDie) (f : Fld) (n i : Nat) : (x.count f n i).gtCapNum = x.gtCapNum := rfl
@[simp] theorem LogicDie.count_gtLog (x : LogicDie) (f : Fld) (n i : Nat) : (x.count f n i).gtLog = x.gtLog := rfl
@[simp] theorem LogicDie.count_gtTicked (x : LogicDie) (f : Fld) (n i : Nat) : (x.count f n i).gtTicked = x.gtTicked := rfl
@[simp] theorem LogicDie.count_cks (x : LogicDie) (f : Fld) (n i : Nat) : (x.count f n i).cks = x.cks := rfl
@[simp] theorem LogicDie.count_outs (x : LogicDie) (f : Fld) (n i : Nat) : (x.count f n i).outs = x.outs := rfl
@[simp] theorem LogicDie.count_sigBusy (x : LogicDie) (f : Fld) (n i : Nat) : (x.count f n i).sigBusy = x.sigBusy := rfl
@[simp] theorem LogicDie.count_buf (x : LogicDie) (f : Fld) (n i : Nat) : (x.count f n i).buf = x.buf := rfl
@[simp] theorem LogicDie.count_crookPend (x : LogicDie) (f : Fld) (n i : Nat) : (x.count f n i).crookPend = x.crookPend := rfl
@[simp] theorem LogicDie.count_crookRead (x : LogicDie) (f : Fld) (n i : Nat) : (x.count f n i).crookRead = x.crookRead := rfl
@[simp] theorem LogicDie.count_crookUp (x : LogicDie) (f : Fld) (n i : Nat) : (x.count f n i).crookUp = x.crookUp := rfl
@[simp] theorem LogicDie.count_crookSeen (x : LogicDie) (f : Fld) (n i : Nat) : (x.count f n i).crookSeen = x.crookSeen := rfl
@[simp] theorem LogicDie.count_lamps (x : LogicDie) (f : Fld) (n i : Nat) : (x.count f n i).lamps = x.lamps := rfl
@[simp] theorem LogicDie.count_lampSide (x : LogicDie) (f : Fld) (n i : Nat) : (x.count f n i).lampSide = x.lampSide := rfl
@[simp] theorem LogicDie.count_pes (x : LogicDie) (f : Fld) (n i : Nat) : (x.count f n i).pes = x.pes := rfl
@[simp] theorem LogicDie.count_mx (x : LogicDie) (f : Fld) (n i : Nat) : (x.count f n i).mx = x.mx := rfl
@[simp] theorem LogicDie.count_adcs (x : LogicDie) (f : Fld) (n i : Nat) : (x.count f n i).adcs = x.adcs := rfl
@[simp] theorem LogicDie.count_trigs (x : LogicDie) (f : Fld) (n i : Nat) : (x.count f n i).trigs = x.trigs := rfl
@[simp] theorem LogicDie.count_refAt (x : LogicDie) (f : Fld) (n i : Nat) : (x.count f n i).refAt = x.refAt := rfl
@[simp] theorem LogicDie.count_refWas (x : LogicDie) (f : Fld) (n i : Nat) : (x.count f n i).refWas = x.refWas := rfl
@[simp] theorem LogicDie.count_vct (x : LogicDie) (f : Fld) (n i : Nat) : (x.count f n i).vct = x.vct := rfl
@[simp] theorem LogicDie.count_pw (x : LogicDie) (f : Fld) (n i : Nat) : (x.count f n i).pw = x.pw := rfl
@[simp] theorem LogicDie.count_bist (x : LogicDie) (f : Fld) (n i : Nat) : (x.count f n i).bist = x.bist := rfl
@[simp] theorem LogicDie.count_fresh (x : LogicDie) (f : Fld) (n i : Nat) : (x.count f n i).fresh = x.fresh := rfl

@[simp] theorem LogicDie.setB_before (x : LogicDie) (f : Fld) (b : Nat) (v : Bool) (i : Nat) : (x.setB f b v i).before = x.before := rfl
@[simp] theorem LogicDie.setB_posts (x : LogicDie) (f : Fld) (b : Nat) (v : Bool) (i : Nat) : (x.setB f b v i).posts = x.posts := rfl
@[simp] theorem LogicDie.setB_rwf (x : LogicDie) (f : Fld) (b : Nat) (v : Bool) (i : Nat) : (x.setB f b v i).rwf = x.rwf := rfl
@[simp] theorem LogicDie.setB_mem (x : LogicDie) (f : Fld) (b : Nat) (v : Bool) (i : Nat) : (x.setB f b v i).mem = x.mem := rfl
@[simp] theorem LogicDie.setB_memC (x : LogicDie) (f : Fld) (b : Nat) (v : Bool) (i : Nat) : (x.setB f b v i).memC = x.memC := rfl
@[simp] theorem LogicDie.setB_memF (x : LogicDie) (f : Fld) (b : Nat) (v : Bool) (i : Nat) : (x.setB f b v i).memF = x.memF := rfl
@[simp] theorem LogicDie.setB_xview (x : LogicDie) (f : Fld) (b : Nat) (v : Bool) (i : Nat) : (x.setB f b v i).xview = x.xview := rfl
@[simp] theorem LogicDie.setB_hdr (x : LogicDie) (f : Fld) (b : Nat) (v : Bool) (i : Nat) : (x.setB f b v i).hdr = x.hdr := rfl
@[simp] theorem LogicDie.setB_core (x : LogicDie) (f : Fld) (b : Nat) (v : Bool) (i : Nat) : (x.setB f b v i).core = x.core := rfl
@[simp] theorem LogicDie.setB_pipe (x : LogicDie) (f : Fld) (b : Nat) (v : Bool) (i : Nat) : (x.setB f b v i).pipe = x.pipe := rfl
@[simp] theorem LogicDie.setB_comp (x : LogicDie) (f : Fld) (b : Nat) (v : Bool) (i : Nat) : (x.setB f b v i).comp = x.comp := rfl
@[simp] theorem LogicDie.setB_fold (x : LogicDie) (f : Fld) (b : Nat) (v : Bool) (i : Nat) : (x.setB f b v i).fold = x.fold := rfl
@[simp] theorem LogicDie.setB_fc (x : LogicDie) (f : Fld) (b : Nat) (v : Bool) (i : Nat) : (x.setB f b v i).fc = x.fc := rfl
@[simp] theorem LogicDie.setB_aon (x : LogicDie) (f : Fld) (b : Nat) (v : Bool) (i : Nat) : (x.setB f b v i).aon = x.aon := rfl
@[simp] theorem LogicDie.setB_boot (x : LogicDie) (f : Fld) (b : Nat) (v : Bool) (i : Nat) : (x.setB f b v i).boot = x.boot := rfl
@[simp] theorem LogicDie.setB_logRing (x : LogicDie) (f : Fld) (b : Nat) (v : Bool) (i : Nat) : (x.setB f b v i).logRing = x.logRing := rfl
@[simp] theorem LogicDie.setB_logInFlight (x : LogicDie) (f : Fld) (b : Nat) (v : Bool) (i : Nat) : (x.setB f b v i).logInFlight = x.logInFlight := rfl
@[simp] theorem LogicDie.setB_logDropSent (x : LogicDie) (f : Fld) (b : Nat) (v : Bool) (i : Nat) : (x.setB f b v i).logDropSent = x.logDropSent := rfl
@[simp] theorem LogicDie.setB_logDropSeen (x : LogicDie) (f : Fld) (b : Nat) (v : Bool) (i : Nat) : (x.setB f b v i).logDropSeen = x.logDropSeen := rfl
@[simp] theorem LogicDie.setB_stl (x : LogicDie) (f : Fld) (b : Nat) (v : Bool) (i : Nat) : (x.setB f b v i).stl = x.stl := rfl
@[simp] theorem LogicDie.setB_xl (x : LogicDie) (f : Fld) (b : Nat) (v : Bool) (i : Nat) : (x.setB f b v i).xl = x.xl := rfl
@[simp] theorem LogicDie.setB_inputs (x : LogicDie) (f : Fld) (b : Nat) (v : Bool) (i : Nat) : (x.setB f b v i).inputs = x.inputs := rfl
@[simp] theorem LogicDie.setB_sources (x : LogicDie) (f : Fld) (b : Nat) (v : Bool) (i : Nat) : (x.setB f b v i).sources = x.sources := rfl
@[simp] theorem LogicDie.setB_inSide (x : LogicDie) (f : Fld) (b : Nat) (v : Bool) (i : Nat) : (x.setB f b v i).inSide = x.inSide := rfl
@[simp] theorem LogicDie.setB_gtCaps (x : LogicDie) (f : Fld) (b : Nat) (v : Bool) (i : Nat) : (x.setB f b v i).gtCaps = x.gtCaps := rfl
@[simp] theorem LogicDie.setB_gtCapNum (x : LogicDie) (f : Fld) (b : Nat) (v : Bool) (i : Nat) : (x.setB f b v i).gtCapNum = x.gtCapNum := rfl
@[simp] theorem LogicDie.setB_gtLog (x : LogicDie) (f : Fld) (b : Nat) (v : Bool) (i : Nat) : (x.setB f b v i).gtLog = x.gtLog := rfl
@[simp] theorem LogicDie.setB_gtTicked (x : LogicDie) (f : Fld) (b : Nat) (v : Bool) (i : Nat) : (x.setB f b v i).gtTicked = x.gtTicked := rfl
@[simp] theorem LogicDie.setB_cks (x : LogicDie) (f : Fld) (b : Nat) (v : Bool) (i : Nat) : (x.setB f b v i).cks = x.cks := rfl
@[simp] theorem LogicDie.setB_outs (x : LogicDie) (f : Fld) (b : Nat) (v : Bool) (i : Nat) : (x.setB f b v i).outs = x.outs := rfl
@[simp] theorem LogicDie.setB_sigBusy (x : LogicDie) (f : Fld) (b : Nat) (v : Bool) (i : Nat) : (x.setB f b v i).sigBusy = x.sigBusy := rfl
@[simp] theorem LogicDie.setB_buf (x : LogicDie) (f : Fld) (b : Nat) (v : Bool) (i : Nat) : (x.setB f b v i).buf = x.buf := rfl
@[simp] theorem LogicDie.setB_crookPend (x : LogicDie) (f : Fld) (b : Nat) (v : Bool) (i : Nat) : (x.setB f b v i).crookPend = x.crookPend := rfl
@[simp] theorem LogicDie.setB_crookRead (x : LogicDie) (f : Fld) (b : Nat) (v : Bool) (i : Nat) : (x.setB f b v i).crookRead = x.crookRead := rfl
@[simp] theorem LogicDie.setB_crookUp (x : LogicDie) (f : Fld) (b : Nat) (v : Bool) (i : Nat) : (x.setB f b v i).crookUp = x.crookUp := rfl
@[simp] theorem LogicDie.setB_crookSeen (x : LogicDie) (f : Fld) (b : Nat) (v : Bool) (i : Nat) : (x.setB f b v i).crookSeen = x.crookSeen := rfl
@[simp] theorem LogicDie.setB_lamps (x : LogicDie) (f : Fld) (b : Nat) (v : Bool) (i : Nat) : (x.setB f b v i).lamps = x.lamps := rfl
@[simp] theorem LogicDie.setB_lampSide (x : LogicDie) (f : Fld) (b : Nat) (v : Bool) (i : Nat) : (x.setB f b v i).lampSide = x.lampSide := rfl
@[simp] theorem LogicDie.setB_pes (x : LogicDie) (f : Fld) (b : Nat) (v : Bool) (i : Nat) : (x.setB f b v i).pes = x.pes := rfl
@[simp] theorem LogicDie.setB_mx (x : LogicDie) (f : Fld) (b : Nat) (v : Bool) (i : Nat) : (x.setB f b v i).mx = x.mx := rfl
@[simp] theorem LogicDie.setB_adcs (x : LogicDie) (f : Fld) (b : Nat) (v : Bool) (i : Nat) : (x.setB f b v i).adcs = x.adcs := rfl
@[simp] theorem LogicDie.setB_trigs (x : LogicDie) (f : Fld) (b : Nat) (v : Bool) (i : Nat) : (x.setB f b v i).trigs = x.trigs := rfl
@[simp] theorem LogicDie.setB_refAt (x : LogicDie) (f : Fld) (b : Nat) (v : Bool) (i : Nat) : (x.setB f b v i).refAt = x.refAt := rfl
@[simp] theorem LogicDie.setB_refWas (x : LogicDie) (f : Fld) (b : Nat) (v : Bool) (i : Nat) : (x.setB f b v i).refWas = x.refWas := rfl
@[simp] theorem LogicDie.setB_vct (x : LogicDie) (f : Fld) (b : Nat) (v : Bool) (i : Nat) : (x.setB f b v i).vct = x.vct := rfl
@[simp] theorem LogicDie.setB_pw (x : LogicDie) (f : Fld) (b : Nat) (v : Bool) (i : Nat) : (x.setB f b v i).pw = x.pw := rfl
@[simp] theorem LogicDie.setB_bist (x : LogicDie) (f : Fld) (b : Nat) (v : Bool) (i : Nat) : (x.setB f b v i).bist = x.bist := rfl
@[simp] theorem LogicDie.setB_fresh (x : LogicDie) (f : Fld) (b : Nat) (v : Bool) (i : Nat) : (x.setB f b v i).fresh = x.fresh := rfl

@[simp] theorem HostDie.p_before (x : HostDie) (f : Fld) (n i : Nat) : (x.p f n i).before = x.before := rfl
@[simp] theorem HostDie.p_mem (x : HostDie) (f : Fld) (n i : Nat) : (x.p f n i).mem = x.mem := rfl
@[simp] theorem HostDie.p_linkA (x : HostDie) (f : Fld) (n i : Nat) : (x.p f n i).linkA = x.linkA := rfl
@[simp] theorem HostDie.p_linkB (x : HostDie) (f : Fld) (n i : Nat) : (x.p f n i).linkB = x.linkB := rfl
@[simp] theorem HostDie.p_muted (x : HostDie) (f : Fld) (n i : Nat) : (x.p f n i).muted = x.muted := rfl
@[simp] theorem HostDie.p_now (x : HostDie) (f : Fld) (n i : Nat) : (x.p f n i).now = x.now := rfl
@[simp] theorem HostDie.p_fc (x : HostDie) (f : Fld) (n i : Nat) : (x.p f n i).fc = x.fc := rfl
@[simp] theorem HostDie.p_mlog (x : HostDie) (f : Fld) (n i : Nat) : (x.p f n i).mlog = x.mlog := rfl
@[simp] theorem HostDie.p_unstreamed (x : HostDie) (f : Fld) (n i : Nat) : (x.p f n i).unstreamed = x.unstreamed := rfl
@[simp] theorem HostDie.p_logSeq (x : HostDie) (f : Fld) (n i : Nat) : (x.p f n i).logSeq = x.logSeq := rfl
@[simp] theorem HostDie.p_msix (x : HostDie) (f : Fld) (n i : Nat) : (x.p f n i).msix = x.msix := rfl
@[simp] theorem HostDie.p_snap (x : HostDie) (f : Fld) (n i : Nat) : (x.p f n i).snap = x.snap := rfl
@[simp] theorem HostDie.p_down (x : HostDie) (f : Fld) (n i : Nat) : (x.p f n i).down = x.down := rfl
@[simp] theorem HostDie.p_req (x : HostDie) (f : Fld) (n i : Nat) : (x.p f n i).req = x.req := rfl
@[simp] theorem HostDie.p_back (x : HostDie) (f : Fld) (n i : Nat) : (x.p f n i).back = x.back := rfl
@[simp] theorem HostDie.p_pw (x : HostDie) (f : Fld) (n i : Nat) : (x.p f n i).pw = x.pw := rfl
@[simp] theorem HostDie.p_sec (x : HostDie) (f : Fld) (n i : Nat) : (x.p f n i).sec = x.sec := rfl
@[simp] theorem HostDie.p_bistOut (x : HostDie) (f : Fld) (n i : Nat) : (x.p f n i).bistOut = x.bistOut := rfl
@[simp] theorem HostDie.p_bistWait (x : HostDie) (f : Fld) (n i : Nat) : (x.p f n i).bistWait = x.bistWait := rfl
@[simp] theorem HostDie.p_crcErr (x : HostDie) (f : Fld) (n i : Nat) : (x.p f n i).crcErr = x.crcErr := rfl
@[simp] theorem HostDie.p_answer (x : HostDie) (f : Fld) (n i : Nat) : (x.p f n i).answer = x.answer := rfl
@[simp] theorem HostDie.p_posted (x : HostDie) (f : Fld) (n i : Nat) : (x.p f n i).posted = x.posted := rfl
@[simp] theorem HostDie.p_running (x : HostDie) (f : Fld) (n i : Nat) : (x.p f n i).running = x.running := rfl
@[simp] theorem HostDie.p_cores (x : HostDie) (f : Fld) (n i : Nat) : (x.p f n i).cores = x.cores := rfl
@[simp] theorem HostDie.p_folds (x : HostDie) (f : Fld) (n i : Nat) : (x.p f n i).folds = x.folds := rfl
@[simp] theorem HostDie.p_lastReason3 (x : HostDie) (f : Fld) (n i : Nat) : (x.p f n i).lastReason3 = x.lastReason3 := rfl
@[simp] theorem HostDie.p_xhCut (x : HostDie) (f : Fld) (n i : Nat) : (x.p f n i).xhCut = x.xhCut := rfl

@[simp] theorem HostDie.wr_before (x : HostDie) (r : Reg) (i : Nat) (v : Word) : (x.wr r i v).before = x.before := rfl
@[simp] theorem HostDie.wr_mem (x : HostDie) (r : Reg) (i : Nat) (v : Word) : (x.wr r i v).mem = x.mem := rfl
@[simp] theorem HostDie.wr_linkA (x : HostDie) (r : Reg) (i : Nat) (v : Word) : (x.wr r i v).linkA = x.linkA := rfl
@[simp] theorem HostDie.wr_linkB (x : HostDie) (r : Reg) (i : Nat) (v : Word) : (x.wr r i v).linkB = x.linkB := rfl
@[simp] theorem HostDie.wr_muted (x : HostDie) (r : Reg) (i : Nat) (v : Word) : (x.wr r i v).muted = x.muted := rfl
@[simp] theorem HostDie.wr_now (x : HostDie) (r : Reg) (i : Nat) (v : Word) : (x.wr r i v).now = x.now := rfl
@[simp] theorem HostDie.wr_fc (x : HostDie) (r : Reg) (i : Nat) (v : Word) : (x.wr r i v).fc = x.fc := rfl
@[simp] theorem HostDie.wr_mlog (x : HostDie) (r : Reg) (i : Nat) (v : Word) : (x.wr r i v).mlog = x.mlog := rfl
@[simp] theorem HostDie.wr_unstreamed (x : HostDie) (r : Reg) (i : Nat) (v : Word) : (x.wr r i v).unstreamed = x.unstreamed := rfl
@[simp] theorem HostDie.wr_logSeq (x : HostDie) (r : Reg) (i : Nat) (v : Word) : (x.wr r i v).logSeq = x.logSeq := rfl
@[simp] theorem HostDie.wr_msix (x : HostDie) (r : Reg) (i : Nat) (v : Word) : (x.wr r i v).msix = x.msix := rfl
@[simp] theorem HostDie.wr_snap (x : HostDie) (r : Reg) (i : Nat) (v : Word) : (x.wr r i v).snap = x.snap := rfl
@[simp] theorem HostDie.wr_down (x : HostDie) (r : Reg) (i : Nat) (v : Word) : (x.wr r i v).down = x.down := rfl
@[simp] theorem HostDie.wr_req (x : HostDie) (r : Reg) (i : Nat) (v : Word) : (x.wr r i v).req = x.req := rfl
@[simp] theorem HostDie.wr_back (x : HostDie) (r : Reg) (i : Nat) (v : Word) : (x.wr r i v).back = x.back := rfl
@[simp] theorem HostDie.wr_pw (x : HostDie) (r : Reg) (i : Nat) (v : Word) : (x.wr r i v).pw = x.pw := rfl
@[simp] theorem HostDie.wr_sec (x : HostDie) (r : Reg) (i : Nat) (v : Word) : (x.wr r i v).sec = x.sec := rfl
@[simp] theorem HostDie.wr_bistOut (x : HostDie) (r : Reg) (i : Nat) (v : Word) : (x.wr r i v).bistOut = x.bistOut := rfl
@[simp] theorem HostDie.wr_bistWait (x : HostDie) (r : Reg) (i : Nat) (v : Word) : (x.wr r i v).bistWait = x.bistWait := rfl
@[simp] theorem HostDie.wr_crcErr (x : HostDie) (r : Reg) (i : Nat) (v : Word) : (x.wr r i v).crcErr = x.crcErr := rfl
@[simp] theorem HostDie.wr_answer (x : HostDie) (r : Reg) (i : Nat) (v : Word) : (x.wr r i v).answer = x.answer := rfl
@[simp] theorem HostDie.wr_posted (x : HostDie) (r : Reg) (i : Nat) (v : Word) : (x.wr r i v).posted = x.posted := rfl
@[simp] theorem HostDie.wr_running (x : HostDie) (r : Reg) (i : Nat) (v : Word) : (x.wr r i v).running = x.running := rfl
@[simp] theorem HostDie.wr_cores (x : HostDie) (r : Reg) (i : Nat) (v : Word) : (x.wr r i v).cores = x.cores := rfl
@[simp] theorem HostDie.wr_folds (x : HostDie) (r : Reg) (i : Nat) (v : Word) : (x.wr r i v).folds = x.folds := rfl
@[simp] theorem HostDie.wr_lastReason3 (x : HostDie) (r : Reg) (i : Nat) (v : Word) : (x.wr r i v).lastReason3 = x.lastReason3 := rfl
@[simp] theorem HostDie.wr_xhCut (x : HostDie) (r : Reg) (i : Nat) (v : Word) : (x.wr r i v).xhCut = x.xhCut := rfl

@[simp] theorem HostDie.count_before (x : HostDie) (f : Fld) (n i : Nat) : (x.count f n i).before = x.before := rfl
@[simp] theorem HostDie.count_mem (x : HostDie) (f : Fld) (n i : Nat) : (x.count f n i).mem = x.mem := rfl
@[simp] theorem HostDie.count_linkA (x : HostDie) (f : Fld) (n i : Nat) : (x.count f n i).linkA = x.linkA := rfl
@[simp] theorem HostDie.count_linkB (x : HostDie) (f : Fld) (n i : Nat) : (x.count f n i).linkB = x.linkB := rfl
@[simp] theorem HostDie.count_muted (x : HostDie) (f : Fld) (n i : Nat) : (x.count f n i).muted = x.muted := rfl
@[simp] theorem HostDie.count_now (x : HostDie) (f : Fld) (n i : Nat) : (x.count f n i).now = x.now := rfl
@[simp] theorem HostDie.count_fc (x : HostDie) (f : Fld) (n i : Nat) : (x.count f n i).fc = x.fc := rfl
@[simp] theorem HostDie.count_mlog (x : HostDie) (f : Fld) (n i : Nat) : (x.count f n i).mlog = x.mlog := rfl
@[simp] theorem HostDie.count_unstreamed (x : HostDie) (f : Fld) (n i : Nat) : (x.count f n i).unstreamed = x.unstreamed := rfl
@[simp] theorem HostDie.count_logSeq (x : HostDie) (f : Fld) (n i : Nat) : (x.count f n i).logSeq = x.logSeq := rfl
@[simp] theorem HostDie.count_msix (x : HostDie) (f : Fld) (n i : Nat) : (x.count f n i).msix = x.msix := rfl
@[simp] theorem HostDie.count_snap (x : HostDie) (f : Fld) (n i : Nat) : (x.count f n i).snap = x.snap := rfl
@[simp] theorem HostDie.count_down (x : HostDie) (f : Fld) (n i : Nat) : (x.count f n i).down = x.down := rfl
@[simp] theorem HostDie.count_req (x : HostDie) (f : Fld) (n i : Nat) : (x.count f n i).req = x.req := rfl
@[simp] theorem HostDie.count_back (x : HostDie) (f : Fld) (n i : Nat) : (x.count f n i).back = x.back := rfl
@[simp] theorem HostDie.count_pw (x : HostDie) (f : Fld) (n i : Nat) : (x.count f n i).pw = x.pw := rfl
@[simp] theorem HostDie.count_sec (x : HostDie) (f : Fld) (n i : Nat) : (x.count f n i).sec = x.sec := rfl
@[simp] theorem HostDie.count_bistOut (x : HostDie) (f : Fld) (n i : Nat) : (x.count f n i).bistOut = x.bistOut := rfl
@[simp] theorem HostDie.count_bistWait (x : HostDie) (f : Fld) (n i : Nat) : (x.count f n i).bistWait = x.bistWait := rfl
@[simp] theorem HostDie.count_crcErr (x : HostDie) (f : Fld) (n i : Nat) : (x.count f n i).crcErr = x.crcErr := rfl
@[simp] theorem HostDie.count_answer (x : HostDie) (f : Fld) (n i : Nat) : (x.count f n i).answer = x.answer := rfl
@[simp] theorem HostDie.count_posted (x : HostDie) (f : Fld) (n i : Nat) : (x.count f n i).posted = x.posted := rfl
@[simp] theorem HostDie.count_running (x : HostDie) (f : Fld) (n i : Nat) : (x.count f n i).running = x.running := rfl
@[simp] theorem HostDie.count_cores (x : HostDie) (f : Fld) (n i : Nat) : (x.count f n i).cores = x.cores := rfl
@[simp] theorem HostDie.count_folds (x : HostDie) (f : Fld) (n i : Nat) : (x.count f n i).folds = x.folds := rfl
@[simp] theorem HostDie.count_lastReason3 (x : HostDie) (f : Fld) (n i : Nat) : (x.count f n i).lastReason3 = x.lastReason3 := rfl
@[simp] theorem HostDie.count_xhCut (x : HostDie) (f : Fld) (n i : Nat) : (x.count f n i).xhCut = x.xhCut := rfl

@[simp] theorem HostDie.setB_before (x : HostDie) (f : Fld) (b : Nat) (v : Bool) (i : Nat) : (x.setB f b v i).before = x.before := rfl
@[simp] theorem HostDie.setB_mem (x : HostDie) (f : Fld) (b : Nat) (v : Bool) (i : Nat) : (x.setB f b v i).mem = x.mem := rfl
@[simp] theorem HostDie.setB_linkA (x : HostDie) (f : Fld) (b : Nat) (v : Bool) (i : Nat) : (x.setB f b v i).linkA = x.linkA := rfl
@[simp] theorem HostDie.setB_linkB (x : HostDie) (f : Fld) (b : Nat) (v : Bool) (i : Nat) : (x.setB f b v i).linkB = x.linkB := rfl
@[simp] theorem HostDie.setB_muted (x : HostDie) (f : Fld) (b : Nat) (v : Bool) (i : Nat) : (x.setB f b v i).muted = x.muted := rfl
@[simp] theorem HostDie.setB_now (x : HostDie) (f : Fld) (b : Nat) (v : Bool) (i : Nat) : (x.setB f b v i).now = x.now := rfl
@[simp] theorem HostDie.setB_fc (x : HostDie) (f : Fld) (b : Nat) (v : Bool) (i : Nat) : (x.setB f b v i).fc = x.fc := rfl
@[simp] theorem HostDie.setB_mlog (x : HostDie) (f : Fld) (b : Nat) (v : Bool) (i : Nat) : (x.setB f b v i).mlog = x.mlog := rfl
@[simp] theorem HostDie.setB_unstreamed (x : HostDie) (f : Fld) (b : Nat) (v : Bool) (i : Nat) : (x.setB f b v i).unstreamed = x.unstreamed := rfl
@[simp] theorem HostDie.setB_logSeq (x : HostDie) (f : Fld) (b : Nat) (v : Bool) (i : Nat) : (x.setB f b v i).logSeq = x.logSeq := rfl
@[simp] theorem HostDie.setB_msix (x : HostDie) (f : Fld) (b : Nat) (v : Bool) (i : Nat) : (x.setB f b v i).msix = x.msix := rfl
@[simp] theorem HostDie.setB_snap (x : HostDie) (f : Fld) (b : Nat) (v : Bool) (i : Nat) : (x.setB f b v i).snap = x.snap := rfl
@[simp] theorem HostDie.setB_down (x : HostDie) (f : Fld) (b : Nat) (v : Bool) (i : Nat) : (x.setB f b v i).down = x.down := rfl
@[simp] theorem HostDie.setB_req (x : HostDie) (f : Fld) (b : Nat) (v : Bool) (i : Nat) : (x.setB f b v i).req = x.req := rfl
@[simp] theorem HostDie.setB_back (x : HostDie) (f : Fld) (b : Nat) (v : Bool) (i : Nat) : (x.setB f b v i).back = x.back := rfl
@[simp] theorem HostDie.setB_pw (x : HostDie) (f : Fld) (b : Nat) (v : Bool) (i : Nat) : (x.setB f b v i).pw = x.pw := rfl
@[simp] theorem HostDie.setB_sec (x : HostDie) (f : Fld) (b : Nat) (v : Bool) (i : Nat) : (x.setB f b v i).sec = x.sec := rfl
@[simp] theorem HostDie.setB_bistOut (x : HostDie) (f : Fld) (b : Nat) (v : Bool) (i : Nat) : (x.setB f b v i).bistOut = x.bistOut := rfl
@[simp] theorem HostDie.setB_bistWait (x : HostDie) (f : Fld) (b : Nat) (v : Bool) (i : Nat) : (x.setB f b v i).bistWait = x.bistWait := rfl
@[simp] theorem HostDie.setB_crcErr (x : HostDie) (f : Fld) (b : Nat) (v : Bool) (i : Nat) : (x.setB f b v i).crcErr = x.crcErr := rfl
@[simp] theorem HostDie.setB_answer (x : HostDie) (f : Fld) (b : Nat) (v : Bool) (i : Nat) : (x.setB f b v i).answer = x.answer := rfl
@[simp] theorem HostDie.setB_posted (x : HostDie) (f : Fld) (b : Nat) (v : Bool) (i : Nat) : (x.setB f b v i).posted = x.posted := rfl
@[simp] theorem HostDie.setB_running (x : HostDie) (f : Fld) (b : Nat) (v : Bool) (i : Nat) : (x.setB f b v i).running = x.running := rfl
@[simp] theorem HostDie.setB_cores (x : HostDie) (f : Fld) (b : Nat) (v : Bool) (i : Nat) : (x.setB f b v i).cores = x.cores := rfl
@[simp] theorem HostDie.setB_folds (x : HostDie) (f : Fld) (b : Nat) (v : Bool) (i : Nat) : (x.setB f b v i).folds = x.folds := rfl
@[simp] theorem HostDie.setB_lastReason3 (x : HostDie) (f : Fld) (b : Nat) (v : Bool) (i : Nat) : (x.setB f b v i).lastReason3 = x.lastReason3 := rfl
@[simp] theorem HostDie.setB_xhCut (x : HostDie) (f : Fld) (b : Nat) (v : Bool) (i : Nat) : (x.setB f b v i).xhCut = x.xhCut := rfl

@[simp] theorem LogicDie.poke_regs (x : LogicDie) (a n v : Nat) : (x.poke a n v).regs = x.regs := rfl
@[simp] theorem LogicDie.poke_before (x : LogicDie) (a n v : Nat) : (x.poke a n v).before = x.before := rfl
@[simp] theorem LogicDie.poke_posts (x : LogicDie) (a n v : Nat) : (x.poke a n v).posts = x.posts := rfl
@[simp] theorem LogicDie.poke_rwf (x : LogicDie) (a n v : Nat) : (x.poke a n v).rwf = x.rwf := rfl
@[simp] theorem LogicDie.poke_memC (x : LogicDie) (a n v : Nat) : (x.poke a n v).memC = x.memC := rfl
@[simp] theorem LogicDie.poke_memF (x : LogicDie) (a n v : Nat) : (x.poke a n v).memF = x.memF := rfl
@[simp] theorem LogicDie.poke_xview (x : LogicDie) (a n v : Nat) : (x.poke a n v).xview = x.xview := rfl
@[simp] theorem LogicDie.poke_hdr (x : LogicDie) (a n v : Nat) : (x.poke a n v).hdr = x.hdr := rfl
@[simp] theorem LogicDie.poke_core (x : LogicDie) (a n v : Nat) : (x.poke a n v).core = x.core := rfl
@[simp] theorem LogicDie.poke_pipe (x : LogicDie) (a n v : Nat) : (x.poke a n v).pipe = x.pipe := rfl
@[simp] theorem LogicDie.poke_comp (x : LogicDie) (a n v : Nat) : (x.poke a n v).comp = x.comp := rfl
@[simp] theorem LogicDie.poke_fold (x : LogicDie) (a n v : Nat) : (x.poke a n v).fold = x.fold := rfl
@[simp] theorem LogicDie.poke_fc (x : LogicDie) (a n v : Nat) : (x.poke a n v).fc = x.fc := rfl
@[simp] theorem LogicDie.poke_aon (x : LogicDie) (a n v : Nat) : (x.poke a n v).aon = x.aon := rfl
@[simp] theorem LogicDie.poke_boot (x : LogicDie) (a n v : Nat) : (x.poke a n v).boot = x.boot := rfl
@[simp] theorem LogicDie.poke_logRing (x : LogicDie) (a n v : Nat) : (x.poke a n v).logRing = x.logRing := rfl
@[simp] theorem LogicDie.poke_logInFlight (x : LogicDie) (a n v : Nat) : (x.poke a n v).logInFlight = x.logInFlight := rfl
@[simp] theorem LogicDie.poke_logDropSent (x : LogicDie) (a n v : Nat) : (x.poke a n v).logDropSent = x.logDropSent := rfl
@[simp] theorem LogicDie.poke_logDropSeen (x : LogicDie) (a n v : Nat) : (x.poke a n v).logDropSeen = x.logDropSeen := rfl
@[simp] theorem LogicDie.poke_stl (x : LogicDie) (a n v : Nat) : (x.poke a n v).stl = x.stl := rfl
@[simp] theorem LogicDie.poke_xl (x : LogicDie) (a n v : Nat) : (x.poke a n v).xl = x.xl := rfl
@[simp] theorem LogicDie.poke_inputs (x : LogicDie) (a n v : Nat) : (x.poke a n v).inputs = x.inputs := rfl
@[simp] theorem LogicDie.poke_sources (x : LogicDie) (a n v : Nat) : (x.poke a n v).sources = x.sources := rfl
@[simp] theorem LogicDie.poke_inSide (x : LogicDie) (a n v : Nat) : (x.poke a n v).inSide = x.inSide := rfl
@[simp] theorem LogicDie.poke_gtCaps (x : LogicDie) (a n v : Nat) : (x.poke a n v).gtCaps = x.gtCaps := rfl
@[simp] theorem LogicDie.poke_gtCapNum (x : LogicDie) (a n v : Nat) : (x.poke a n v).gtCapNum = x.gtCapNum := rfl
@[simp] theorem LogicDie.poke_gtLog (x : LogicDie) (a n v : Nat) : (x.poke a n v).gtLog = x.gtLog := rfl
@[simp] theorem LogicDie.poke_gtTicked (x : LogicDie) (a n v : Nat) : (x.poke a n v).gtTicked = x.gtTicked := rfl
@[simp] theorem LogicDie.poke_cks (x : LogicDie) (a n v : Nat) : (x.poke a n v).cks = x.cks := rfl
@[simp] theorem LogicDie.poke_outs (x : LogicDie) (a n v : Nat) : (x.poke a n v).outs = x.outs := rfl
@[simp] theorem LogicDie.poke_sigBusy (x : LogicDie) (a n v : Nat) : (x.poke a n v).sigBusy = x.sigBusy := rfl
@[simp] theorem LogicDie.poke_buf (x : LogicDie) (a n v : Nat) : (x.poke a n v).buf = x.buf := rfl
@[simp] theorem LogicDie.poke_crookPend (x : LogicDie) (a n v : Nat) : (x.poke a n v).crookPend = x.crookPend := rfl
@[simp] theorem LogicDie.poke_crookRead (x : LogicDie) (a n v : Nat) : (x.poke a n v).crookRead = x.crookRead := rfl
@[simp] theorem LogicDie.poke_crookUp (x : LogicDie) (a n v : Nat) : (x.poke a n v).crookUp = x.crookUp := rfl
@[simp] theorem LogicDie.poke_crookSeen (x : LogicDie) (a n v : Nat) : (x.poke a n v).crookSeen = x.crookSeen := rfl
@[simp] theorem LogicDie.poke_lamps (x : LogicDie) (a n v : Nat) : (x.poke a n v).lamps = x.lamps := rfl
@[simp] theorem LogicDie.poke_lampSide (x : LogicDie) (a n v : Nat) : (x.poke a n v).lampSide = x.lampSide := rfl
@[simp] theorem LogicDie.poke_pes (x : LogicDie) (a n v : Nat) : (x.poke a n v).pes = x.pes := rfl
@[simp] theorem LogicDie.poke_mx (x : LogicDie) (a n v : Nat) : (x.poke a n v).mx = x.mx := rfl
@[simp] theorem LogicDie.poke_adcs (x : LogicDie) (a n v : Nat) : (x.poke a n v).adcs = x.adcs := rfl
@[simp] theorem LogicDie.poke_trigs (x : LogicDie) (a n v : Nat) : (x.poke a n v).trigs = x.trigs := rfl
@[simp] theorem LogicDie.poke_refAt (x : LogicDie) (a n v : Nat) : (x.poke a n v).refAt = x.refAt := rfl
@[simp] theorem LogicDie.poke_refWas (x : LogicDie) (a n v : Nat) : (x.poke a n v).refWas = x.refWas := rfl
@[simp] theorem LogicDie.poke_vct (x : LogicDie) (a n v : Nat) : (x.poke a n v).vct = x.vct := rfl
@[simp] theorem LogicDie.poke_pw (x : LogicDie) (a n v : Nat) : (x.poke a n v).pw = x.pw := rfl
@[simp] theorem LogicDie.poke_bist (x : LogicDie) (a n v : Nat) : (x.poke a n v).bist = x.bist := rfl
@[simp] theorem LogicDie.poke_fresh (x : LogicDie) (a n v : Nat) : (x.poke a n v).fresh = x.fresh := rfl

/-! ### Reaching an instant -/

theorem foldl_keeps {α β γ : Type} (g : α → γ) (f : α → β → α) (h : ∀ x n, g (f x n) = g x) (l : List β) :
    ∀ x, g (l.foldl f x) = g x := by
  induction l with
  | nil => intro x; rfl
  | cons b l ih => intro x; exact (ih (f x b)).trans (h x b)

/-- A die without the fields that reaching an instant may change: two dies that agree on it agree on every other field. -/
def LogicDie.still (x : LogicDie) : LogicDie :=
  { x with
    regs := [], before := [], posts := [], rwf := [], core := .reset, fold := .reset, boot := .reset, stl := .reset
    xl := ⟨0, [], none, none, []⟩, outs := [], comp := .reset, pw := .reset }


theorem LogicDie.still_setNow (x : LogicDie) (t : Nat) : (x.setNow t).still = x.still := rfl

theorem LogicDie.still_openSwitch (x : LogicDie) (n : Nat) : (x.openSwitch n).still = x.still := rfl

theorem LogicDie.still_sourcesOff (x : LogicDie) : x.sourcesOff.still = x.still := by
  unfold LogicDie.sourcesOff
  generalize List.range 8 = l
  exact (foldl_keeps LogicDie.still (fun x j => (x.p F.TP_STAT_CMD 0 j).p F.TP_DRV_CMD 0 j) (fun _ _ => rfl) l _).trans
    (show (x.p F.TP_CTRL_ACTIVE 0).still = x.still from rfl)

theorem LogicDie.still_pathStop (x : LogicDie) : x.pathStop.still = x.still := by
  have key : ∀ z : LogicDie, (((z.wr .SO_CMD 0 0#64).p F.SO_CROOK_OUT_CMD 0).p F.SO_CROOKPD_OUT 0).still = z.still := fun _ => rfl
  unfold LogicDie.pathStop
  dsimp only
  rw [foldl_keeps LogicDie.still (fun x n => LogicDie.wr x .LMP_STG n 0#64) (fun _ _ => rfl), LogicDie.still_sourcesOff, key]
  exact foldl_keeps LogicDie.still (fun x n => x.openSwitch n) LogicDie.still_openSwitch _ x

theorem LogicDie.still_plRequest (x : LogicDie) (n : Nat) : (x.plRequest n).still = x.still := by
  unfold LogicDie.plRequest
  dsimp only
  repeat' split
  all_goals rfl

theorem LogicDie.still_applyRwf (x : LogicDie) : x.applyRwf.still = x.still := by
  unfold LogicDie.applyRwf
  split
  · exact LogicDie.still_plRequest _ _
  · rfl

theorem LogicDie.still_foldStops (x : LogicDie) : x.foldStops.still = x.still := by
  unfold LogicDie.foldStops
  exact LogicDie.still_applyRwf _

theorem LogicDie.still_frstHolds (x : LogicDie) : x.frstHolds.still = x.still := by
  have key : ∀ z : LogicDie, ({ z with
      boot := { z.boot with phase := .off }
      pw := { z.pw with frstOn := true }
      comp := { z.comp with on := false } } : LogicDie).still = z.still := fun _ => rfl
  exact (key _).trans (LogicDie.still_foldStops _)

theorem LogicDie.still_frstAct (x : LogicDie) : x.frstAct.still = x.still :=
  (LogicDie.still_frstHolds _).trans x.still_pathStop

theorem LogicDie.still_at (x : LogicDie) (t : Nat) : (x.at t).still = x.still := by
  unfold LogicDie.at
  split
  · rfl
  · split
    · rw [still_setNow, still_frstAct, still_setNow]
    · split
      · rw [still_setNow, still_foldStops, still_setNow]
      · rfl

@[simp] theorem LogicDie.at_mem (x : LogicDie) (t : Nat) : (x.at t).mem = x.mem :=
  (congrArg LogicDie.mem (x.still_at t) :)
@[simp] theorem LogicDie.at_memC (x : LogicDie) (t : Nat) : (x.at t).memC = x.memC :=
  (congrArg LogicDie.memC (x.still_at t) :)
@[simp] theorem LogicDie.at_memF (x : LogicDie) (t : Nat) : (x.at t).memF = x.memF :=
  (congrArg LogicDie.memF (x.still_at t) :)
@[simp] theorem LogicDie.at_xview (x : LogicDie) (t : Nat) : (x.at t).xview = x.xview :=
  (congrArg LogicDie.xview (x.still_at t) :)
@[simp] theorem LogicDie.at_hdr (x : LogicDie) (t : Nat) : (x.at t).hdr = x.hdr :=
  (congrArg LogicDie.hdr (x.still_at t) :)
@[simp] theorem LogicDie.at_pipe (x : LogicDie) (t : Nat) : (x.at t).pipe = x.pipe :=
  (congrArg LogicDie.pipe (x.still_at t) :)
@[simp] theorem LogicDie.at_fc (x : LogicDie) (t : Nat) : (x.at t).fc = x.fc :=
  (congrArg LogicDie.fc (x.still_at t) :)
@[simp] theorem LogicDie.at_aon (x : LogicDie) (t : Nat) : (x.at t).aon = x.aon :=
  (congrArg LogicDie.aon (x.still_at t) :)
@[simp] theorem LogicDie.at_logRing (x : LogicDie) (t : Nat) : (x.at t).logRing = x.logRing :=
  (congrArg LogicDie.logRing (x.still_at t) :)
@[simp] theorem LogicDie.at_logInFlight (x : LogicDie) (t : Nat) : (x.at t).logInFlight = x.logInFlight :=
  (congrArg LogicDie.logInFlight (x.still_at t) :)
@[simp] theorem LogicDie.at_logDropSent (x : LogicDie) (t : Nat) : (x.at t).logDropSent = x.logDropSent :=
  (congrArg LogicDie.logDropSent (x.still_at t) :)
@[simp] theorem LogicDie.at_logDropSeen (x : LogicDie) (t : Nat) : (x.at t).logDropSeen = x.logDropSeen :=
  (congrArg LogicDie.logDropSeen (x.still_at t) :)
@[simp] theorem LogicDie.at_inputs (x : LogicDie) (t : Nat) : (x.at t).inputs = x.inputs :=
  (congrArg LogicDie.inputs (x.still_at t) :)
@[simp] theorem LogicDie.at_sources (x : LogicDie) (t : Nat) : (x.at t).sources = x.sources :=
  (congrArg LogicDie.sources (x.still_at t) :)
@[simp] theorem LogicDie.at_inSide (x : LogicDie) (t : Nat) : (x.at t).inSide = x.inSide :=
  (congrArg LogicDie.inSide (x.still_at t) :)
@[simp] theorem LogicDie.at_gtCaps (x : LogicDie) (t : Nat) : (x.at t).gtCaps = x.gtCaps :=
  (congrArg LogicDie.gtCaps (x.still_at t) :)
@[simp] theorem LogicDie.at_gtCapNum (x : LogicDie) (t : Nat) : (x.at t).gtCapNum = x.gtCapNum :=
  (congrArg LogicDie.gtCapNum (x.still_at t) :)
@[simp] theorem LogicDie.at_gtLog (x : LogicDie) (t : Nat) : (x.at t).gtLog = x.gtLog :=
  (congrArg LogicDie.gtLog (x.still_at t) :)
@[simp] theorem LogicDie.at_gtTicked (x : LogicDie) (t : Nat) : (x.at t).gtTicked = x.gtTicked :=
  (congrArg LogicDie.gtTicked (x.still_at t) :)
@[simp] theorem LogicDie.at_cks (x : LogicDie) (t : Nat) : (x.at t).cks = x.cks :=
  (congrArg LogicDie.cks (x.still_at t) :)
@[simp] theorem LogicDie.at_sigBusy (x : LogicDie) (t : Nat) : (x.at t).sigBusy = x.sigBusy :=
  (congrArg LogicDie.sigBusy (x.still_at t) :)
@[simp] theorem LogicDie.at_buf (x : LogicDie) (t : Nat) : (x.at t).buf = x.buf :=
  (congrArg LogicDie.buf (x.still_at t) :)
@[simp] theorem LogicDie.at_crookPend (x : LogicDie) (t : Nat) : (x.at t).crookPend = x.crookPend :=
  (congrArg LogicDie.crookPend (x.still_at t) :)
@[simp] theorem LogicDie.at_crookRead (x : LogicDie) (t : Nat) : (x.at t).crookRead = x.crookRead :=
  (congrArg LogicDie.crookRead (x.still_at t) :)
@[simp] theorem LogicDie.at_crookUp (x : LogicDie) (t : Nat) : (x.at t).crookUp = x.crookUp :=
  (congrArg LogicDie.crookUp (x.still_at t) :)
@[simp] theorem LogicDie.at_crookSeen (x : LogicDie) (t : Nat) : (x.at t).crookSeen = x.crookSeen :=
  (congrArg LogicDie.crookSeen (x.still_at t) :)
@[simp] theorem LogicDie.at_lamps (x : LogicDie) (t : Nat) : (x.at t).lamps = x.lamps :=
  (congrArg LogicDie.lamps (x.still_at t) :)
@[simp] theorem LogicDie.at_lampSide (x : LogicDie) (t : Nat) : (x.at t).lampSide = x.lampSide :=
  (congrArg LogicDie.lampSide (x.still_at t) :)
@[simp] theorem LogicDie.at_pes (x : LogicDie) (t : Nat) : (x.at t).pes = x.pes :=
  (congrArg LogicDie.pes (x.still_at t) :)
@[simp] theorem LogicDie.at_mx (x : LogicDie) (t : Nat) : (x.at t).mx = x.mx :=
  (congrArg LogicDie.mx (x.still_at t) :)
@[simp] theorem LogicDie.at_adcs (x : LogicDie) (t : Nat) : (x.at t).adcs = x.adcs :=
  (congrArg LogicDie.adcs (x.still_at t) :)
@[simp] theorem LogicDie.at_trigs (x : LogicDie) (t : Nat) : (x.at t).trigs = x.trigs :=
  (congrArg LogicDie.trigs (x.still_at t) :)
@[simp] theorem LogicDie.at_refAt (x : LogicDie) (t : Nat) : (x.at t).refAt = x.refAt :=
  (congrArg LogicDie.refAt (x.still_at t) :)
@[simp] theorem LogicDie.at_refWas (x : LogicDie) (t : Nat) : (x.at t).refWas = x.refWas :=
  (congrArg LogicDie.refWas (x.still_at t) :)
@[simp] theorem LogicDie.at_vct (x : LogicDie) (t : Nat) : (x.at t).vct = x.vct :=
  (congrArg LogicDie.vct (x.still_at t) :)
@[simp] theorem LogicDie.at_bist (x : LogicDie) (t : Nat) : (x.at t).bist = x.bist :=
  (congrArg LogicDie.bist (x.still_at t) :)
@[simp] theorem LogicDie.at_fresh (x : LogicDie) (t : Nat) : (x.at t).fresh = x.fresh :=
  (congrArg LogicDie.fresh (x.still_at t) :)

/-- The host die without the fields that reaching an instant may change. -/
def HostDie.still (h : HostDie) : HostDie :=
  { h with regs := [], before := [], linkA := .reset, linkB := .reset, back := .reset, now := 0 }

theorem HostDie.still_pumpTo (h : HostDie) (l : Ch) (t : Nat) : (h.pumpTo l t).still = h.still := by cases l <;> rfl

theorem HostDie.still_startFrame (h : HostDie) (p i b : Nat) : (h.startFrame p i b).still = h.still := by
  unfold HostDie.startFrame HostDie.setPort
  dsimp only
  repeat' split
  all_goals rfl

theorem HostDie.still_drain (p f t n : Nat) : ∀ h : HostDie, (h.drain p f t n).still = h.still := by
  induction n with
  | zero => intro h; rfl
  | succ n ih =>
    intro h
    unfold HostDie.drain
    dsimp only
    split
    · rfl
    · split
      · rfl
      · exact (ih _).trans (HostDie.still_startFrame _ _ _ _)

theorem HostDie.still_at (h : HostDie) (t : Nat) : (h.at t).still = h.still := by
  unfold HostDie.at
  split
  · exact (HostDie.still_drain _ _ _ _ _).trans ((HostDie.still_drain _ _ _ _ _).trans
      ((HostDie.still_pumpTo _ _ _).trans (HostDie.still_pumpTo _ _ _)))
  · rfl

@[simp] theorem HostDie.at_mem (x : HostDie) (t : Nat) : (x.at t).mem = x.mem :=
  (congrArg HostDie.mem (x.still_at t) :)
@[simp] theorem HostDie.at_muted (x : HostDie) (t : Nat) : (x.at t).muted = x.muted :=
  (congrArg HostDie.muted (x.still_at t) :)
@[simp] theorem HostDie.at_fc (x : HostDie) (t : Nat) : (x.at t).fc = x.fc :=
  (congrArg HostDie.fc (x.still_at t) :)
@[simp] theorem HostDie.at_mlog (x : HostDie) (t : Nat) : (x.at t).mlog = x.mlog :=
  (congrArg HostDie.mlog (x.still_at t) :)
@[simp] theorem HostDie.at_unstreamed (x : HostDie) (t : Nat) : (x.at t).unstreamed = x.unstreamed :=
  (congrArg HostDie.unstreamed (x.still_at t) :)
@[simp] theorem HostDie.at_logSeq (x : HostDie) (t : Nat) : (x.at t).logSeq = x.logSeq :=
  (congrArg HostDie.logSeq (x.still_at t) :)
@[simp] theorem HostDie.at_msix (x : HostDie) (t : Nat) : (x.at t).msix = x.msix :=
  (congrArg HostDie.msix (x.still_at t) :)
@[simp] theorem HostDie.at_snap (x : HostDie) (t : Nat) : (x.at t).snap = x.snap :=
  (congrArg HostDie.snap (x.still_at t) :)
@[simp] theorem HostDie.at_down (x : HostDie) (t : Nat) : (x.at t).down = x.down :=
  (congrArg HostDie.down (x.still_at t) :)
@[simp] theorem HostDie.at_req (x : HostDie) (t : Nat) : (x.at t).req = x.req :=
  (congrArg HostDie.req (x.still_at t) :)
@[simp] theorem HostDie.at_pw (x : HostDie) (t : Nat) : (x.at t).pw = x.pw :=
  (congrArg HostDie.pw (x.still_at t) :)
@[simp] theorem HostDie.at_sec (x : HostDie) (t : Nat) : (x.at t).sec = x.sec :=
  (congrArg HostDie.sec (x.still_at t) :)
@[simp] theorem HostDie.at_bistOut (x : HostDie) (t : Nat) : (x.at t).bistOut = x.bistOut :=
  (congrArg HostDie.bistOut (x.still_at t) :)
@[simp] theorem HostDie.at_bistWait (x : HostDie) (t : Nat) : (x.at t).bistWait = x.bistWait :=
  (congrArg HostDie.bistWait (x.still_at t) :)
@[simp] theorem HostDie.at_crcErr (x : HostDie) (t : Nat) : (x.at t).crcErr = x.crcErr :=
  (congrArg HostDie.crcErr (x.still_at t) :)
@[simp] theorem HostDie.at_answer (x : HostDie) (t : Nat) : (x.at t).answer = x.answer :=
  (congrArg HostDie.answer (x.still_at t) :)
@[simp] theorem HostDie.at_posted (x : HostDie) (t : Nat) : (x.at t).posted = x.posted :=
  (congrArg HostDie.posted (x.still_at t) :)
@[simp] theorem HostDie.at_running (x : HostDie) (t : Nat) : (x.at t).running = x.running :=
  (congrArg HostDie.running (x.still_at t) :)
@[simp] theorem HostDie.at_cores (x : HostDie) (t : Nat) : (x.at t).cores = x.cores :=
  (congrArg HostDie.cores (x.still_at t) :)
@[simp] theorem HostDie.at_folds (x : HostDie) (t : Nat) : (x.at t).folds = x.folds :=
  (congrArg HostDie.folds (x.still_at t) :)
@[simp] theorem HostDie.at_lastReason3 (x : HostDie) (t : Nat) : (x.at t).lastReason3 = x.lastReason3 :=
  (congrArg HostDie.lastReason3 (x.still_at t) :)
@[simp] theorem HostDie.at_xhCut (x : HostDie) (t : Nat) : (x.at t).xhCut = x.xhCut :=
  (congrArg HostDie.xhCut (x.still_at t) :)

/-! ### Dies of the device -/

@[simp] theorem State.die_setDie (s : State) (d : Ch) (x : LogicDie) : (s.setDie d x).die d = x := by cases d <;> rfl
@[simp] theorem State.die_setDie_other (s : State) (d : Ch) (x : LogicDie) : (s.setDie d x).die (other d) = s.die (other d) := by
  cases d <;> rfl
@[simp] theorem State.setDie_setDie (s : State) (d : Ch) (x y : LogicDie) : (s.setDie d x).setDie d y = s.setDie d y := by
  cases d <;> rfl
@[simp] theorem State.setDie_die (s : State) (d : Ch) : s.setDie d (s.die d) = s := by cases d <;> rfl
@[simp] theorem State.setDie_host (s : State) (d : Ch) (x : LogicDie) : (s.setDie d x).host = s.host := by cases d <;> rfl
@[simp] theorem State.setDie_pending (s : State) (d : Ch) (x : LogicDie) : (s.setDie d x).pending = s.pending := by
  cases d <;> rfl
@[simp] theorem State.setDie_fresh (s : State) (d : Ch) (x : LogicDie) : (s.setDie d x).fresh = s.fresh := by cases d <;> rfl
@[simp] theorem State.modDie_host (s : State) (d : Ch) (f : LogicDie → LogicDie) : (s.modDie d f).host = s.host := by
  cases d <;> rfl
@[simp] theorem State.modDie_pending (s : State) (d : Ch) (f : LogicDie → LogicDie) : (s.modDie d f).pending = s.pending := by
  cases d <;> rfl
@[simp] theorem State.modDie_fresh (s : State) (d : Ch) (f : LogicDie → LogicDie) : (s.modDie d f).fresh = s.fresh := by
  cases d <;> rfl
@[simp] theorem State.die_modDie (s : State) (d : Ch) (f : LogicDie → LogicDie) : (s.modDie d f).die d = f (s.die d) := by
  cases d <;> rfl
@[simp] theorem State.modHost_die (s : State) (f : HostDie → HostDie) (d : Ch) : (s.modHost f).die d = s.die d := by
  cases d <;> rfl
@[simp] theorem State.modHost_la (s : State) (f : HostDie → HostDie) : (s.modHost f).la = s.la := rfl
@[simp] theorem State.modHost_lb (s : State) (f : HostDie → HostDie) : (s.modHost f).lb = s.lb := rfl
@[simp] theorem State.modHost_host (s : State) (f : HostDie → HostDie) : (s.modHost f).host = f s.host := rfl
@[simp] theorem State.modHost_pending (s : State) (f : HostDie → HostDie) : (s.modHost f).pending = s.pending := rfl
@[simp] theorem State.modHost_fresh (s : State) (f : HostDie → HostDie) : (s.modHost f).fresh = s.fresh := rfl
@[simp] theorem other_other (d : Ch) : other (other d) = d := by cases d <;> rfl

end Sys2Proof.Machine
end

