-- ==== Sys2Proof/Laws/EvCore.lean ====
section
/-! SUPPORT. What running one Evpeal instruction does, once for all instructions: the fold task and the companion core, each
completing, jumping or trapping; and that an instruction of a logic die's core touches no other die. -/

namespace Sys2Proof.Machine

/-- The fold task fetches its next instruction without a trap (R83, R86). -/
theorem LogicDie.foldFetch_none {x : LogicDie} {c : Ctx} (hp : x.region x.core.pc = .code) (hf : c.fetch.kind ≠ .lasting) :
    x.foldFetch c = none := by
  simp [LogicDie.foldFetch, hp, hf]

/-- The companion core fetches its next instruction without a trap (R83, R86). -/
theorem LogicDie.compFetch_none {x : LogicDie} {c : Ctx} (hp : x.region x.comp.pc = .compCode) (hf : c.fetch.kind ≠ .lasting) :
    x.compFetch c = none := by
  simp [LogicDie.compFetch, hp, hf]

section Fold
variable {x y : LogicDie} {c : Ctx} {role : Role} {srcs dst : List (Fin 32)} {n : LogicDie → Nat} {bad : LogicDie → Bool}
  {body : LogicDie → Op}

/-- The fold task executes an instruction that completes. -/
theorem LogicDie.runFold_done (hr : x.foldRuns = true) (hb : x.core.cycles < x.budget) (hp : x.region x.core.pc = .code)
    (hf : c.fetch.kind ≠ .lasting) (hi : bad x = false) (hc : role ≠ .compOnly) (hy : body (x.issued c srcs dst) = .done y) :
    x.runFold c role srcs dst n bad body =
      y.retire c.die (x.issued c srcs dst).core.pc ((x.issued c srcs dst).core.pc + 4) (n (x.issued c srcs dst)) := by
  simp [LogicDie.runFold, hr, Nat.not_le.mpr hb, foldFetch_none hp hf, hi, hc, hy]

/-- The fold task executes an instruction that continues elsewhere. -/
theorem LogicDie.runFold_jump {a : Nat} (hr : x.foldRuns = true) (hb : x.core.cycles < x.budget)
    (hp : x.region x.core.pc = .code) (hf : c.fetch.kind ≠ .lasting) (hi : bad x = false) (hc : role ≠ .compOnly)
    (hy : body (x.issued c srcs dst) = .jump y a) :
    x.runFold c role srcs dst n bad body =
      y.retire c.die (x.issued c srcs dst).core.pc a (n (x.issued c srcs dst)) := by
  simp [LogicDie.runFold, hr, Nat.not_le.mpr hb, foldFetch_none hp hf, hi, hc, hy]

/-- The fold task executes an instruction that traps. -/
theorem LogicDie.runFold_trap {t : Trap} (hr : x.foldRuns = true) (hb : x.core.cycles < x.budget)
    (hp : x.region x.core.pc = .code) (hf : c.fetch.kind ≠ .lasting) (hi : bad x = false) (hc : role ≠ .compOnly)
    (hy : body (x.issued c srcs dst) = .trap t) :
    x.runFold c role srcs dst n bad body = (x.issued c srcs dst).foldTrap c.die t := by
  simp [LogicDie.runFold, hr, Nat.not_le.mpr hb, foldFetch_none hp hf, hi, hc, hy]

/-- The fold task meets an unassigned operand value. -/
theorem LogicDie.runFold_illegal (hr : x.foldRuns = true) (hb : x.core.cycles < x.budget) (hp : x.region x.core.pc = .code)
    (hf : c.fetch.kind ≠ .lasting) (hi : bad x = true) :
    x.runFold c role srcs dst n bad body = (x.fetched c).foldTrap c.die (Trap.plain .illegal) := by
  simp [LogicDie.runFold, hr, Nat.not_le.mpr hb, foldFetch_none hp hf, hi]

/-- The fold task meets a companion-core instruction. -/
theorem LogicDie.runFold_role (hr : x.foldRuns = true) (hb : x.core.cycles < x.budget) (hp : x.region x.core.pc = .code)
    (hf : c.fetch.kind ≠ .lasting) (hi : bad x = false) :
    x.runFold c .compOnly srcs dst n bad body = (x.fetched c).foldTrap c.die (Trap.plain .priv) := by
  simp [LogicDie.runFold, hr, Nat.not_le.mpr hb, foldFetch_none hp hf, hi]

end Fold

section Companion
variable {x y : LogicDie} {c : Ctx} {role : Role} {bad : LogicDie → Bool} {st : Bool} {body : LogicDie → Op}

/-- The companion core executes an instruction that completes. -/
theorem LogicDie.runComp_done (hr : x.compRuns = true) (hp : x.region x.comp.pc = .compCode) (hf : c.fetch.kind ≠ .lasting)
    (hi : bad (x.compIssued c) = false) (hc : role ≠ .foldOnly) (hy : body (x.compIssued c) = .done y) :
    x.runComp c role bad st body =
      { y with comp := { y.comp with pc := ((x.compIssued c).comp.pc + 4) % 2 ^ 64 } } := by
  simp [LogicDie.runComp, hr, compFetch_none hp hf, hi, hc, hy]

/-- The companion core executes an instruction that continues elsewhere. -/
theorem LogicDie.runComp_jump {a : Nat} (hr : x.compRuns = true) (hp : x.region x.comp.pc = .compCode)
    (hf : c.fetch.kind ≠ .lasting) (hi : bad (x.compIssued c) = false) (hc : role ≠ .foldOnly)
    (hy : body (x.compIssued c) = .jump y a) :
    x.runComp c role bad st body = { y with comp := { y.comp with pc := a % 2 ^ 64 } } := by
  simp [LogicDie.runComp, hr, compFetch_none hp hf, hi, hc, hy]

/-- The companion core executes an instruction that traps. -/
theorem LogicDie.runComp_trap {t : Trap} (hr : x.compRuns = true) (hp : x.region x.comp.pc = .compCode)
    (hf : c.fetch.kind ≠ .lasting) (hi : bad (x.compIssued c) = false) (hc : role ≠ .foldOnly)
    (hy : body (x.compIssued c) = .trap t) :
    x.runComp c role bad st body = (x.compIssued c).compTrap c.die t st := by
  simp [LogicDie.runComp, hr, compFetch_none hp hf, hi, hc, hy]

/-- The companion core meets an unassigned operand value. -/
theorem LogicDie.runComp_illegal (hr : x.compRuns = true) (hp : x.region x.comp.pc = .compCode)
    (hf : c.fetch.kind ≠ .lasting) (hi : bad (x.compIssued c) = true) :
    x.runComp c role bad st body = (x.compIssued c).compTrap c.die (Trap.plain .illegal) false := by
  simp [LogicDie.runComp, hr, compFetch_none hp hf, hi]

/-- The companion core meets a fold-task instruction. -/
theorem LogicDie.runComp_role (hr : x.compRuns = true) (hp : x.region x.comp.pc = .compCode)
    (hf : c.fetch.kind ≠ .lasting) (hi : bad (x.compIssued c) = false) :
    x.runComp c .foldOnly bad st body = (x.compIssued c).compTrap c.die (Trap.plain .priv) false := by
  simp [LogicDie.runComp, hr, compFetch_none hp hf, hi]

end Companion

/-- An instruction of a core of a logic die changes that die alone. -/
theorem runInstr_die {c : Ctx} (h : c.host = none) (role : Role) (srcs dst : List (Fin 32)) (n : LogicDie → Nat)
    (bad : LogicDie → Bool) (st : Bool) (body : LogicDie → Op) (s : State) :
    runInstr c role srcs dst n bad st body s = .next (s.modDie c.die (fun x =>
      if c.companion then (x.at c.now).runComp c role bad st body
      else (x.at c.now).runFold c role srcs dst n bad body)) := by
  simp [runInstr, h]

/-- An instruction of a host core runs on that core. -/
theorem runInstr_host {c : Ctx} {k : Fin 4} (h : c.host = some k) (role : Role) (srcs dst : List (Fin 32))
    (n : LogicDie → Nat) (bad : LogicDie → Bool) (st : Bool) (body : LogicDie → Op) (s : State) :
    runInstr c role srcs dst n bad st body s =
      .next (s.runCore k.val c role bad (fun s x => (body x).onHost s)) := by
  simp [runInstr, h]

end Sys2Proof.Machine
end

