-- ==== Sys2Proof/Laws/Sparse.lean ====
section
/-! SUPPORT. Sparse tables: what a read gives after a write, and that every table operation keeps the canonical form; the same for
byte memories. -/

namespace Sys2Proof.Machine

variable {α : Type} [DecidableEq α] (d : Nat → α)

omit [DecidableEq α] in
theorem Sparse.get_cons (m : Sparse α) (a : Nat) (w : α) (k : Nat) :
    Sparse.get d ((a, w) :: m) k = if k = a then w else Sparse.get d m k := rfl

omit [DecidableEq α] in
theorem Sparse.get_drop_same (m : Sparse α) (k : Nat) : Sparse.get d (Sparse.drop m k) k = d k := by
  induction m with
  | nil => rfl
  | cons e m ih =>
    obtain ⟨a, w⟩ := e
    by_cases h : a = k
    · simpa [Sparse.drop, h] using ih
    · have hk : ¬ k = a := fun e => h e.symm
      simp only [Sparse.drop, List.filter_cons, bne_iff_ne, ne_eq, h, not_false_eq_true, if_true] at ih ⊢
      rw [Sparse.get_cons, if_neg hk]; exact ih

omit [DecidableEq α] in
theorem Sparse.get_drop_other (m : Sparse α) {k j : Nat} (h : j ≠ k) :
    Sparse.get d (Sparse.drop m k) j = Sparse.get d m j := by
  induction m with
  | nil => rfl
  | cons e m ih =>
    obtain ⟨a, w⟩ := e
    by_cases hk : a = k
    · have : ¬ j = a := fun e => h (e.trans hk)
      rw [Sparse.get_cons, if_neg this, ← ih]; simp [Sparse.drop, hk]
    · simp only [Sparse.drop, List.filter_cons, bne_iff_ne, ne_eq, hk, not_false_eq_true, if_true] at ih ⊢
      rw [Sparse.get_cons, Sparse.get_cons, ih]

/-- A read of the key just written gives the value written. -/
@[simp] theorem Sparse.get_put_same (m : Sparse α) (k : Nat) (v : α) : Sparse.get d (Sparse.put d m k v) k = v := by
  induction m with
  | nil =>
    unfold Sparse.put; split
    · next h => exact h.symm
    · simp [Sparse.get]
  | cons e m ih =>
    obtain ⟨a, w⟩ := e
    unfold Sparse.put
    split
    · exact ih
    · next h =>
      have hk : ¬ k = a := fun e => h e.symm
      split
      · split
        · next hv => rw [Sparse.get_cons, if_neg hk, Sparse.get_drop_same]; exact hv.symm
        · simp [Sparse.get]
      · rw [Sparse.get_cons, if_neg hk]; exact ih

/-- A write leaves every other key alone. -/
theorem Sparse.get_put_other (m : Sparse α) {k j : Nat} (v : α) (h : j ≠ k) :
    Sparse.get d (Sparse.put d m k v) j = Sparse.get d m j := by
  induction m with
  | nil => unfold Sparse.put; split <;> simp [Sparse.get, h]
  | cons e m ih =>
    obtain ⟨a, w⟩ := e
    unfold Sparse.put
    split
    · next hk =>
      have : ¬ j = a := fun e => h (e.trans hk)
      rw [ih, Sparse.get_cons, if_neg this]
    · split
      · split
        · rw [Sparse.get_cons, Sparse.get_cons, Sparse.get_drop_other d m h]
        · rw [Sparse.get_cons, if_neg h, Sparse.get_cons, Sparse.get_cons, Sparse.get_drop_other d m h]
      · rw [Sparse.get_cons, Sparse.get_cons, ih]

/-! ### The canonical form -/

omit [DecidableEq α] in
theorem Sparse.above_mem {m : Sparse α} {k : Nat} (h : Sparse.above k m = true) {e : Nat × α} (he : e ∈ m) : k < e.1 := by
  simpa using (List.all_eq_true.mp h) e he

omit [DecidableEq α] in
theorem Sparse.above_of {m : Sparse α} {k : Nat} (h : ∀ e ∈ m, k < e.1) : Sparse.above k m = true := by
  simpa [Sparse.above] using h

theorem Sparse.wf_cons (a : Nat) (w : α) (m : Sparse α) :
    Sparse.wf d ((a, w) :: m) = true ↔ Sparse.above a m = true ∧ w ≠ d a ∧ Sparse.wf d m = true := by
  simp [Sparse.wf, and_assoc]

/-- A part of a canonical table is canonical. -/
theorem Sparse.wf_filter {m : Sparse α} (p : Nat × α → Bool) (h : Sparse.wf d m = true) :
    Sparse.wf d (m.filter p) = true := by
  induction m with
  | nil => rfl
  | cons e m ih =>
    obtain ⟨a, w⟩ := e
    obtain ⟨h1, h2, h3⟩ := (Sparse.wf_cons d a w m).mp h
    rw [List.filter_cons]
    split
    · exact (Sparse.wf_cons d a w _).mpr
        ⟨Sparse.above_of (fun e he => Sparse.above_mem h1 (List.mem_of_mem_filter he)), h2, ih h3⟩
    · exact ih h3

theorem Sparse.mem_put {m : Sparse α} {k : Nat} {v : α} {e : Nat × α} (h : e ∈ Sparse.put d m k v) :
    e = (k, v) ∨ e ∈ m := by
  induction m with
  | nil => unfold Sparse.put at h; split at h <;> simp_all
  | cons b m ih =>
    obtain ⟨a, w⟩ := b
    unfold Sparse.put at h
    split at h
    · rcases ih h with h | h <;> simp [h]
    · split at h
      · split at h
        · rcases List.mem_cons.mp h with h | h
          · simp [h]
          · exact .inr (List.mem_cons_of_mem _ (List.mem_of_mem_filter h))
        · rcases List.mem_cons.mp h with h | h
          · exact .inl h
          · rcases List.mem_cons.mp h with h | h
            · simp [h]
            · exact .inr (List.mem_cons_of_mem _ (List.mem_of_mem_filter h))
      · rcases List.mem_cons.mp h with h | h
        · simp [h]
        · rcases ih h with h | h <;> simp [h]

/-- A write keeps the canonical form. -/
theorem Sparse.put_wf {m : Sparse α} (k : Nat) (v : α) (h : Sparse.wf d m = true) :
    Sparse.wf d (Sparse.put d m k v) = true := by
  induction m with
  | nil =>
    unfold Sparse.put; split
    · rfl
    · next hv => exact (Sparse.wf_cons d k v []).mpr ⟨rfl, hv, rfl⟩
  | cons e m ih =>
    obtain ⟨a, w⟩ := e
    obtain ⟨h1, h2, h3⟩ := (Sparse.wf_cons d a w m).mp h
    unfold Sparse.put
    split
    · exact ih h3
    · next hk =>
      split
      · next hlt =>
        have hd : Sparse.wf d ((a, w) :: Sparse.drop m k) = true :=
          (Sparse.wf_cons d a w _).mpr
            ⟨Sparse.above_of (fun e he => Sparse.above_mem h1 (List.mem_of_mem_filter he)), h2, Sparse.wf_filter d _ h3⟩
        split
        · exact hd
        · next hv =>
          refine (Sparse.wf_cons d k v _).mpr ⟨Sparse.above_of ?_, hv, hd⟩
          intro e he
          rcases List.mem_cons.mp he with rfl | he
          · exact hlt
          · exact Nat.lt_trans hlt (Sparse.above_mem h1 (List.mem_of_mem_filter he))
      · next hlt =>
        refine (Sparse.wf_cons d a w _).mpr ⟨Sparse.above_of ?_, h2, ih h3⟩
        intro e he
        rcases Sparse.mem_put d he with rfl | he
        · show a < k; omega
        · exact Sparse.above_mem h1 he

/-- Clearing a range keeps the canonical form. -/
theorem Sparse.erase_wf {m : Sparse α} (lo hi : Nat) (h : Sparse.wf d m = true) :
    Sparse.wf d (Sparse.erase m lo hi) = true := Sparse.wf_filter d _ h

/-- Writing a list of entries keeps the canonical form. -/
theorem Sparse.foldl_put_wf (es : List (Nat × α)) {m : Sparse α} (h : Sparse.wf d m = true) :
    Sparse.wf d (es.foldl (fun m e => Sparse.put d m e.1 e.2) m) = true := by
  induction es generalizing m with
  | nil => exact h
  | cons e es ih => exact ih (Sparse.put_wf d _ _ h)

/-- Copying a range keeps the canonical form. -/
theorem Sparse.copy_wf (src : Sparse α) {dst : Sparse α} (lo hi : Nat) (h : Sparse.wf d dst = true) :
    Sparse.wf d (Sparse.copy d src dst lo hi) = true := Sparse.foldl_put_wf d _ (Sparse.erase_wf d lo hi h)

/-! ### Byte memories -/

/-- Writing a little-endian number keeps the canonical form. -/
theorem writeLE_wf (n : Nat) {m : Sparse Byte} (a v : Nat) (h : Memory.wf m = true) : Memory.wf (writeLE m a n v) = true := by
  induction n generalizing m a v with
  | zero => exact h
  | succ n ih => exact ih _ _ (Sparse.put_wf memDflt _ _ h)

/-- A write of `n` bytes at `a` leaves every byte outside them alone. -/
theorem get_writeLE_other (n : Nat) (m : Sparse Byte) (a v b : Nat) (h : b < a ∨ a + n ≤ b) :
    Sparse.get memDflt (writeLE m a n v) b = Sparse.get memDflt m b := by
  induction n generalizing m a v with
  | zero => rfl
  | succ n ih =>
    unfold writeLE
    rw [ih _ _ _ (by omega), Sparse.get_put_other memDflt m _ (by omega)]

/-- Byte `j` of the bytes written. -/
theorem get_writeLE (n : Nat) (m : Sparse Byte) (a v j : Nat) (h : j < n) :
    Sparse.get memDflt (writeLE m a n v) (a + j) = BitVec.ofNat 8 (v / 256 ^ j) := by
  induction n generalizing m a v j with
  | zero => omega
  | succ n ih =>
    unfold writeLE
    cases j with
    | zero => rw [get_writeLE_other _ _ _ _ _ (by omega)]; simp
    | succ j =>
      have := ih (Sparse.put memDflt m a (BitVec.ofNat 8 v)) (a + 1) (v / 256) j (by omega)
      rw [show a + (j + 1) = a + 1 + j by omega, this, Nat.div_div_eq_div_mul, Nat.pow_succ, Nat.mul_comm]

/-- A write of `n` bytes keeps the memory canonical. -/
theorem LogicDie.poke_wf (x : LogicDie) (a n v : Nat) (h : Memory.wf x.mem = true) : Memory.wf (x.poke a n v).mem = true :=
  writeLE_wf n a v h

/-- Writing the journal back keeps the memory canonical. -/
theorem unwind_wf (es : List JEntry) {m : Sparse Byte} (h : Memory.wf m = true) : Memory.wf (unwind m es) = true := by
  induction es generalizing m with
  | nil => exact h
  | cons e es ih => exact ih (writeLE_wf 8 _ _ h)

/-- A rollback keeps the memory canonical. -/
theorem LogicDie.rollback_wf (x : LogicDie) (h : Memory.wf x.mem = true) : Memory.wf x.rollback.mem = true :=
  unwind_wf _ h

/-- A journaled store keeps the memory canonical. -/
theorem LogicDie.journalStore_wf (x : LogicDie) (a width v : Nat) (h : Memory.wf x.mem = true) :
    Memory.wf (x.journalStore a width v).mem = true := by
  unfold LogicDie.journalStore
  apply LogicDie.poke_wf
  split
  · exact h
  · split <;> exact h

/-- The memory of a die after reset is canonical. -/
theorem reset_memory_wf (c : Ch) : Memory.wf (State.reset.die c).mem = true := by cases c <;> rfl

/-- Host SRAM after reset is canonical. -/
theorem reset_hostMemory_wf : HostMemory.wf State.reset.host.mem = true := rfl

/-- Writing bytes into host SRAM keeps it canonical. -/
theorem pokeBytes_wf (bs : List Nat) {m : Sparse Byte} (a : Nat) (h : HostMemory.wf m = true) :
    HostMemory.wf (pokeBytes m a bs) = true := by
  induction bs generalizing m a with
  | nil => exact h
  | cons b bs ih => exact ih _ (Sparse.put_wf _ _ _ h)

end Sys2Proof.Machine
end

