-- ==== Sys2Proof/Laws/Regs.lean ====
section
/-! SUPPORT. Registers and their fields: what a field reads after a write of it, of another field of its register, and of another
register. -/

namespace Sys2Proof.Machine

/-! ### Bit fields -/

theorem bitsOf_lt (v hi lo : Nat) : bitsOf v hi lo < 2 ^ (hi + 1 - lo) := Nat.mod_lt _ (Nat.two_pow_pos _)

/-- A number is what lies above a field, the field, and what lies below it. -/
theorem split_bits (v hi lo : Nat) (h : lo ≤ hi) :
    v = v / 2 ^ (hi + 1) * 2 ^ (hi + 1) + bitsOf v hi lo * 2 ^ lo + v % 2 ^ lo := by
  have e : 2 ^ (hi + 1) = 2 ^ lo * 2 ^ (hi + 1 - lo) := by rw [← Nat.pow_add]; congr 1; omega
  have h1 := Nat.div_add_mod v (2 ^ lo)
  have h2 := Nat.div_add_mod (v / 2 ^ lo) (2 ^ (hi + 1 - lo))
  have h3 : v / 2 ^ (hi + 1) = v / 2 ^ lo / 2 ^ (hi + 1 - lo) := by rw [e, Nat.div_div_eq_div_mul]
  rw [bitsOf, h3, e]
  calc v = 2 ^ lo * (v / 2 ^ lo) + v % 2 ^ lo := h1.symm
    _ = 2 ^ lo * (2 ^ (hi + 1 - lo) * (v / 2 ^ lo / 2 ^ (hi + 1 - lo)) + v / 2 ^ lo % 2 ^ (hi + 1 - lo)) + v % 2 ^ lo := by
        rw [h2]
    _ = _ := by ring

/-- Replacing a field leaves what lies above and below it. -/
theorem setBits_eq (v hi lo n : Nat) (h : lo ≤ hi) :
    setBits v hi lo n = v / 2 ^ (hi + 1) * 2 ^ (hi + 1) + n % 2 ^ (hi + 1 - lo) * 2 ^ lo + v % 2 ^ lo := by
  have := split_bits v hi lo h
  unfold setBits
  omega

theorem setBits_testBit (v hi lo n i : Nat) (h : lo ≤ hi) :
    (setBits v hi lo n).testBit i = if lo ≤ i ∧ i ≤ hi then n.testBit (i - lo) else v.testBit i := by
  rw [setBits_eq v hi lo n h]
  have e : 2 ^ (hi + 1) = 2 ^ lo * 2 ^ (hi + 1 - lo) := by rw [← Nat.pow_add]; congr 1; omega
  have f : v / 2 ^ (hi + 1) * 2 ^ (hi + 1) + n % 2 ^ (hi + 1 - lo) * 2 ^ lo + v % 2 ^ lo =
      2 ^ lo * (2 ^ (hi + 1 - lo) * (v / 2 ^ (hi + 1)) + n % 2 ^ (hi + 1 - lo)) + v % 2 ^ lo := by rw [e]; ring
  rw [f, Nat.testBit_two_pow_mul_add _ (Nat.mod_lt _ (Nat.two_pow_pos _))]
  split
  · next hi' =>
    rw [if_neg (by omega), Nat.testBit_mod_two_pow]; simp [hi']
  · next hlo =>
    rw [Nat.testBit_two_pow_mul_add _ (Nat.mod_lt _ (Nat.two_pow_pos _))]
    by_cases hh : i - lo < hi + 1 - lo
    · rw [if_pos hh, if_pos (by omega), Nat.testBit_mod_two_pow]; simp [hh]
    · rw [if_neg hh, if_neg (by omega), Nat.testBit_div_two_pow]; congr 1; omega

theorem setBits_lt (v hi lo n w : Nat) (h : lo ≤ hi) (hw : hi < w) (hv : v < 2 ^ w) : setBits v hi lo n < 2 ^ w := by
  apply Nat.lt_pow_two_of_testBit
  intro i hi'
  rw [setBits_testBit v hi lo n i h, if_neg (by omega)]
  exact Nat.testBit_lt_two_pow (Nat.lt_of_lt_of_le hv (Nat.pow_le_pow_right (by decide) hi'))

theorem bitsOf_testBit (v hi lo i : Nat) : (bitsOf v hi lo).testBit i = (decide (i < hi + 1 - lo) && v.testBit (i + lo)) := by
  unfold bitsOf
  rw [Nat.testBit_mod_two_pow, Nat.testBit_div_two_pow]

theorem Word.toNat_setBits (v : Word) (hi lo n : Nat) (h : lo ≤ hi) (hw : hi < 64) :
    (Word.setBits v hi lo n).toNat = Machine.setBits v.toNat hi lo n := by
  unfold Word.setBits
  rw [BitVec.toNat_ofNat, Nat.mod_eq_of_lt (setBits_lt _ _ _ _ _ h hw v.isLt)]

/-- The field just written. -/
theorem Word.bits_setBits_same (v : Word) (hi lo n : Nat) (h : lo ≤ hi) (hw : hi < 64) :
    Word.bits (Word.setBits v hi lo n) hi lo = n % 2 ^ (hi + 1 - lo) := by
  unfold Word.bits
  rw [Word.toNat_setBits v hi lo n h hw]
  apply Nat.eq_of_testBit_eq
  intro i
  rw [bitsOf_testBit, setBits_testBit _ _ _ _ _ h, Nat.testBit_mod_two_pow]
  by_cases hi' : i < hi + 1 - lo
  · rw [if_pos (by omega)]; simp
  · simp [hi']

/-- A field beside the one written. -/
theorem Word.bits_setBits_other (v : Word) (hi lo n hi' lo' : Nat) (h : lo ≤ hi) (hw : hi < 64) (hd : hi' < lo ∨ hi < lo') :
    Word.bits (Word.setBits v hi lo n) hi' lo' = Word.bits v hi' lo' := by
  unfold Word.bits
  rw [Word.toNat_setBits v hi lo n h hw]
  apply Nat.eq_of_testBit_eq
  intro i
  rw [bitsOf_testBit, bitsOf_testBit, setBits_testBit _ _ _ _ _ h]
  by_cases hi' : i < hi' + 1 - lo'
  · rw [if_neg (by omega)]
  · simp [hi']

/-! ### Register files -/

theorem Reg.num_lt (r : Reg) : r.num < 512 := by cases r <;> decide

theorem Reg.num_inj {r q : Reg} (h : r.num = q.num) : r = q := by
  have e : Reg.ofNum r.num = Reg.ofNum q.num := by rw [h]
  have f : ∀ r : Reg, Reg.ofNum r.num = r := by intro r; cases r <;> rfl
  rwa [f, f] at e

theorem regKey_inj {r q : Reg} {i j : Nat} (h : regKey r i = regKey q j) : r = q ∧ i = j := by
  unfold regKey at h
  have h1 := Reg.num_lt r
  have h2 := Reg.num_lt q
  exact ⟨Reg.num_inj (by omega), by omega⟩

@[simp] theorem RegFile.rd_wr_same (m : Sparse Word) (r : Reg) (i : Nat) (v : Word) :
    RegFile.rd (RegFile.wr m r i v) r i = v := Sparse.get_put_same _ _ _ _

theorem RegFile.rd_wr_other (m : Sparse Word) {r q : Reg} {i j : Nat} (v : Word) (h : ¬ (q = r ∧ j = i)) :
    RegFile.rd (RegFile.wr m r i v) q j = RegFile.rd m q j :=
  Sparse.get_put_other _ _ _ (fun e => h (regKey_inj e))

/-- The field just written. -/
theorem RegFile.g_p_same (m : Sparse Word) (f : Fld) (i n : Nat) (h : f.lo ≤ f.hi) (hw : f.hi < 64) :
    RegFile.g (RegFile.p m f i n) f i = n % 2 ^ (f.hi + 1 - f.lo) := by
  unfold RegFile.g RegFile.p
  rw [RegFile.rd_wr_same, Word.bits_setBits_same _ _ _ _ h hw]

/-- A field beside the one written, of the same register. -/
theorem RegFile.g_p_beside (m : Sparse Word) (f g : Fld) (i n : Nat) (hr : g.reg = f.reg) (h : f.lo ≤ f.hi) (hw : f.hi < 64)
    (hd : g.hi < f.lo ∨ f.hi < g.lo) : RegFile.g (RegFile.p m f i n) g i = RegFile.g m g i := by
  unfold RegFile.g RegFile.p
  rw [hr, RegFile.rd_wr_same, Word.bits_setBits_other _ _ _ _ _ _ h hw hd]

/-- A field of another register, or of another instance. -/
theorem RegFile.g_p_other (m : Sparse Word) (f g : Fld) (i j n : Nat) (h : ¬ (g.reg = f.reg ∧ j = i)) :
    RegFile.g (RegFile.p m f i n) g j = RegFile.g m g j := by
  unfold RegFile.g RegFile.p
  rw [RegFile.rd_wr_other _ _ h]

/-- A register write keeps the register file canonical. -/
theorem RegFile.wr_wf (m : Sparse Word) (r : Reg) (i : Nat) (v : Word) (h : Sparse.wf regDflt m = true) :
    Sparse.wf regDflt (RegFile.wr m r i v) = true := Sparse.put_wf _ _ _ h

/-! ### The dies -/

theorem LogicDie.g_p_same (x : LogicDie) (f : Fld) (n i : Nat) (h : f.lo ≤ f.hi) (hw : f.hi < 64) :
    (x.p f n i).g f i = n % 2 ^ (f.hi + 1 - f.lo) := RegFile.g_p_same _ _ _ _ h hw

theorem LogicDie.g_p_beside (x : LogicDie) (f g : Fld) (n i : Nat) (hr : g.reg = f.reg) (h : f.lo ≤ f.hi) (hw : f.hi < 64)
    (hd : g.hi < f.lo ∨ f.hi < g.lo) : (x.p f n i).g g i = x.g g i := RegFile.g_p_beside _ _ _ _ _ hr h hw hd

theorem LogicDie.g_p_other (x : LogicDie) (f g : Fld) (n i j : Nat) (h : ¬ (g.reg = f.reg ∧ j = i)) :
    (x.p f n i).g g j = x.g g j := RegFile.g_p_other _ _ _ _ _ _ h

theorem LogicDie.g_wr_other (x : LogicDie) (r : Reg) (g : Fld) (v : Word) (i j : Nat) (h : ¬ (g.reg = r ∧ j = i)) :
    (x.wr r i v).g g j = x.g g j := by
  unfold LogicDie.g LogicDie.wr RegFile.g
  simp only [RegFile.rd_wr_other _ _ h]

theorem HostDie.g_p_same (h : HostDie) (f : Fld) (n i : Nat) (hl : f.lo ≤ f.hi) (hw : f.hi < 64) :
    (h.p f n i).g f i = n % 2 ^ (f.hi + 1 - f.lo) := RegFile.g_p_same _ _ _ _ hl hw

theorem HostDie.g_p_beside (h : HostDie) (f g : Fld) (n i : Nat) (hr : g.reg = f.reg) (hl : f.lo ≤ f.hi) (hw : f.hi < 64)
    (hd : g.hi < f.lo ∨ f.hi < g.lo) : (h.p f n i).g g i = h.g g i := RegFile.g_p_beside _ _ _ _ _ hr hl hw hd

theorem HostDie.g_p_other (h : HostDie) (f g : Fld) (n i j : Nat) (hn : ¬ (g.reg = f.reg ∧ j = i)) :
    (h.p f n i).g g j = h.g g j := RegFile.g_p_other _ _ _ _ _ _ hn

/-- Every table of the state that a second write of the same key leaves as the second write alone leaves it. -/
theorem Sparse.drop_drop {α : Type} (m : Sparse α) (k : Nat) : Sparse.drop (Sparse.drop m k) k = Sparse.drop m k := by
  simp [Sparse.drop, List.filter_filter]

theorem Sparse.put_put {α : Type} [DecidableEq α] (d : Nat → α) (m : Sparse α) (k : Nat) (v w : α) :
    Sparse.put d (Sparse.put d m k v) k w = Sparse.put d m k w := by
  induction m with
  | nil =>
    by_cases h : v = d k
    · simp [Sparse.put, h]
    · simp [Sparse.put, h]
  | cons e m ih =>
    obtain ⟨a, u⟩ := e
    by_cases ha : a = k
    · simpa [Sparse.put, ha] using ih
    · by_cases hk : k < a
      · by_cases h : v = d k <;> simp [Sparse.put, ha, hk, h, Sparse.drop_drop]
      · simp [Sparse.put, ha, hk, ih]

end Sys2Proof.Machine
end

