-- ==== Sys2Proof/WellFormed.lean ====
section
/-! DEFINITION. What a command must satisfy beyond the types of its operands: sizes of lists and transfers, and distinct members.
Every other command is well formed as its type says. -/

namespace Sys2Proof

/-- The relations between the operands of a command. -/
def Instr.wf : Instr → Bool
  | .writeAccess _ _ addr width w _ =>
    (width == 1 || width == 2 || width == 4 || width == 8) && decide (addr < 2 ^ 64) && decide (w.v.toNat < 2 ^ (8 * width))
  | .rcFieldRead _ _ r _ => decide (r.addr < 2 ^ 64)
  | .snapshotRead ofs n _ => decide (ofs.val + n.val ≤ 1048576)
  | .bar0Read ofs n _ => decide (1 ≤ n.val) && decide (ofs.val + n.val ≤ 16777216)
  | .downloadWindowWrite ofs data _ => decide (data ≠ []) && decide (ofs.val + data.length ≤ 16777216)
  | .captureComplete _ _ points _ => decide (points.length = 256)
  | .adcResult _ _ _ _ code frac _ _ _ => decide (code.val * 256 + frac.val ≤ 65535 * 256)
  | .calibrationDone _ _ sum _ _ => decide (sum ≤ 4096 * 65535)
  | .faultEvent _ events released _ => decide (events.map (·.1)).Nodup && decide released.Nodup
  | .fcForce col _ k _ _ _ => col.isSome || decide (k.val < 4)
  | .fieldBoot _ stile xl _ => decide stile.Nodup && decide xl.Nodup
  | .windowWrite ofs data _ _ =>
    decide (8 ≤ data.length) && decide (data.length ≤ 4096) && decide (ofs.val + data.length ≤ 16777216)
  | .windowRead ofs n _ => decide (ofs.val + n ≤ 16777216)
  | .vctFrame _ frame _ _ => decide (frame.length ≤ 1518)
  | .nrstHRelease lanes _ => decide lanes.Nodup
  | .dmaRunEnd _ _ _ at_ _ => decide (at_ < 2 ^ 64)
  | .testEnd _ _ _ _ codes _ => decide (codes.length ≤ 40)
  | .lock .. | .foldLock .. | .siLock .. | .gtLock .. | .stileMessageDiscarded .. | .controlWord ..
  | .controlWordSend .. | .stileResend .. | .controlWordSilence .. | .lastingLinkFault .. | .crosslinkFrame ..
  | .crosslinkResend .. | .lastingCrosslinkFault .. | .controlLinkResend .. | .controlLinkFault ..
  | .lampLinkFault .. | .lampLinkTimeout .. | .crookInLow .. | .foldStart .. | .slotTimerExpiry .. | .exchange ..
  | .exchangeFrame .. | .checkpoint .. | .budget .. | .lockstepMismatch .. | .windowCompare .. | .triadMinority ..
  | .rollback .. | .missedFold .. | .outputAgreement .. | .outputAgreementFrame .. | .endOfY .. | .foldDone ..
  | .mirrorSlotComplete .. | .timeSync .. | .foldSnapLease .. | .foldSnapRelease .. | .leaseExpiry ..
  | .bar2Write .. | .iAdd .. | .iSub .. | .iAnd .. | .iOr .. | .iXor .. | .iNor .. | .iAndn .. | .iSll ..
  | .iSrl .. | .iSra .. | .iRor .. | .iSeq .. | .iSne .. | .iSlt .. | .iSge .. | .iSltu .. | .iSgeu .. | .iMin ..
  | .iMax .. | .iMinu .. | .iMaxu .. | .iClz .. | .iPopc .. | .iSextb .. | .iSexth .. | .iSextw .. | .iBswap ..
  | .iMul .. | .iMulh .. | .iMulhu .. | .iDiv .. | .iDivu .. | .iRem .. | .iRemu .. | .iAddi .. | .iAndi ..
  | .iOri .. | .iXori .. | .iSlti .. | .iSltiu .. | .iMovz .. | .iMovk .. | .iShi .. | .iExtu .. | .iLdb ..
  | .iLdh .. | .iLdw .. | .iLdd .. | .iStb .. | .iSth .. | .iStw .. | .iStd .. | .iBeq .. | .iLoopn .. | .iCall ..
  | .iRet .. | .iJr .. | .iCallr .. | .iIn .. | .iOut .. | .iOutc .. | .iFold .. | .iAspect .. | .iAproof ..
  | .iTsend .. | .iTrecv .. | .iMovs .. | .iMovt .. | .iRete .. | .iWaitev .. | .interrupt .. | .iCkin ..
  | .iCkend .. | .iCkrd .. | .iLog .. | .iGtrd .. | .iGtsnap .. | .iGtcmp0 .. | .iGtcmp1 .. | .iDomain ..
  | .iSand .. | .iSor .. | .iSandn .. | .iSnot .. | .iSall .. | .iSany .. | .iSchk .. | .iSclr .. | .iSbmov ..
  | .iSbnot .. | .iSbcast .. | .iSpklo .. | .iSpkhi .. | .iSrot .. | .iSfromi .. | .iEqv .. | .iAntv .. | .iTwoh ..
  | .iRsti .. | .iEdm .. | .iMute .. | .iTon .. | .iTof .. | .iLimit .. | .iZone .. | .iZoneQ .. | .sampleWindow ..
  | .darkSample .. | .frontEndMismatch .. | .readbackChange .. | .blankingEnd .. | .noValidSourcePulse ..
  | .shortlow .. | .stuckhigh .. | .badwidth .. | .nopulse .. | .sourceOverheat .. | .analogOvercurrent ..
  | .analogReconnect .. | .currentLimitExpiry .. | .thermalShutdown .. | .groupOverload .. | .stayon .. | .noon ..
  | .shortClear .. | .offPulse .. | .offPulseEnd .. | .onPulse .. | .onPulseEnd .. | .crookPulse ..
  | .crookPartnerCheck .. | .crookOutputLow .. | .dimmingPeriodStart .. | .flashEdge .. | .stageOpen ..
  | .stageOcp .. | .stageLxfail .. | .stageOvt .. | .lampCheckSample .. | .notalive .. | .opticalWindow ..
  | .colourLoop .. | .neighbourTest .. | .peTick .. | .peSet .. | .peRamp .. | .peMask .. | .peShift .. | .peLdc ..
  | .peDjnz .. | .peJmp .. | .peWait .. | .peWaitf .. | .peWaitp .. | .peHalt .. | .peSwap .. | .peFswap ..
  | .peRun .. | .pePause .. | .lampDarkening .. | .frameStart .. | .lineSlot .. | .matrixNeighbourTest ..
  | .mxFlip .. | .mxCfgWrite .. | .constituent .. | .conversion .. | .adcTrigger .. | .adcSwtrig .. | .adcUrg ..
  | .adcPop .. | .refrdy .. | .shadowMove .. | .spareSelfCheck .. | .slowcal .. | .calZero .. | .calFull ..
  | .calClear .. | .wire .. | .recordClose .. | .resumeProposal .. | .resumption .. | .fcReccntWrite ..
  | .faultNote .. | .hello .. | .autoDownload .. | .imageBegin .. | .imageChunk .. | .imageEnd .. | .paramWrite ..
  | .downloadTimeout .. | .crosslinkTimeout .. | .imageVerdict .. | .paramAck .. | .hostReqRead ..
  | .hostReqWrite .. | .hostReqStart .. | .hostReqRestart .. | .hostReqReply .. | .stlReqRead .. | .stlReqWrite ..
  | .stlReqStart .. | .stlReqRestart .. | .requestTimeout .. | .boot .. | .field .. | .release .. | .readId ..
  | .readStatus .. | .registerWrite .. | .registerRead .. | .transmitRingEntry .. | .logRecord ..
  | .logRecordSend .. | .logStream .. | .vctTx .. | .unpaired .. | .vctRx .. | .vctAnnouncement ..
  | .stopSupervision .. | .bellwetherRole .. | .cellFoldClose .. | .beacon .. | .fsclr .. | .tlarm .. | .apply ..
  | .grandmasterLoss .. | .holdoverExpiry .. | .bringUpStep .. | .fixedDelayExpiry .. | .takeDown ..
  | .pwrHdomTarget .. | .pwrPlReq .. | .levelReady .. | .clockSwitch .. | .levelAbandon .. | .pwrHplReq ..
  | .pwrHwakeField .. | .powerReqRequest .. | .powerReqStateReport .. | .powerReqGrant .. | .powerReqRefusal ..
  | .wake .. | .hostWake .. | .vf24Low .. | .save .. | .vf24Brownout .. | .vf24Overvoltage .. | .warmReturn ..
  | .fieldPowerUp .. | .frstAssert .. | .frstRelease .. | .nrstHAssert .. | .programKeySlot .. | .revokeKeySlot ..
  | .programIk .. | .advanceLifecycle .. | .raiseArb .. | .chreq .. | .challengeReady .. | .challengeExpiry ..
  | .verify .. | .verification .. | .chreqRefusalEnd .. | .close .. | .openreq .. | .ttlExpiry .. | .debugOpen ..
  | .debugClose .. | .debugRead .. | .debugWrite .. | .debugHalt .. | .resume .. | .debugStep .. | .regrd ..
  | .regwr .. | .bkpt .. | .bkclr .. | .breakpointHit .. | .holdNote .. | .debugRsp .. | .idcode .. | .bypass ..
  | .samplePreload .. | .extest .. | .dap .. | .timerTick .. | .gtCmpWrite .. | .gtCntWrite .. | .snap ..
  | .gtCapRead .. | .ckClaim .. | .ckRelease .. | .go .. | .bistLane .. | .bistPin .. | .bistNeighbour ..
  | .bistSlice .. | .bistFuse .. | .bistRes .. | .softRepairWrite .. | .unassigned .. | .wakeNote ..
  | .linkReturned .. | .timeSyncSend .. | .grandmasterSync .. | .bridgeFrame .. | .sourceCooled ..
  | .otpCommandDone .. | .hostSupplyLow .. | .domainFailure .. => true

end Sys2Proof
end

