-- ==== Sys2Proof/Tests/Slice0.lean ====
section
/-! SUPPORT. Tests of the model: what WellFormed refuses, small steps with results taken from the spec, and for the statements that
have hypotheses a concrete state and operands that meet them. -/

namespace Sys2Proof.Tests

open Sys2Proof.Machine Sys2Proof.Claims

set_option maxRecDepth 10000

/-! ### Small states -/

/-- Register fields of a logic die set to values. -/
def fields (l : List (Fld × Nat × Nat)) (x : LogicDie) : LogicDie := l.foldl (fun x e => x.p e.1 e.2.2 e.2.1) x

/-- Register fields of the host die set to values. -/
def hostFields (l : List (Fld × Nat × Nat)) (h : HostDie) : HostDie := l.foldl (fun h e => h.p e.1 e.2.2 e.2.1) h

/-- The device with two equal logic dies and the host die out of reset. -/
def both (x : LogicDie) : State := { State.reset with la := x, lb := x, host := HostDie.reset }

/-- A logic die that executes: the fold task at 0x100 in an attempt with w1 = 0x10000000, w2 = 5, w3 = 5, w4 safe-0 bits, w5 =
0x103, the companion core at 0x2000. -/
def exe : LogicDie :=
  { fields [(F.FOLD_BUDGET_BUDGET, 0, 100000), (F.FOLD_BUDGET_JLIMIT, 0, 100)] LogicDie.reset with
    hdr := { Header.none with codeSplit := 0x1000, dataSplit := 0x10001000, spLo := 0x10000800, spHi := 0x10001000 }
    core := { FoldCore.reset with
      running := true, pc := 0x100
      w := [(1, 0x10000000), (2, 5), (3, 5), (4, 0x5555555555555555), (5, 0x103), (6, 0x200), (7, 0x4000E000), (31, 0x10000700)] }
    comp := { CompCore.reset with
      on := true, pc := 0x2000
      w := [(1, 0x10002000), (2, 5), (3, 5), (5, 0x103), (6, 0x3000), (7, 0x4000E000)] } }

/-- The device in which both logic dies execute. -/
def run : State := both exe

/-- The device with the fold task's own state changed. -/
def runCore (f : FoldCore → FoldCore) : State := both { exe with core := f exe.core }

/-- An instruction of the fold task, and of the companion core, on a die. -/
def fc (d : Ch) : Ctx := ⟨d, false, none, 5, .clean, [], 0⟩

def cc (d : Ch) : Ctx := ⟨d, true, none, 5, .clean, [], 0⟩

theorem fold_ready (d : Ch) : FoldReady (fc d) run := by cases d <;> (unfold FoldReady CleanFetch; decide)

theorem comp_ready (d : Ch) : CompReady (cc d) run := by cases d <;> (unfold CompReady CleanFetch; decide)

/-! ### Witnesses: meets_<Claim> meets the hypotheses of the claims' clauses.

Evpeal: integer, memory and flow -/

theorem meets_IntegerForms : FoldReady (fc .la) run ∧ CompReady (cc .lb) run ∧ (intForm (.iAdd (fc .la) 3 1 2)).isSome ∧
    (divForm (.iDiv (cc .lb) 0 1 2)).isSome ∧ (immForm (.iExtu (fc .la) 3 1 63 0)).isSome ∧ (mulForm (.iMulh (cc .lb) 0 1 2)).isSome ∧
    64 < (63 : Fin 64).val + (1 : Fin 64).val + 1 :=
  ⟨fold_ready _, comp_ready _, rfl, rfl, rfl, rfl, by decide⟩

/-- The device with an image running on the host cores, HC2 released at 0x1000. -/
def hostRun : State :=
  { run with host := { HostDie.reset with running := some 0, cores := [(2, { CompCore.reset with on := true, pc := 0x1000 })] } }

theorem meets_HostCoreIntegers : (intForm (.iAdd ⟨.la, true, some 2, 5, .clean, [], 1⟩ 3 1 2)).isSome ∧
    (hostRun.host.at 5).coreRuns 2 = true ∧ ((hostRun.host.at 5).coreWoken 2).pc < 0x2000000 := by
  refine ⟨rfl, by decide, by decide⟩

theorem meets_IntegerNeverTraps : (intCtx (.iRem (fc .la) 3 1 2)).isSome ∧ (here (fc .la) run).w false 0 = 0 ∧
    FoldReady (fc .la) (runCore (fun k => { k with w := [(1, 0x8000000000000000), (2, 0xFFFFFFFFFFFFFFFF)] })) := by
  refine ⟨rfl, by decide, ?_⟩
  unfold FoldReady CleanFetch; decide

/-- Loads of memory and of a register, and each trap of a load: PRIV at the companion's data, ALIGN, STACK below the stack. -/
theorem meets_Loads : LoadFree (fc .la) run 1 (addrOf (fc .la) run 1 8) 8 ∧
    isRegs ((here (fc .la) run).region (addrOf (fc .la) run 1 8)) = false ∧
    LoadFree (cc .la) run 7 (addrOf (cc .la) run 7 0) 8 ∧ isRegs ((here (cc .la) run).region (addrOf (cc .la) run 7 0)) = true ∧
    regAt .la 0x4000E000 = some (.DBG_STAT, 0) := by
  unfold LoadFree; decide

theorem meets_LoadTraps : mayLoad false ((here (fc .la) run).region (addrOf (fc .la) run 1 0x1000)) = false ∧
    (mayLoad false ((here (fc .la) run).region (addrOf (fc .la) run 1 1)) = true ∧ addrOf (fc .la) run 1 1 % 8 ≠ 0) ∧
    (mayLoad false ((here (fc .la) run).region (addrOf (fc .la) run 31 0)) = true ∧ addrOf (fc .la) run 31 0 % 8 = 0 ∧
      (here (fc .la) run).offStack false 31 (addrOf (fc .la) run 31 0) 8 = true) ∧
    ((here (fc .la) run).region (addrOf (fc .la) run 1 0)).memory = some 1 ∧
    (Ctx.word ⟨.la, false, none, 5, .clean, [⟨.lasting, true⟩], 0⟩ 0).kind = .lasting := by decide

theorem meets_FoldStores : (storeForm (.iStd (fc .la) 2 1 0)).isSome ∧ StoreFree (fc .la) run 1 (addrOf (fc .la) run 1 0) 8 ∧
    isRegs ((here (fc .la) run).region (addrOf (fc .la) run 1 0)) = false ∧ (here (fc .la) run).core.jovf = false ∧
    (here (fc .la) run).core.journal.length < (here (fc .la) run).g F.FOLD_BUDGET_JLIMIT := by
  unfold StoreFree; decide

theorem meets_HeldAndCompanionStores : StoreFree (fc .la) run 7 (addrOf (fc .la) run 7 0) 8 ∧
    isRegs ((here (fc .la) run).region (addrOf (fc .la) run 7 0)) = true ∧ (here (fc .la) run).core.stores.length < 32 ∧
    StoreFree (cc .la) run 1 (addrOf (cc .la) run 1 0) 8 ∧ isRegs ((here (cc .la) run).region (addrOf (cc .la) run 1 0)) = false ∧
    StoreFree (cc .la) run 7 (addrOf (cc .la) run 7 0) 8 ∧ isRegs ((here (cc .la) run).region (addrOf (cc .la) run 7 0)) = true ∧
    (here (cc .la) (both { exe with comp := { exe.comp with w := [(1, 0x20002800)] } })).region
      (addrOf (cc .la) (both { exe with comp := { exe.comp with w := [(1, 0x20002800)] } }) 1 0) = .sharedComp := by
  unfold StoreFree; decide

/-- The output image for SCODE: 0x20001000 in w1, an invalid code in w2. -/
theorem meets_StoreTraps : foldMayStore ((here (fc .la) run).region 0x2000) 0x2000 = false ∧
    (foldMayStore ((here (fc .la) run).region 0x10000001) 0x10000001 = true ∧ misaligned true 0x10000001 8 = true) ∧
    (here (fc .la) run).offStack false 31 (addrOf (fc .la) run 31 0) 8 = true ∧
    StoreFree (fc .la) (runCore (fun k => { k with w := [(1, 0x20001000)] })) 1
      (addrOf (fc .la) (runCore (fun k => { k with w := [(1, 0x20001000)] })) 1 0) 8 ∧
    safeValid ((here (fc .la) (runCore (fun k => { k with w := [(1, 0x20001000)] }))).w false 2) = false := by
  unfold StoreFree; decide

theorem meets_BranchIfEqual : 0 < signed16 1 ∧ signed16 0 ≤ 0 ∧ signed16 65535 ≤ 0 ∧
    (here (fc .la) run).w false 2 = (here (fc .la) run).w false 3 ∧ (here (fc .la) run).w false 1 ≠ (here (fc .la) run).w false 2 := by
  decide

theorem meets_LoopStart : (here (fc .la) run).core.loops.length < 4 ∧ (4096 : Fin 65536).val ≤ 4096 ∧ 4096 < (4097 : Fin 65536).val ∧
    4 ≤ (here (fc .la) (runCore (fun k => { k with loops := List.replicate 4 ⟨0x104, 0x10C, 3, 0⟩ }))).core.loops.length ∧
    FoldReady (fc .la) (runCore (fun k => { k with loops := List.replicate 4 ⟨0x104, 0x10C, 3, 0⟩ })) := by
  unfold FoldReady CleanFetch; decide

/-- The last instruction of a body with passes left, with the last pass, and an inner instruction. -/
theorem meets_LoopRule : ∃ (v : LoopLevel) (x : LogicDie), x.core.loops = [v] ∧ v.depth = x.core.callDepth ∧ v.last = 0x10C ∧ 1 < v.left ∧
    v.start ≤ 0x108 ∧ 0x108 ≤ v.last :=
  ⟨⟨0x104, 0x10C, 2, 0⟩, { exe with core := { exe.core with loops := [⟨0x104, 0x10C, 2, 0⟩] } }, by decide⟩

theorem meets_Call : (here (fc .la) run).core.callDepth < 8 ∧
    8 ≤ (here (fc .la) (runCore (fun k => { k with callDepth := 8 }))).core.callDepth ∧
    FoldReady (fc .la) (runCore (fun k => { k with callDepth := 8 })) := by
  unfold FoldReady CleanFetch; decide

/-- A state that has called once from 0x100, to return to 0x104; one with a misaligned copy. -/
theorem meets_Return :
    (0 < (here (fc .la) (runCore (fun k => { k with callDepth := 1, rets := [0x104], w := [(30, 0x104)] }))).core.callDepth ∧
      (here (fc .la) (runCore (fun k => { k with callDepth := 1, rets := [0x104], w := [(30, 0x104)] }))).core.rets.head? =
        some ((here (fc .la) (runCore (fun k => { k with callDepth := 1, rets := [0x104], w := [(30, 0x104)] }))).w false 30).toNat) ∧
    (here (fc .la) run).core.callDepth = 0 ∧
    (here (fc .la) (runCore (fun k => { k with callDepth := 1, rets := [0x106], w := [(30, 0x106)] }))).core.rets.head? = some 0x106 ∧
    ((here (cc .la) run).w true 30).toNat % 4 = 0 ∧ ((here (cc .la) run).w true 5).toNat % 4 ≠ 0 := by decide

theorem meets_RegisterJumps : pcOf (fc .la) run < ((here (fc .la) run).w false 6).toNat ∧ ((here (fc .la) run).w false 6).toNat % 4 = 0 ∧
    ((here (fc .la) run).w false 2).toNat ≤ pcOf (fc .la) run ∧ pcOf (fc .la) run < ((here (fc .la) run).w false 5).toNat ∧
    ((here (fc .la) run).w false 5).toNat % 4 ≠ 0 ∧ ((here (cc .la) run).w true 6).toNat % 4 = 0 := by decide

/-! ### Images, telegrams, system registers -/

theorem meets_ImageOut : safeValid ((here (fc .la) run).w false 4) = true ∧ Room (here (fc .la) run) 1 ∧
    safeValid ((here (fc .la) run).w false 2) = false ∧ (here (fc .la) run).core.attempt = 0 ∧ (here (fc .la) run).windowMode = false ∧
    (here (fc .la) (both (fields [(F.FC_LSCFG_MODE, 0, 1)] exe))).windowMode = true := by
  unfold Room; decide

/-- A die with connection 3 open for sending, w1 = data memory, w2 = 8 bytes on it, w3 an unconfigured one, w4 too long. -/
def telDie : LogicDie :=
  fields [(F.VCT_TXC_EN, 3, 1)] { exe with core := { exe.core with w := [(1, 0x10000000), (2, 0x0803), (3, 0x0804), (4, 0x4103)] } }

theorem meets_TelegramSend : FoldReady (fc .la) (both telDie) ∧ (here (fc .la) (both telDie)).txConfigured 3 = true ∧
    (here (fc .la) (both telDie)).txConfigured 4 = false ∧ ((here (fc .la) (both telDie)).w false 2).toNat % 256 = 3 ∧
    ((here (fc .la) (both telDie)).w false 2).toNat / 256 % 128 = 8 ∧
    (∀ j, j < 8 → (here (fc .la) (both telDie)).region (0x10000000 + j / 8 * 8) = .data) ∧
    64 < ((here (fc .la) (both telDie)).w false 4).toNat / 256 % 128 := by
  unfold FoldReady CleanFetch; decide

/-- No payload held on connection 3; 8 bytes held on connection 5. -/
theorem meets_TelegramReceive : (here (fc .la) (both telDie)).recvPayload 3 = [] ∧ Room (here (fc .la) (both telDie)) 1 ∧
    (∀ j, j < 1 → (here (fc .la) (both telDie)).region (0x10000000 + 8 * j) = .data) := by
  unfold Room; decide

theorem meets_SystemRegisters : (∃ v, ((0x008 : Nat), v) ∈ foldSys .la (atIssue (fc .la) run (.iMovs (fc .la) 3 0x008))) ∧
    (∃ v, ((0x034 : Nat), v) ∈ compSys .la (atIssue (cc .la) run (.iMovs (cc .la) 3 0x034))) ∧
    (∀ p ∈ foldSys .la (here (fc .la) run), p.1 ≠ 0x034) ∧ (∀ p ∈ compSys .la (here (cc .la) run), p.1 ≠ 0x021) ∧
    (∃ f, compWrites[4]? = some (0x033, 0xFF, f)) ∧ (here (cc .la) run).w true 2 &&& 0xFF ≠ 0 ∧
    (here (cc .la) run).w true 6 &&& 0xFF = 0 ∧ ((here (fc .la) run).w false 2).toNat < 2 ^ 39 ∧
    2 ^ 39 ≤ ((here (fc .la) run).w false 4).toNat := by
  refine ⟨?_, ?_, by decide, by decide, ⟨_, rfl⟩, by decide, by decide, by decide, by decide⟩ <;>
    simp [foldSys, compSys]

/-- Line 8 pending and enabled on a companion core that takes interrupts. -/
def irqDie : LogicDie :=
  fields [(F.SI_CHG_BITS, 0, 1), (F.SI_IRQEN_BITS, 0, 1)] { exe with comp := { exe.comp with estatus := 1, irqEnable := 0x100 } }

theorem meets_CompanionControl : ((both irqDie).la.at 5).compRuns = true ∧ ((both irqDie).la.at 5).coreHalted 2 = false ∧
    Word.bits ((both irqDie).la.at 5).comp.estatus 0 0 = 1 ∧ ((both irqDie).la.at 5).irqLines.testBit 8 = true ∧
    ((both irqDie).la.at 5).comp.irqEnable.toNat.testBit 8 = true ∧
    (∀ k, k < 8 → ((both irqDie).la.at 5).irqLines.testBit k = false) ∧ (here (cc .la) run).comp.epc.toNat % 4 = 0 ∧
    (here (cc .la) (both { exe with comp := { exe.comp with epc := 0x2002 } })).comp.epc.toNat % 4 ≠ 0 ∧
    CompReady (cc .la) (both { exe with comp := { exe.comp with epc := 0x2002 } }) := by unfold CompReady CleanFetch; decide

/-! ### Held effects -/

/-- Check-value unit 1 belongs to the companion core, timer 2 is the companion's. -/
def ckDie : LogicDie := fields [(F.CK_OWN_OWNER, 1, 2), (F.GT_CFG_CWR, 2, 1)] exe

theorem meets_HeldEffects : CompReady (cc .la) (both ckDie) ∧ (here (cc .la) (both ckDie)).g F.CK_OWN_OWNER 1 = 2 ∧
    (here (cc .la) (both ckDie)).g F.CK_STAT_BUSY 1 ≠ 1 ∧ (here (cc .la) (both ckDie)).g F.GT_CFG_CWR 2 ≠ 0 ∧
    (here (cc .la) (both ckDie)).g F.GT_CFG_CWR 3 = 0 ∧ (here (cc .la) (both ckDie)).gtRuns 2 = false ∧
    (here (fc .la) run).core.cks.length < 64 ∧ (here (fc .la) run).core.logs.length < 16 ∧
    16 ≤ (here (fc .la) (runCore (fun k => { k with logs := List.replicate 16 ⟨0x8000, 0⟩ }))).core.logs.length ∧
    0x8000 ≤ (0x8000 : Fin 65536).val ∧ (0x7FFF : Fin 65536).val < 0x8000 := by
  unfold CompReady CleanFetch; decide

/-- LA_IO to FALLOW, an unassigned state, and a ninth request. -/
theorem meets_DomainInstruction : ((here (fc .la) run).w false 2).toNat < 10 ∧ ((here (fc .la) run).w false 0).toNat < 3 ∧
    (here (fc .la) run).core.doms.length < 8 ∧ 3 ≤ ((here (fc .la) run).w false 2).toNat ∧
    8 ≤ (here (fc .la) (runCore (fun k => { k with doms := List.replicate 8 ⟨3, 1⟩ }))).core.doms.length := by decide

/-! ### Safety instructions -/

theorem meets_SafeLogic : (safeForm (.iSand (fc .la) 3 4 4)).isSome ∧ AllCodes ((here (fc .la) run).w false 4) ∧
    ¬ AllCodes ((here (fc .la) run).w false 2) := by
  unfold AllCodes
  refine ⟨rfl, by decide, fun h => ?_⟩
  have := h 31 (by omega)
  revert this; decide

/-- A die whose slots 0 to 8 have TYPE 1 to 9, slot 1008 TYPE 10 with its interlock in slot 3; w4 and w8 hold valid codes. -/
def slotDie : LogicDie :=
  (((List.range 9).foldl (fun (x : LogicDie) n => x.st64 (slotAddr n 0) (BitVec.ofNat 64 (n + 1))) exe).st64 (slotAddr 1008 0)
    (BitVec.ofNat 64 (10 + 3 * 2 ^ 16))).st64 0x20000020 0x5555555555555555

theorem meets_EvaluationSlots : FoldReady (fc .la) (both slotDie) ∧ (here (fc .la) (both slotDie)).slotType 0 = 1 ∧
    (here (fc .la) (both slotDie)).slotType 1 = 2 ∧ (here (fc .la) (both slotDie)).slotType 2 = 3 ∧
    (here (fc .la) (both slotDie)).slotType 3 = 4 ∧ Room (here (fc .la) (both slotDie)) 3 ∧
    Valid (inputCode (here (fc .la) (both slotDie)) 0) ∧ Valid (inputCode (here (fc .la) (both slotDie)) 1) ∧
    Valid (safeCode ((here (fc .la) (both slotDie)).w false 4) 0) ∧ ¬ Valid (safeCode ((here (fc .la) (both slotDie)).w false 0) 0) := by
  unfold FoldReady CleanFetch Room Valid; decide

theorem meets_MonitoringSlots : (here (fc .la) (both slotDie)).slotType 4 = 5 ∧ (here (fc .la) (both slotDie)).slotType 5 = 6 ∧
    (here (fc .la) (both slotDie)).slotType 6 = 7 ∧ (here (fc .la) (both slotDie)).slotType 7 = 8 ∧
    (here (fc .la) (both slotDie)).slotType 8 = 9 ∧ Valid (safeCode ((here (fc .la) (both slotDie)).w false 4) 3) := by
  unfold Valid; decide

theorem meets_Zones : (here (fc .la) (both slotDie)).slotType 1008 = 10 ∧ (here (fc .la) (both slotDie)).cfgA 1008 25 16 = 3 ∧
    (here (fc .la) (both slotDie)).slotType 1009 ≠ 10 ∧ Room (here (fc .la) (both slotDie)) 3 := by
  unfold Room; decide

theorem meets_FoldTraps : exe.windowMode = false ∧ (fields [(F.FC_LSCFG_MODE, 0, 1)] exe).windowMode = true ∧ exe.core.jovf = false ∧ exe.core.attempt = 0 ∧ (Trap.plain .scode).cls ≠ .memecc ∧
    (Trap.plain .budget).cls = .budget ∧ ({ exe.core with attempt := 1 } : FoldCore).attempt ≠ 0 := by decide

/-! ### Inputs, folds, registers, snapshots -/

/-- A die of `both x` at 100 ns, and the device; the die that a statement calls x. -/
def at100 (x : LogicDie) : LogicDie := ((both x).die .la).at 100

/-- Input 0 samples with N = 2; input 1 is bound to source 0; the dark sampling of input 2 is on. -/
def siDie : LogicDie :=
  fields [(F.SI_CTRL_SAMPLING, 0, 1), (F.SI_CFG_N, 0, 2), (F.SI_STAT_COUNT, 0, 1), (F.SI_CFG_DARK, 2, 1), (F.SI_CFG_BIND, 1, 1),
    (F.SI_STAT_FILT, 1, 1), (F.SI_STAT_TEST, 1, 1), (F.SI_AICFG_MODE, 0, 1)] exe

theorem meets_InputSampling :
    (let x := ((both siDie).die .la).at 400
     x.sampled 0 = true ∧ WindowDue x .la 0 0 400 ∧ x.g F.SI_CFG_BIND 0 ≠ 1 ∧ x.g F.SI_STAT_TEST 0 < 3 ∧ x.g F.SI_CFG_CAPEN 0 ≠ 1 ∧
     0 < x.g F.SI_CFG_N 0 ∧ min (x.g F.SI_STAT_COUNT 0 + 1) (x.g F.SI_CFG_N 0) = x.g F.SI_CFG_N 0 ∧ x.g F.SI_STAT_COUNT 0 - 1 = 0 ∧
     x.g F.SI_STAT_FILT 0 ≠ 1) ∧
    (((both siDie).die .lb).at 2900).sampled 0 = true ∧ WindowDue (((both siDie).die .lb).at 2900) .lb 0 2500 2900 ∧
    (at100 (fields [(F.SI_STAT_FILT, 0, 1)] siDie)).g F.SI_STAT_FILT 0 = 1 ∧
    (let x := ((both siDie).die .la).at 2900
     x.sampled 2 = true ∧ x.g F.SI_CFG_DARK 2 = 1 ∧ x.darkDue .la 2 2500 = true ∧ 2500 + x.g F.SI_GRP_WIN 0 * 25 ≤ 2900 ∧
     2900 ≤ 2500 + x.g F.SI_GRP_WIN 0 * 25 + 350 ∧ x.g F.SI_STAT_DARKPEND 2 ≠ 1 ∧ x.g F.SI_STAT_TEST 2 ≠ 5) ∧
    (let y := fields [(F.SI_STAT_DARKPEND, 2, 1)] siDie
     let x := ((both (y.setInp 2 { y.inp 2 with lastDark := some 2500 })).die .la).at 7900
     x.sampled 2 = true ∧ x.darkDue .la 2 7500 = true ∧ x.g F.SI_STAT_DARKPEND 2 = 1 ∧ x.g F.SI_STAT_TEST 2 < 3) ∧
    (at100 siDie).g F.SI_AICFG_MODE 0 = 1 ∧ Sparse.get (fun _ => 0) (at100 siDie).inSide.openedAt 0 + 100000000 ≤ 100000000 ∧
    (at100 siDie).g F.SI_GRP_TYPE 0 ≠ 1 ∧ (at100 siDie).g F.SI_CTRL_LOCK ≠ 1 := by unfold WindowDue; decide

/-- Source 0 in a pulse commanded low at 0, its readback low, with WMIN 0.5 µs and WMAX 0.8 µs; sources 1 and 2 with the two findings
of the readback; input 1 bound to source 0. -/
def tpDie : LogicDie :=
  let x := LogicDie.setSrc (fields [(F.TP_CTRL_ACTIVE, 0, 1), (F.TP_CTRL_EN, 0, 7), (F.TP_CFG_WMIN, 0, 5), (F.TP_CFG_WMAX, 0, 8), (F.TP_STAT_CMD, 1, 1),
    (F.TP_STAT_RB, 1, 0), (F.TP_STAT_CMD, 2, 0), (F.TP_STAT_RB, 2, 1), (F.SI_CTRL_SAMPLING, 0, 1), (F.PWR_DOM_STATE, 3, 2), (F.SI_CFG_BIND, 1, 1), (F.SI_STAT_FILT, 1, 1), (F.SI_STAT_TEST, 1, 1)] exe)
    0 { SourceSt.zero with blanks := [⟨0, true, false, false, none, 2, 0⟩] }
  x.setInp 1 { x.inp 1 with lastWin := some 0 }

theorem meets_TestPulses :
    (∀ t ∈ [600, 900], let x := ((both tpDie).die .la).at t
      x.tpChecked .la 0 = true ∧ (x.src 0).blanks = [⟨0, true, false, false, none, 2, 0⟩] ∧ x.g F.TP_CFG_WMIN 0 * 100 ≤ t ∧
      (t ≤ x.g F.TP_CFG_WMAX 0 * 100 ∨ x.g F.TP_CFG_WMAX 0 * 100 < t)) ∧
    (((both tpDie).die .la).at 100).g F.TP_CFG_WMIN 0 * 100 = 500 ∧ (((both tpDie).die .la).at 100).g F.TP_CFG_WMAX 0 * 100 = 800 ∧
    ((at100 (tpDie.setSrc 0 { tpDie.src 0 with blanks := [⟨0, false, false, false, none, 2, 0⟩] })).src 0).blanks = [⟨0, false, false, false, none, 2, 0⟩] ∧
    (let x := ((both (tpDie.setSrc 0 { tpDie.src 0 with blanks := [⟨0, true, true, true, some 2800, 2, 0⟩] })).die .la).at 2800
     (x.src 0).blanks = [⟨0, true, true, true, some 2800, 2, 0⟩] ∧ x.tpChecked .la 0 = true ∧ (∀ i ∈ x.boundTo 0, x.windowsIn .la i 0 2800 = true) ∧
     1 ∈ x.boundTo 0) ∧
    (let x := ((both tpDie).die .la).at 5000
     x.tpChecked .la 1 = true ∧ x.tpChecked .la 2 = true ∧ x.g F.TP_STAT_CMD 1 = 1 ∧ x.g F.TP_STAT_RB 1 = 0 ∧
      (x.src 1).epShort = false ∧ max (x.src 1).cmdAt (x.src 1).rbAt + 2000 < 5000 ∧ x.g F.TP_STAT_OVT 2 ≠ 1 ∧ x.g F.TP_STAT_CMD 2 = 0 ∧
      x.g F.TP_STAT_RB 2 = 1 ∧ (x.src 2).epStuck = false ∧ max (x.src 2).cmdAt (x.src 2).rbAt + 2000 < 5000 ∧
      (x.src 1).epNone = false ∧ (at100 exe).g F.TP_CTRL_ACTIVE ≠ 1 ∧ x.g F.TP_CTRL_ACTIVE = 1 ∧ (x.g F.TP_CTRL_EN).testBit 0 = true ∧
      (at100 (fields [(F.TP_STAT_OVT, 0, 1), (F.GT_STAT_PIN, 0, 1)] tpDie)).g F.TP_STAT_OVT 0 = 1 ∧
      (at100 (fields [(F.TP_STAT_OVT, 0, 1), (F.GT_STAT_PIN, 0, 1)] tpDie)).g F.GT_STAT_PIN 0 = 1 ∧
      max (x.src 1).lastLow x.inSide.activeAt + x.g F.TP_PER_PMAX 1 * 1000 ≤ 100000000 ∧
      x.sampled 1 = true ∧ x.g F.SI_CFG_BIND 1 = 1 ∧ x.g F.SI_CFG_SRC 1 = 0 ∧ x.g F.SI_STAT_FILT 1 = 1 ∧ x.g F.SI_STAT_TEST 1 = 1 ∧
      max (max (x.src 0).lastValid (x.inp 1).highAt) x.inSide.activeAt + (x.g F.TP_PER_PMAX 0 * 1000 +
        (x.g F.TP_CFG_WMAX 0 + x.g F.TP_CFG_SETTLE 0) * 100) ≤ 100000000) := by decide

/-- A die whose folds run, with a period of 1 ms, in a phase. -/
def inFold (p : FoldPhase) : LogicDie :=
  let x := fields [(F.FOLD_STATUS_RUNNING, 0, 1), (F.FOLD_PERIOD_PERIOD, 0, 1000)] exe
  { x with fold := { x.fold with phase := p } }

/-- A die of `both x` at an instant. -/
def atT (x : LogicDie) (t : Nat) : LogicDie := ((both x).die .la).at t

/-- A complete attempt in a phase of the fold that started at 0, with the agreement frame of an equal image or another received, and the
exchange frame. -/
def phaseDie (p : FoldPhase) (a : List Nat) : LogicDie :=
  let x := inFold p
  { x with
    core := { x.core with running := false, complete := true }
    fold := { x.fold with sent := [0, 0, 0, 0] }
    xl := { x.xl with rxExchange := some (List.replicate 64 0), rxAgreement := some a } }

theorem meets_ExchangeFrameContents : FrameFits ⟨5, 6, List.replicate 48 3, 2, List.replicate 8 65535, 7⟩ := by
  unfold FrameFits; decide

theorem meets_FoldPhases :
    (∀ p, Folding (atT (inFold p) 1000000)) ∧ (atT (inFold .idle) 1000000).onGrid 1000000 = true ∧
    (atT (inFold .idle) 1000000).g F.GT_TBASE_TIME = 1000000 ∧ (atT (inFold .idle) 1000000).fold.begun = none ∧
    (inFold .sample).fold.start = 0 ∧ (atT (phaseDie .exchange []) 300).xl.rxExchange = some (List.replicate 64 0) ∧
    (0 < 300 ∧ 300 ≤ 0 + 550 ∧ 0 + 100 < 300) ∧ periodNs (atT (inFold .execute) 999300) = 1000000 ∧
    (atT (phaseDie .execute []) 999300).core.complete = true ∧ 999300 + 700 = 0 + 1000000 ∧
    (atT (phaseDie .agree (imageBytes [0, 0, 0, 0])) 999500).xl.rxAgreement = some (imageBytes [0, 0, 0, 0]) ∧
    (atT (phaseDie .agree (imageBytes [0, 0, 0, 0])) 999500).fold.sent = [0, 0, 0, 0] ∧
    (firstDiff (imageBytes [0, 0, 0, 0]) (imageBytes [0, 0, 5, 0])).isSome = true ∧ (0 + 1000000 < 999500 + 700 ∧ 999500 + 260 ≤ 1000000) ∧
    (∀ c, (((both (phaseDie .agree [])).setDie .la (atT (phaseDie .agree []) 999750)).die c).g F.DBG_STAT_HOLD ≠ 1) := by
  refine ⟨fun p => ?_, by decide, by decide, by decide, by decide, by decide, by decide, by decide, by decide, by decide, by decide,
    by decide, by decide, by decide, fun c => ?_⟩
  · unfold Folding; cases p <;> decide
  · cases c <;> decide

theorem meets_CommitAtEndOfY : Folding (atT (phaseDie .agreed []) 999750) ∧ (atT (phaseDie .agreed []) 999750).fold.phase = .agreed ∧
    999750 + 250 = 0 + 1000000 := by
  unfold Folding; decide

/-- A die in window compare mode, its attempt 5,000 cycles on, at the end of its fold task or not. -/
def windowDie (e : Option Ending) : LogicDie :=
  let x := fields [(F.FC_LSCFG_MODE, 0, 1), (F.FC_LSCFG_WIN, 0, 1000)] exe
  { x with core := { x.core with cycles := 5000, ending := e } }

theorem meets_AttemptAndRetry : Folding (atT (inFold .ready) 550) ∧ (inFold .ready).fold.start = 0 ∧ (at100 exe).core.running = true ∧
    (at100 exe).core.attempt = 0 ∧ (at100 exe).core.jovf = false ∧ (at100 exe).windowMode = false ∧
    (at100 (windowDie none)).windowMode = true ∧ (at100 (windowDie none)).core.ending = none ∧
    (at100 (windowDie none)).core.window + (at100 (windowDie none)).g F.FC_LSCFG_WIN ≤ (at100 (windowDie none)).core.cycles ∧
    (at100 (windowDie (some .fold))).core.ending = some .fold ∧ (at100 { exe with core := { exe.core with attempt := 1 } }).core.attempt ≠ 0 ∧
    (at100 { exe with hdr := { exe.hdr with triad := true } }).hdr.triad = true ∧ (at100 exe).core.masked = none ∧ (at100 exe).foldRuns = true ∧
    (at100 { exe with core := { exe.core with cycles := 100000 } }).g F.FOLD_BUDGET_BUDGET ≤ 100000 ∧
    (at100 { exe with core := { exe.core with rolling := true } }).core.rolling = true := by
  unfold Folding; decide

/-- The end of E with an incomplete attempt; with a complete one whose journal overflowed. -/
theorem meets_MissedFolds :
    let a := fun jovf : Bool => (atT { phaseDie .execute [] with core := { (phaseDie .execute []).core with jovf := jovf } } 999300)
    let b := (atT { phaseDie .execute [] with core := { (phaseDie .execute []).core with complete := false } } 999300)
    Folding (a false) ∧ Folding b ∧ (a false).fold.phase = .execute ∧ b.fold.phase = .execute ∧ 999300 + 700 = (a false).fold.start + periodNs (a false) ∧
    999300 + 700 = b.fold.start + periodNs b ∧ (a false).core.running = false ∧ b.core.running = false ∧ b.core.complete = false ∧
    (a false).core.jovf = false ∧ (a true).core.complete = true ∧ (a true).core.jovf = true ∧ (a true).goSafe.g F.FOLD_STATUS_SAFE = 1 := by
  unfold Folding; decide

/-- Both dies READY, each with its own proposal and the other's. -/
def readyDie (mine theirs : Nat × Nat) : LogicDie :=
  { fields [(F.FC_CTRL_READY, 0, 1)] LogicDie.reset with fc := { FcSt.reset with mine := some mine, theirs := some theirs } }

theorem meets_Resumption :
    let s : State := { both (readyDie (3, 5000) (4, 6000)) with lb := readyDie (4, 6000) (3, 5000) }
    s.la.fc.mine = some (3, 5000) ∧ s.lb.fc.mine = some (4, 6000) ∧ s.la.fc.theirs = some (4, 6000) ∧ s.lb.fc.theirs = some (3, 5000) ∧
    (∀ d, (s.die d).g F.FC_CTRL_READY = 1 ∧ (s.die d).g F.FC_CTRL_LOCKED ≠ 1 ∧ (s.die d).g F.FC_CTRL_NORESUME ≠ 1 ∧
      (s.die d).g F.FOLD_STATUS_CFG_REJECT ≠ 1) := by
  refine ⟨rfl, rfl, rfl, rfl, fun d => ?_⟩
  cases d <;> decide

/-- A die with a frame to send in the exchange slot, sent once more already or not. -/
def xlDie (again : Bool) : LogicDie := { exe with xl := ⟨4, [⟨3, .exchange (List.replicate 64 0), 0, again⟩], none, none, []⟩ }

theorem meets_CrosslinkAndPowerLinks : ((at100 (xlDie false)).xhead 0 = some ⟨3, .exchange (List.replicate 64 0), 0, false⟩) ∧
    (at100 (xlDie true)).xhead 0 = some ⟨3, .exchange (List.replicate 64 0), 0, true⟩ ∧ (xlDie false).boot.xlCut = false ∧
    (∀ c, ((both (xlDie true)).die c |>.at 100).g F.DBG_STAT_HOLD ≠ 1) := by
  refine ⟨by decide, by decide, by decide, fun c => ?_⟩
  cases c <;> decide

theorem meets_RegisterWrites : regAt .la 0x40008010 = some (.FC_QUIET, 0) ∧ Reg.FC_QUIET ∉ ownDieRule ∧
    (at100 exe).busDenies .la .companion 0x40008010 5#64 = false ∧ regAt .la 0x40FFFFF8 = none ∧ unnamed .FC_QUIET 63 ∧
    hostRegAt 0x20010 = some (.HFC_QUIET, 0) ∧ Reg.HFC_QUIET ∉ ownHostRule ∧
    (HostDie.reset.at 100).busDenies .hostFirmware 0x20010 5#64 = false ∧ hostRegAt 0xFFFFF8 = none ∧ unnamed .HFC_QUIET 63 ∧
    HostDie.reset.pw.nrstAt = none ∧ State.reset.host.pw.nrstAt.isSome = true := by
  unfold unnamed; decide

theorem meets_RegisterAccess : (at100 exe).g (DieBlock.bit .fc) ≠ 1 ∧ (at100 (fields [(F.FC_CTRL_LOCK, 0, 1)] exe)).g (DieBlock.bit .fc) = 1 ∧
    (at100 exe).g F.FOLD_CTRL_LOCK ≠ 1 ∧ (at100 exe).g F.ADC_CTRL_LOCK ≠ 1 ∧ (at100 exe).g F.CK_STAT_BUSY 0 ≠ 1 ∧ (at100 (fields [(F.CK_STAT_BUSY, 0, 1)] exe)).g F.CK_STAT_BUSY 0 = 1 ∧
    ((at100 exe).region 0x40000000).memory = none ∧ ((at100 exe).region 0x10000000).memory = some 1 ∧
    regAddr .FOLD_EXEC 0 % 8 = 0 ∧ HostDie.reset.g F.HSTL_DL_STAT_BUSY ≠ 1 ∧
    (hostFields [(F.HSTL_DL_STAT_BUSY, 0, 1), (F.HSTL_STAT_CACHE_VALID, 0, 1)] HostDie.reset).g F.HSTL_DL_STAT_BUSY = 1 ∧
    (hostFields [(F.HSTL_DL_STAT_BUSY, 0, 1), (F.HSTL_STAT_CACHE_VALID, 0, 1)] HostDie.reset).g F.HSTL_STAT_CACHE_VALID = 1 ∧
    crc32c (bytesLE 8 0) ≠ 0 ∧ crc32c (bytesLE 8 0) < 2 ^ 32 ∧ hostRegAt 0x20010 ≠ some (.FOLD_SNAP_LEASE, 0) := by decide

/-- Both outcomes of the admission check are met. -/
theorem meets_FoldLock : ∃ x y : LogicDie, x.admits (x.g F.PWR_PL_CUR) = false ∧
    y.admits (y.g F.PWR_PL_CUR) = true ∧ x.g F.FOLD_CTRL_LOCK ≠ 1 ∧ y.g F.FOLD_CTRL_LOCK ≠ 1 := 
  ⟨fields [(F.FOLD_PERIOD_PERIOD, 0, 1)] exe, fields [(F.FOLD_PERIOD_PERIOD, 0, 1000)] exe, by decide⟩

theorem meets_Snapshots : HostDie.reset.snap.lease = none ∧
    ({ HostDie.reset with snap := { SnapSt.reset with lease := some (1, 0), slot := some (0, 1) } } : HostDie).snap.lease = some (1, 0) ∧
    HostDie.reset.snap.expiredAt = none ∧ ({ HostDie.reset with snap := { SnapSt.reset with expiredAt := some 100 } }.at 100 : HostDie).snap.expiredAt = some 100 ∧
    100 < 0 + (hostFields [(F.FOLD_SNAP_CFG_LEASE_US, 0, 50)] HostDie.reset).g F.FOLD_SNAP_CFG_LEASE_US * 1000 ∧
    0 + (hostFields [(F.FOLD_SNAP_CFG_LEASE_US, 0, 50)] HostDie.reset).g F.FOLD_SNAP_CFG_LEASE_US * 1000 ≤ 50000 := by decide

/-- A logic die with a message on its way to the host die, and the device of two of them. -/
def sender (m : StileMsg) : LogicDie :=
  { LogicDie.reset with
    stl := { LinkEnd.reset with opened := true, heard := true, unacked := [⟨0, m, false, false, 0⟩] }
    boot := { BootSt.reset with phase := .hello } }

def toHost (m : StileMsg) : State := both (sender m)

/-- The device with a message on its way from the host die to a logic die `x`. -/
def toDie (m : StileMsg) (x : LogicDie) : State :=
  { both { x with boot := { x.boot with phase := .hello } } with
    host := { HostDie.reset with linkA := { LinkEnd.reset with opened := true, heard := true, unacked := [⟨0, m, false, false, 0⟩] } } }

theorem meets_FoldDonePairing :
    ((toHost (.foldDone ⟨false, [1, 2, 3, 4]⟩)).modHost (·.at 100)).incoming .la true = some (.foldDone ⟨false, [1, 2, 3, 4]⟩) ∧
    (toHost (.foldDone ⟨false, [1, 2, 3, 4]⟩)).host.snap.wait .la = none ∧ (FoldDone.mk false [1, 2, 3, 4]).word 0 = (FoldDone.mk false [1, 5, 6, 4]).word 0 ∧
    (FoldDone.mk false [1, 2, 3, 4]).word 3 = (FoldDone.mk false [1, 5, 6, 4]).word 3 ∧
    (FoldDone.mk false [1, 2, 3, 4]).word 3 ≠ (FoldDone.mk false [1, 2, 3, 5]).word 3 := by decide

/-! ### The commands that complete: what their statements ask beside the ones above -/

theorem meets_RegisterCommandsComplete :
    (let x := at100 (fields [(F.CK_STAT_BUSY, 0, 1), (F.CK_DMA_ADDR, 0, 0x10000000), (F.CK_DMA_LEN, 0, 16)] exe)
     x.g F.CK_STAT_BUSY 0 = 1 ∧ (x.region 0x40000000).memory = none ∧ x.g F.CK_DMA_LEN 0 = 16 ∧
     (∀ k, k ≤ 16 → isRegs (x.region (x.g F.CK_DMA_ADDR 0 / 8 * 8 + 8 * k)) = false)) ∧
    regAddr .FOLD_EXEC 0 % 8 = 0 ∧ (at100 exe).g (DieBlock.bit .fc) ≠ 1 ∧ (at100 exe).g F.FOLD_CTRL_LOCK ≠ 1 ∧
    HostDie.reset.pw.nrstAt = none ∧ (HostDie.reset.at 100).g F.HSTL_STAT_CACHE_VALID ≠ 1 ∧ (HostDie.reset.at 100).g F.HSTL_DL_STAT_BUSY ≠ 1 ∧
    hostRegAt 0x20010 = some (.HFC_QUIET, 0) ∧ (∀ f ∈ (Reg.HFC_QUIET).layout.fields, f.acc ≠ .wo) ∧
    Reg.HFC_QUIET ∉ [Reg.HFC_ACT, .BB_PORT, .BB_PCNT, .BB_GCL, .FOLD_SNAP_LEASE] ∧ Reg.HFC_QUIET ∉ ownHostRule ∧
    (HostDie.reset.at 100).busDenies .hostBar 0x20010 5#64 = false ∧ crc32c (bytesLE 8 (5#64).toNat) < 2 ^ 32 ∧
    crc32c (List.map (·.toNat) [1#8, 2#8, 3#8, 4#8, 5#8, 6#8, 7#8, 8#8]) < 2 ^ 32 := by decide

theorem meets_FoldCommandsComplete :
    (let x := atT (phaseDie .exchange []) 300
     x.exchangeEvents (XFrame.ofPayload (List.replicate 64 0)) (x.pairs x.fold.frame.halves (XFrame.ofPayload (List.replicate 64 0)).halves) = []) ∧
    (atT (fields [(F.FOLD_STATUS_STARTED, 0, 1)] (phaseDie .execute [])) 999300).g F.FOLD_STATUS_STARTED = 1 ∧
    (let s := both (phaseDie .agreed [])
     let u := s.setDie .la (atT (phaseDie .agreed []) 999750)
     ((u.modDie .la (fun x => x.endY .la u.ioReady (u.la.dom 4 == 2) 999750)).die .la).g F.FOLD_STATUS_SAFE ≠ 1) := by decide

theorem meets_AttemptCommandsComplete :
    (at100 { exe with core := { exe.core with cycles := 100000 } }).windowMode = false ∧
    (at100 { exe with core := { exe.core with cycles := 100000 } }).foldRuns = true ∧
    (at100 { exe with core := { exe.core with cycles := 100000 } }).g F.FOLD_BUDGET_BUDGET ≤ 100000 := by decide

/-! ### Stile, rings, timers -/

/-- An open link with message 0 sent and message 1 behind it. -/
def openLink : LinkEnd :=
  { LinkEnd.reset with opened := true, heard := true, next := 2, unacked := [⟨0, .timeSync 5 true, false, false, 0⟩, ⟨1, .imageBegin 8, false, false, 0⟩] }

/-- The device whose links are open at both ends, the other end naming message 0. -/
def linked2 : State :=
  { both { fields [(F.STL_STAT_LINK, 0, 1)] LogicDie.reset with stl := openLink, boot := { BootSt.reset with phase := .hello } } with
    host := { HostDie.reset with
      linkA := { openLink with cw := some 0 }, linkB := openLink } }

theorem meets_ControlWords : (linked2.endAt .la false 100).sendsCtl .la false 100 = true ∧ (linked2.endAt .la false 100).hears .la false = true ∧
    (linked2.endAt .la false 100).sendsCtl .la true 100 = true ∧ ((linked2.endAt .la false 100).linkEnd .la true).cw = some 0 ∧
    ((linked2.endAt .la false 100).linkEnd .la false).unacked = [] ++ ⟨0, .timeSync 5 true, false, false, 0⟩ :: [⟨1, .imageBegin 8, false, false, 0⟩] ∧
    ((linked2.endAt .la true 100).linkEnd .la false).cw = none ∧ (linked2.endAt .la true 100).hears .la true = true ∧
    (run.endAt .la false 100).sendsCtl .la false 100 = false := by decide

theorem meets_ResendAndLinkFault : linked2.la.stl.down = false ∧ linked2.la.stl.missed = false ∧ linked2.la.g F.STL_STAT_LINK = 1 ∧
    ((linked2.la.at 100).stl.unacked.head?.map (·.resent)) = some false ∧ (linked2.host.at 100).down.busy = false ∧
    ((linked2.host.at 100).link .la).unacked.length = 2 ∧ ({ openLink with missed := true } : LinkEnd).missed = true := by decide

theorem meets_DiscardAndReturn : linked2.la.boot.phase.alive = true ∧ linked2.host.muted = false ∧ linked2.host.pw.nrstAt = none ∧
    ({ linked2.la with stl := { openLink with down := true, quiet := 100 } } : LogicDie).stl.down = true ∧
    ({ linked2.la with stl := { openLink with down := true, quiet := 100 } } : LogicDie).stl.quiet ≤ 100 ∧ (linked2.host.link .la).quiet ≤ 100 := by decide

theorem meets_TimeSynchronisation : ((toDie (.timeSync 20 true) exe).modDie .la (·.at 100)).incoming .la false = some (.timeSync 20 true) ∧
    ((toDie (.timeSync 20 false) exe).modDie .la (·.at 100)).incoming .la false = some (.timeSync 20 false) ∧
    -(2 ^ 31) ≤ (100 : Int) - 80 - 20 ∧ (run.host.linkA.opened = false ∧ run.host.linkB.opened = false) ∧
    (∀ l, (linked2.host.link l).opened = true ∧ (linked2.host.link l).heard = true) := by
  refine ⟨by decide, by decide, by decide, by decide, fun l => ?_⟩
  cases l <;> decide

/-- A device-safe note. -/
def aNote : FaultNote := ⟨5, 6, 35, 35, 3, true, false, false, 0, 0⟩

theorem meets_FaultNotes : ((toDie (.faultNote aNote) exe).modDie .la (·.at 100)).incoming .la false = some (.faultNote aNote) ∧
    ((toHost (.faultNote { aNote with cls := 1 })).modHost (·.at 100)).incoming .la true = some (.faultNote { aNote with cls := 1 }) ∧
    (run.modHost (·.at 100)).incoming .la true = none ∧ ({ exe with xl := ⟨0, [], none, none, [.accepted 3 9 1, .fault aNote]⟩ } : LogicDie).xl.inbox = [.accepted 3 9 1] ++ .fault aNote :: [] ∧
    (∀ m, XNote.fault m ∉ [XNote.accepted 3 9 1]) := by
  refine ⟨by decide, by decide, by decide, rfl, fun m h => ?_⟩
  simp at h

/-- A transmit ring at 4,096 with one entry of a type, for route 1 (LA), of a length. -/
def txHost (type len : Nat) : HostDie :=
  { hostFields [(F.HSTL_TXRING_BASE, 0, 1), (F.HSTL_TXPTR_HEAD, 0, 1)] HostDie.reset with
    mem := pokeBytes [] 4096 [type, 0, 0x10, 0, len, 0, 0, 0, 0, 0, 0, 0, 1, 2, 3] }

theorem meets_HostRings : (txHost 0x0E 16).g F.HSTL_TXPTR_TAIL ≠ (txHost 0x0E 16).g F.HSTL_TXPTR_HEAD ∧
    (txHost 0x0E 16).g F.HSTL_TXRING_BASE * 4096 + 1040 * (txHost 0x0E 16).g F.HSTL_TXPTR_TAIL = 4096 ∧
    (txHost 0x0E 16).byte 4098 / 16 = Ch.num .la + 1 ∧ (txHost 0x0E 16).byte 4096 = 0x0E ∧
    ((txHost 0x0E 16).bytes 4108 (min (ofBytesLE ((txHost 0x0E 16).bytes 4100 2)) 1028)).length = 16 ∧
    ((txHost 0x12 32).bytes 4108 (min (ofBytesLE ((txHost 0x12 32).bytes 4100 2)) 1028)).length = 32 ∧
    (txHost 0x12 32).byte 4096 = 0x12 ∧ (txHost 0x12 32).bistWait = [] ∧ (txHost 0x12 32).bistOut < 2 ∧
    (txHost 0x20 8).byte 4096 ∉ [0x0E, 0x10, 0x12] ∧ HostDie.reset.g F.HSTL_TXPTR_TAIL = HostDie.reset.g F.HSTL_TXPTR_HEAD ∧
    (hostFields [(F.HSTL_RXPTR_HEAD, 0, 63)] HostDie.reset).g F.HSTL_RXPTR_HEAD + 1 = 64 := by decide

theorem meets_HostReceives : ((toHost (.powerReq 2 5 2 9)).modHost (·.at 100)).incoming .la true = some (.powerReq 2 5 2 9) ∧
    ((toHost (.bistRes 1 4 0 0 9 [])).modHost (·.at 100)).incoming .lb true = some (.bistRes 1 4 0 0 9 []) ∧ (hostFields [(F.PWR_HWAKE_FIELD, 0, 0)] (toHost (.powerReq 4 5 2 9)).host).g F.PWR_HWAKE_FIELD ≠ 1 ∧
    (toHost (.bistRes 1 4 0 0 9 [])).host.bistWait = [] := by decide

theorem meets_LogTransport : ((toHost (.logRecord [⟨1, 2, 3, 4, 5, 6⟩] 0)).modHost (·.at 100)).incoming .la true = some (.logRecord [⟨1, 2, 3, 4, 5, 6⟩] 0) ∧
    HostDie.reset.unstreamed < 32768 ∧ (at100 exe).g F.LOG_STAT_UNSENT ≤ (at100 exe).logInFlight ∧
    (at100 (fields [(F.LOG_STAT_UNSENT, 0, 3)] exe)).logInFlight < (at100 (fields [(F.LOG_STAT_UNSENT, 0, 3)] exe)).g F.LOG_STAT_UNSENT ∧
    (let h := hostFields [(F.LOG_HCTRL_EN, 0, 1), (F.LOG_HSIZE_HSIZE, 0, 7)] { HostDie.reset with unstreamed := 1 }
     h.g F.LOG_HCTRL_EN = 1 ∧ h.unstreamed ≠ 0 ∧ h.unread < 2 ^ h.g F.LOG_HSIZE_HSIZE - 1 ∧ h.g F.LOG_HCTRL_IRQ ≠ 1) := by decide

theorem meets_Requests : HostDie.reset.g F.HSTL_REQ_CMD_BUSY ≠ 1 ∧ (hostFields [(F.HSTL_REQ_CMD_BUSY, 0, 1)] HostDie.reset).g F.HSTL_REQ_CMD_BUSY = 1 ∧
    HostDie.reset.snapField 0x20 4 = 0 ∧ ((toHost (.hostRep 2 0 7 8 9)).modHost (·.at 100)).incoming .la true = some (.hostRep 2 0 7 8 9) ∧
    ({ HostDie.reset with req := ⟨1, 0, 0, 0, 0, 0⟩ } : HostDie) ≠ HostDie.reset ∧
    ((toDie (.hostReq 1 7 0x10002000 0) exe).modDie .la (·.at 100)).incoming .la false = some (.hostReq 1 7 0x10002000 0) ∧
    mayLoad true ((at100 exe).region 0x10002000) = true ∧ isRegs ((at100 exe).region 0x10002000) = false ∧
    mayLoad true ((at100 exe).region 0x100) = false ∧ (at100 exe).region 0x40008010 = .dieRegs ∧ (at100 exe).compMayWrite 0x40008010 = true ∧
    (at100 exe).busDenies .la .hostReq 0x40008010 (BitVec.ofNat 64 5) = false ∧
    (at100 exe).g F.FOLD_STATUS_STARTED ≠ 1 ∧ (at100 (fields [(F.FOLD_STATUS_STARTED, 0, 1)] exe)).g F.FOLD_STATUS_STARTED = 1 ∧
    (at100 (inFold .idle)).g F.FOLD_STATUS_RUNNING = 1 ∧ (at100 (inFold .idle)).now + 20000 = 20100 := by decide

/-- Timer 2 counts below its top, timer 3 stands at 2^32 - 1, timer 4 is cascaded; the block is locked. -/
def gtDie : LogicDie :=
  fields [(F.GT_CTRL_LOCK, 0, 1), (F.GT_CFG_EN, 2, 1), (F.GT_CFG_PERIOD, 2, 1), (F.GT_TOP_VALUE, 2, 9), (F.GT_CNT_VALUE, 2, 8),
    (F.GT_CMP0_VALUE, 2, 9), (F.GT_CFG_EN, 3, 1), (F.GT_CNT_VALUE, 3, 4294967295), (F.GT_CFG_CASC, 4, 1)] exe

theorem meets_Timers : (at100 gtDie).g F.GT_CFG_CASC 2 ≠ 1 ∧ (at100 gtDie).g F.GT_CFG_EN 2 = 1 ∧ (at100 gtDie).g F.GT_CTRL_LOCK = 1 ∧ (at100 gtDie).ioOn = true ∧
    (at100 gtDie).g F.GT_CNT_VALUE 2 + 1 = (at100 gtDie).g F.GT_CMP0_VALUE 2 ∧ (at100 gtDie).g F.GT_CFG_PERIOD 3 ≠ 1 ∧
    (at100 gtDie).g F.GT_CNT_VALUE 3 = 2 ^ 32 - 1 ∧ (at100 gtDie).g F.GT_CFG_CASC 4 = 1 ∧ (at100 exe).g F.GT_CTRL_LOCK ≠ 1 ∧
    (at100 gtDie).g F.GT_CNT_VALUE 2 ≠ (9#32).toNat ∧ (at100 gtDie).g F.GT_CFG_PERIOD 2 = 1 ∧ (at100 gtDie).g F.GT_TOP_VALUE 2 < (10#32).toNat ∧
    (9#32).toNat ≤ (at100 gtDie).g F.GT_TOP_VALUE 2 ∧ (at100 gtDie).g F.GT_CNT_VALUE 2 = (8#32).toNat ∧ (at100 gtDie).caps 2 = [] ∧
    (at100 { gtDie with gtCaps := [(2, [(1, 7#64)])] }).caps 2 = (1, 7#64) :: [] ∧
    (at100 (fields [(F.GT_CFG_ALIGN, 2, 1)] gtDie)).g F.GT_CFG_ALIGN 2 = 1 := by decide

theorem meets_CheckValueUnits : (at100 exe).g F.CK_OWN_OWNER 1 = 0 ∧ (at100 (fields [(F.CK_OWN_OWNER, 1, 2)] exe)).g F.CK_OWN_OWNER 1 = 2 ∧
    (at100 (fields [(F.CK_OWN_OWNER, 1, 2)] exe)).ckBusy 1 = false ∧ (at100 (fields [(F.CK_DMA_LEN, 1, 8)] exe)).g F.CK_DMA_LEN 1 ≠ 0 ∧
    (at100 exe).g F.CK_DMA_LEN 1 = 0 ∧ (at100 (fields [(F.CK_STAT_BUSY, 1, 1)] exe)).ckBusy 1 = true := by decide

/-! ### Outputs, lamps, pattern engines, converters -/

/-- Output 1: closed and commanded, its tests on; output 2: open, PENDA set; folds run and the die is powered. -/
def soDie : LogicDie :=
  let x := fields [(F.FOLD_STATUS_RUNNING, 0, 1), (F.FOLD_STATUS_STARTED, 0, 1), (F.PWR_DOM_STATE, 6, 2), (F.SO_CROOK_IN_A, 0, 1), (F.SO_CROOK_IN_B, 0, 1),
    (F.SO_CMD_CMD, 0, 2), (F.SO_CMD_CLOSED, 0, 2), (F.SO_CFG_OFFTEST, 1, 1), (F.SO_CFG_ONTEST, 2, 1), (F.SO_STAT_PENDA, 2, 1),
    (F.SO_CROOK_OUT_CMD, 0, 1), (F.SO_CROOK_CPEN, 0, 1)] exe
  { x with sigBusy := [3] }

/-- A pulse of output 1 in progress, good or spoiled. -/
def pulseOf (off on spoiled : Bool) : LogicDie := soDie.setOut 1 { soDie.out 1 with off := off, on := on, spoiled := spoiled }

theorem meets_OwnSwitch : (1 : Nat) < 32 ∧ ((soDie.drive .la 1 100).g F.SO_CMD_CLOSED).testBit 1 = true ∧
    ((soDie.drive .la 2 100).g F.SO_CMD_CLOSED).testBit 2 = false := by decide

theorem meets_Overload : ((both soDie).lb.g F.SO_CMD_CLOSED).testBit 1 = true ∧ ((both soDie).lb.g F.SO_CMD_CLOSED).testBit 2 = false := by decide

theorem meets_OutputFindingsAndPulses :
    (let x := ((both soDie).die .la).at 90000000
     (x.g F.SO_CMD_CLOSED).testBit 2 = false ∧ (x.out 2).off = false ∧ (x.out 2).epOpen = none ∧
     max (x.out 2).openAt (x.out 2).offEnd + x.g F.SO_CFG_OFFT 2 * 1000 ≤ 90000000 ∧ (x.out 2).openFrom + 10000000 ≤ 90000000 ∧ (x.out 2).highAt + 10000000 ≤ 90000000 ∧
     (x.g F.SO_CMD_CMD).testBit 1 = true ∧ (x.g F.SO_CMD_CLOSED).testBit 1 = true ∧ (x.out 1).epLow = none ∧
     (x.out 1).closeAt + x.g F.SO_CFG_ONT 1 * 1000 ≤ 90000000) ∧
    (let x := ((both soDie).die .la).at 40010000
     40010000 % (1000 * x.g F.SO_TCFG_SLOT) = 10000 ∧ x.testSlot 40010000 = 2 * 1 + Ch.num .la ∧ x.permit .la 1 = true ∧ (x.out 1).off = false ∧
     (x.out 1).on = false ∧ x.g F.SO_CFG_OFFTEST 1 = 1) ∧
    (let x := ((both (soDie.setOut 2 { soDie.out 2 with freed := true })).die .la).at 80010000
     80010000 % (1000 * x.g F.SO_TCFG_SLOT) = 10000 ∧ x.testSlot 80010000 = 2 * 2 ∧ x.permit .la 2 = true ∧ x.g F.SO_CFG_ONTEST 2 = 1 ∧
     x.g F.FOLD_STATUS_STARTED = 1 ∧ (x.g F.SO_CMD_CMD).testBit 2 = false ∧ (x.out 2).freed = true ∧ (x.out 2).off = false ∧ (x.out 2).on = false) ∧
    ((pulseOf false true true).out 1).on = true ∧ ((pulseOf false true true).out 1).spoiled = true ∧
    ((pulseOf false true false).out 1).spoiled = false ∧ ((pulseOf false true false).out 1).start = 0 ∧
    (pulseOf false true false).g F.SO_CFG_OPON 1 * 1000 ≤ 1000000 := by decide

theorem meets_OffPulseJudged : ((pulseOf true false false).out 1).off = true ∧ ((pulseOf true false false).out 1).spoiled = false ∧
    ((pulseOf true false true).out 1).spoiled = true ∧ ((pulseOf true false false).out 1).start = 0 ∧
    (pulseOf true false false).g F.SO_CFG_OPW 1 * 1000 ≤ 1000000 ∧ soDie.g F.SO_STAT_PENDA 1 ≠ 1 ∧
    (pulseOf true false false |>.p F.SO_STAT_PENDA 1 1).g F.SO_STAT_PENDA 1 = 1 ∧ (soDie.out 1).epPulse.testBit 0 = false := by decide

theorem meets_CrookChain : (at100 soDie).g F.SO_CROOK_OUT_CMD = 1 ∧ (at100 soDie).g F.SO_CROOK_CPEN = 1 ∧
    250000 % 1000000 = 250000 + 500000 * Ch.num .la ∧ 750000 - 500000 * Ch.num .la ≤ 750400 % 1000000 ∧
    750400 % 1000000 ≤ 750000 - 500000 * Ch.num .la + 500 ∧ (at100 soDie).crookPend = 0 ∧ (at100 { soDie with crookPend := 2 }).crookPend ≠ 0 ∧
    (at100 (fields [(F.SO_CROOK_OUT_CMD, 0, 0)] soDie)).g F.SO_CROOK_OUT_CMD ≠ 1 := by decide

theorem meets_OutputCommandsComplete :
    (let x := (both soDie).la.at 40010000
     (x.g F.SO_CMD_CMD).testBit 1 = true ∧ x.g F.SO_CFG_OFFTEST 1 = 1 ∧ x.permit .la 1 = true ∧ (x.out 1).off = false ∧ (x.out 1).on = false ∧
     40010000 % (1000 * x.g F.SO_TCFG_SLOT) = 10000 ∧ x.testSlot 40010000 = 2 * 1 + Ch.num .la) ∧
    (let x := (both soDie).la.at 90000000
     (x.g F.SO_CMD_CLOSED).testBit 2 = false ∧ (x.out 2).off = false ∧ (x.out 2).epOpen = none ∧
     max (x.out 2).openAt (x.out 2).offEnd + x.g F.SO_CFG_OFFT 2 * 1000 ≤ 90000000 ∧ x.g F.SO_CROOK_OUT_CMD = 1) := by decide

theorem meets_CoilSignature : gridNs ((at100 soDie).adc 0).next ≤ 100 ∧ 3 ∈ (at100 soDie).sigBusy ∧ 4 ∉ (at100 soDie).sigBusy ∧ (List.replicate 256 0#16).length = 256 ∧
    (at100 soDie).g F.SO_SIGCFG_LEARN 3 ≠ 1 ∧ (at100 (fields [(F.SO_SIGCFG_LEARN, 3, 1)] soDie)).g F.SO_SIGCFG_LEARN 3 = 1 ∧
    (at100 (fields [(F.SO_SIGSTAT_REF, 3, 1), (F.SO_SIGCFG_THR, 3, 9)] soDie)).g F.SO_SIGSTAT_REF 3 = 1 ∧
    (at100 (fields [(F.SO_SIGSTAT_REF, 3, 1), (F.SO_SIGCFG_THR, 3, 9)] soDie)).g F.SO_SIGCFG_THR 3 < 10 := by decide

/-- Aspect 1 displayed: string 8 dark, string 9 steady, strings 10 and 11 from engine 0 with PROOF; stage 9 lit, optical input 0 judged, its first
window missed; the pattern engine 0 runs and engine 1 waits; the matrix is lit. -/
def lampDie : LogicDie :=
  let x := fields [(F.FOLD_STATUS_RUNNING, 0, 1), (F.PWR_DOM_STATE, 4, 2), (F.PWR_DOM_STATE, 7, 2), (F.LMP_CTRL_ACTIVE, 0, 1), (F.LMP_DISP_DEFINED, 0, 1),
    (F.LMP_DISP_ASP, 0, 1), (F.LMP_ASP_ENTRY_HI, 28, 0x10000 + 1000), (F.LMP_ASP_ENTRY_LO, 29, 0x830000 + 5000), (F.LMP_ASP_ENTRY_HI, 29, 0x830000),
    (F.LMP_STG_B, 9, 1000), (F.LMP_OSCFG_OPROOF, 0, 1), (F.LMP_OSCFG_EN, 0, 1), (F.LMP_OSCFG_S0, 0, 8), (F.LMP_OSCFG_S1, 0, 63), (F.LMP_OSCFG_S2, 0, 63),
    (F.LMP_OSLIM_ODARK, 0, 500), (F.LMP_OSSTAT_PEND, 0, 1), (F.LMP_PROOF_PROVEN, 0, 1), (F.LMP_STAT_PEND, 8, 1), (F.LMP_TCFG_PALIVE, 0, 1),
    (F.LMP_CFG_EN, 0, 1), (F.LMP_CFG_EN, 1, 1), (F.LMP_LIM_ILEAK, 8, 100), (F.LMP_LIM_VDARK, 8, 100), (F.MX_CTRL_EN, 0, 1),
    (F.PE_CTRL_RUN, 0, 3), (F.PE_CFG_GROUP, 0, 1), (F.PE_CFG_GROUP, 2, 1), (F.PE_CFG_LINK, 0, 2), (F.PE_CFG_LINK, 1, 2)] exe
  let x := { x with boot := { BootSt.reset with phase := .done } }
  let x := (x.setPe 0 { x.pe 0 with mode := .running, cnt := [2, 1, 0, 0] }).setPe 1 { x.pe 1 with mode := .wait 3 }
  (x.setLamp 8 { x.lamp 8 with kind := 2 }).setLamp 10 { x.lamp 10 with kind := 1, passes := 1 }

theorem meets_LampDarkness : lampDie.g F.FOLD_STATUS_SAFE ≠ 1 ∧ lampDie.pw.frstAt = none ∧ lampDie.g F.PWR_DOM_STATE 4 = 2 ∧
    (fields [(F.FOLD_STATUS_SAFE, 0, 1)] lampDie).g F.FOLD_STATUS_SAFE = 1 := by decide

theorem meets_StageFindings : (both lampDie).la.g F.LMP_STG_B (8 % 24) = 0 ∧ (both lampDie).la.g F.LMP_STG_B (9 % 24) ≠ 0 ∧
    (both lampDie).la.loopDark 9 100 = false := by decide

theorem meets_DimmingPeriods : 50000 % 50000 = (8 % 8) * 6250 ∧ 6250 % 50000 = (9 % 8) * 6250 ∧ 100 % 50000 ≠ (9 % 8) * 6250 ∧
    lampDie.boot.phase ≠ .off ∧ (lampDie.at 6250).loopDark 9 6250 = false ∧ (lampDie.at 50000).loopDark 8 50000 = false ∧
    entMode ((lampDie.at 50000).dispEntry 8) = 0 ∧ entMode ((lampDie.at 6250).dispEntry 9) = 1 ∧ (lampDie.at 6250).trim 9 = 0 ∧
    12500 % 50000 = (10 % 8) * 6250 ∧ entMode ((lampDie.at 12500).dispEntry 10) = 3 ∧ (at100 lampDie).flashOn 0 100 = false ∧
    lampDie.g F.LMP_CFG_EN 9 ≠ 1 := by decide

theorem meets_LampChecks : (both lampDie).lb.sampleDue 10 57500 = true ∧ (both lampDie).lb.sampleDue 10 57501 = false ∧
    57500 % 2000000 < 100000 ∧ lampDie.lampCheck 8 5 50 = (2, 0) ∧ (lampDie.lamp 8).kind = 2 ∧ lampDie.lampCheck 8 50 50 = (2, 2) ∧
    lampDie.g F.LMP_STAT_PEND 8 = 1 ∧ lampDie.lampCheck 10 50 500 = (2, 2) ∧ (lampDie.lamp 10).kind ≠ 2 ∧
    lampDie.g F.LMP_PROOF_PROVEN = 1 ∧ entProof (lampDie.dispEntry 10) = true ∧ entProof (lampDie.dispEntry 9) = false ∧
    entLit (lampDie.lamp 8).entry (lampDie.lamp 8).onPhase = false ∧ entMode (lampDie.lamp 8).entry ≠ 3 ∧
    entMode (((both lampDie).lb.at 5000000).dispEntry 10) = 3 ∧
    ((both lampDie).lb.at 5000000).lampSide.dispAt < 5000000 ∧
    (5000000 - ((both lampDie).lb.at 5000000).lampSide.dispAt) % (((both lampDie).lb.at 5000000).g F.LMP_TCFG_PALIVE * 1000000) = 0 ∧
    (((both lampDie).lb.at 5000000).lamp 10).lastAlive = none := by decide

/-- LB of `both lampDie` as it has taken the result of a window of OS0. -/
def windowTaken (v start t : Nat) : LogicDie :=
  let z := ((both lampDie).lb.at t).p F.LMP_OSSTAT_LAST v 0
  { z with lampSide := { z.lampSide with osAt := Sparse.put (fun _ => none) z.lampSide.osAt 0 (some start) } }

/-- A dark loop judged well and badly, one not judged, a measurement of the loop, and pair 0 dark and tested. -/
theorem meets_OpticalAndNeighbours :
    ((both lampDie).lb.windowDue 0 9000000 9100000 = true ∧ (both lampDie).lb.windowDue 0 9000001 9200000 = false ∧
     (windowTaken 400 9000000 9100000).g F.LMP_OSCFG_OPROOF 0 = 1 ∧
     (windowTaken 400 9000000 9100000).judgeWindow 0 400 9000000 = some (false, true) ∧
     (windowTaken 600 9000000 9100000).judgeWindow 0 600 9000000 = some (false, false) ∧
     (windowTaken 400 8000000 8100000).judgeWindow 0 400 8000000 = none ∧ (windowTaken 600 9000000 9100000).g F.LMP_OSSTAT_PEND 0 = 1 ∧
     ((windowTaken 600 9000000 9100000).p F.LMP_OSSTAT_PEND 0 0).g F.LMP_OSSTAT_PEND 0 ≠ 1) ∧
    (2090000 % 2000000 = 90000 ∧ (both lampDie).la.members 0 = [8] ∧ Sparse.get (fun _ => none) (both lampDie).la.lampSide.loopAt 0 = none) ∧
    lampDie.g F.LMP_OSCFG_OPROOF 1 ≠ 1 ∧ lampDie.members 1 = [] ∧ lampDie.nbDark 9 0 = false ∧
    (let z := (both lampDie).lb.at 2000000
     2000000 = (0 + 1) * 2000000 ∧ z.nbDark (pairLow 0) 0 = true ∧ z.nbDark (pairLow 0 + 1) 0 = true ∧ z.lampSide.dispAt ≤ 0 ∧
     z.lampSide.nbPend.testBit 0 = false) := by decide

theorem meets_PatternInstructions : PeRuns ((both lampDie).la.at 100) 0 ∧ ¬ PeRuns ((both lampDie).la.at 100) 1 ∧
    1 < (((both lampDie).la.at 100).pe 0).cnt.getD 0 0 ∧ (((both lampDie).la.at 100).pe 0).cnt.getD 1 0 ≤ 1 := by
  unfold PeRuns; decide

/-- Engine 0 is linked to engine 2 in a common group. -/
theorem meets_PatternShiftAndControl :
    (let x := (both lampDie).la.at 100
     PeRuns x 0 ∧ x.g F.PE_CFG_GROUP 0 ≠ 0 ∧ x.g F.PE_CFG_GROUP (x.g F.PE_CFG_LINK 0) = x.g F.PE_CFG_GROUP 0 ∧
     (x.g F.PE_CTRL_RUN).testBit 4 = false) ∧
    (let x := (both (fields [(F.PE_CFG_GROUP, 0, 0)] lampDie)).la.at 100
     PeRuns x 0 ∧ x.g F.PE_CFG_GROUP 0 = 0) := by
  unfold PeRuns; decide

theorem meets_PatternTick : ∃ t, 
    (let x := (both lampDie).la.at t
     x.peTicks 1 t = true ∧ (x.pe 1).mode = .wait 3 ∧ (x.g F.PE_CTRL_RUN).testBit 1 = true ∧ (x.pe 1).start = false ∧
     (x.g F.PE_CTRL_SWAP).testBit 1 = false ∧ (x.g F.PE_CTRL_FSWAP).testBit 1 = false ∧ (x.g F.PE_CTRL_PAUSE).testBit 1 = false ∧
     (x.pe 1).work.length = 8 ∧ (∀ v ∈ (x.pe 1).work, v < 65536) ∧ x.peTicks 1 (t + 1) = false) := ⟨2000000, by decide⟩

theorem meets_IndicatorMatrix : mxCfgOk 0 = false ∧ mxCfgOk (LogicDie.reset.rd .MX_CFG 0) = true ∧
    100 % (Word.bits (both lampDie).la.mx.cfg F.MX_CFG_FPER.hi F.MX_CFG_FPER.lo * 1000) ≠ 0 ∧
    1000000 % (Word.bits (both lampDie).la.mx.cfg F.MX_CFG_FPER.hi F.MX_CFG_FPER.lo * 1000) = 0 ∧
    (both lampDie).la.g F.LMP_CTRL_ACTIVE = 1 ∧ (both lampDie).la.g F.MX_CTRL_EN = 1 ∧ (both lampDie).lb.g F.PWR_DOM_STATE 7 = 2 ∧
    (both lampDie).la.mx.linkOff = false ∧
    (let x := (both (fields [(F.MX_CTRL_BLANKED, 0, 0)] lampDie)).la.at 62000
     x.g F.MX_CTRL_BLANKED ≠ 1 ∧ 0 ≤ x.mxCfg F.MX_CFG_LINES ∧ x.slotEnd 0 62000 = true ∧ x.slotEnd 0 100 = false) ∧
    (let x := (both (fields [(F.MX_CTRL_BLANKED, 0, 0)] lampDie)).la.at 998500
     x.g F.MX_CTRL_BLANKED ≠ 1 ∧ x.mxCfg F.MX_CFG_NBTEST ≠ 0 ∧ x.inGap 998500 = true ∧ x.mx.tested ≠ some 0 ∧
     998500 / (x.mxCfg F.MX_CFG_FPER * 1000) = 0) := by decide

/-- What the completion statements ask beside the above: the lamp-link fault is not muted. -/
theorem meets_LampCommandsComplete : (at100 lampDie).g F.PWR_STAT_PDSEQ ≠ 1 ∧ (at100 lampDie).muted 56 = false := by decide

/-- Converter 0 of a die with AFE ON in triggered mode by the fold start, a trigger of it at 400 µs; converter 1 in continuous mode, with a
queue, striking slice 3, shadowing slice 7 to its end; calibration enabled, slot 1 of converter 1 with a tolerance. -/
def adcDie : LogicDie :=
  let x := fields [(F.PWR_DOM_STATE, 8, 2), (F.ADC_CFG_MODE, 0, 2), (F.ADC_CFG_TRIG, 0, 1), (F.ADC_CFG_TRIG, 1, 2), (F.ADC_CFG_MODE, 1, 1),
    (F.ADC_CTRL_REFEN, 0, 1), (F.ADC_CTRL_CALEN, 0, 1), (F.ADC_CFG_LAST, 0, 3), (F.ADC_CFG_LAST, 1, 3), (F.ADC_SEQ_AVG, 0, 2), (F.ADC_CAL_ZT, 17, 1)] exe
  let x := { x with trigs := [(1, some 400000)] }
  x.setAdc 1 { x.adc 1 with queue := [5], strikes := 8, shadow := 7, shadowed := 4096 }

/-- What a converter of that die keeps, changed. -/
def adcWith (c : Nat) (f : AdcSt → AdcSt) : LogicDie := adcDie.setAdc c (f (adcDie.adc c))

/-- Converter 1 of that die in triggered mode by software. -/
def swDie : LogicDie := fields [(F.ADC_CFG_TRIG, 1, 0), (F.ADC_CFG_MODE, 1, 2)] adcDie

theorem meets_AdcRequests :
    (let x := (both adcDie).la.at 400000
     x.trigAt 1 = some 400000 ∧ x.trigAt 3 ≠ some 400000 ∧ x.g F.ADC_CFG_TRIG 0 = 1 ∧ x.g F.ADC_CFG_TRIG 1 ≠ 1 ∧ x.g F.ADC_CFG_MODE 0 = 2 ∧
     x.adcBusy 0 = false ∧ x.converts 0 = true ∧ x.converts 1 = true ∧ x.capturing 1 = false ∧ (x.adc 1).cal = none ∧ (x.adc 1).urgent = [] ∧
     (x.adc 1).runs = [] ∧ (x.adc 1).parts = [] ∧ (x.adc 0).queue = [] ∧ (x.adc 1).queue = 5 :: [] ∧ x.g F.ADC_CTRL_REFEN = 1 ∧
     x.refAt + 300000 ≤ 400000) ∧
    ((both (adcWith 0 (fun q => { q with pass := true }))).la.at 400000).adcBusy 0 = true ∧
    ((both (adcWith 0 (fun q => { q with cal := some (1, false) }))).la.at 100).capturing 0 = false ∧
    ((both (adcWith 0 (fun q => { q with cal := some (1, false) }))).la.at 100).g F.PWR_DOM_STATE 8 = 2 ∧
    (((both (adcWith 1 (fun q => { q with urgent := [2] }))).la.at 100).adc 1).urgent ≠ [] ∧
    ((both { adcDie with trigs := [(2, some 100)] }).la.at 100).trigAt 2 = some 100 ∧
    (∀ c, c < 2 → ((both (fields [(F.ADC_CFG_TRIG, 0, 3)] adcDie)).la.at 400000).g F.ADC_CFG_TRIG c ≠ 1 ∨
      ((both (fields [(F.ADC_CFG_TRIG, 0, 3)] adcDie)).la.at 400000).g F.ADC_CFG_MODE c ≠ 2) ∧
    ((both adcDie).la.at 100).refAt + 300000 > 100 ∧ ((both swDie).la.at 100).adcBusy 1 = false ∧ ((both swDie).la.at 100).converts 1 = true ∧
    ((both (swDie.setAdc 1 { swDie.adc 1 with pass := true })).la.at 100).adcBusy 1 = true := by decide

/-- An entry under way with one of its four constituents issued, and a pass before its first entry. -/
theorem meets_AdcConstituents :
    (let x := (both (adcWith 0 (fun q => { q with pass := true, entry := 3, next := 200, runs := [⟨0, .seq, 2, 4, 1, 199, [], false, false⟩] }))).la.at (200 * 25 / 2)
     x.converts 0 = true ∧ x.capturing 0 = false ∧ x.g F.ADC_CFG_MODE 0 = 2 ∧ (x.adc 0).urgent = [] ∧ (x.adc 0).cal = none ∧
     (x.adc 0).runs = [⟨0, .seq, 2, 4, 1, 199, [], false, false⟩] ∧ 200 = max (x.adc 0).next ((x.adc 0).freeAt (x.adc 0).rot)) ∧
    (let x := (both (adcWith 0 (fun q => { q with pass := true, next := 200 }))).la.at (200 * 25 / 2)
     (x.adc 0).runs = [] ∧ (x.adc 0).pass = true ∧ (x.adc 0).entry ≤ x.g F.ADC_CFG_LAST 0 ∧
     200 = max (max (x.adc 0).next (x.adc 0).mux) ((x.adc 0).freeAt (x.adc 0).rot)) ∧
    ((both exe).la.at 100).converts 0 = false := by decide

theorem meets_AdcResults :
    (let x := (both (adcWith 0 (fun q => { q with pass := true, entry := 4, runs := [⟨0, .seq, 3, 1, 1, 200, [], true, false⟩] }))).la.at (200 * 25 / 2)
     (x.adc 0).runs = [⟨0, .seq, 3, 1, 1, 200, [], true, false⟩] ∧ (x.adc 0).parts = [] ∧ x.converts 0 = true ∧ x.capturing 0 = false ∧
     x.calSlot 0 (x.g F.ADC_SEQ_CH 3) (x.g F.ADC_SEQ_GAIN 3) = none ∧ x.g F.ADC_CFG_LAST 0 < (x.adc 0).entry ∧ x.g F.ADC_SEQ_QEN 3 ≠ 1) ∧
    ((both adcDie).la.at 100 |>.adc 0).due = none ∧ (fields [(F.ADC_SEQ_QEN, 3, 1)] adcDie).g F.ADC_SEQ_QEN 3 = 1 ∧
    (adcDie.adc 0).queue.length < 256 ∧ 256 ≤ ((adcWith 0 (fun q => { q with queue := List.replicate 256 5 })).adc 0).queue.length := by decide

/-- A conversion of slice 3, which has a strike, and of slice 2, which has none, held at grid instant 8 (100 ns). -/
theorem meets_AdcSlices :
    (∀ k ∈ [2, 3], let x := at100 (adcWith 1 (fun q => { q with parts := [⟨k, 0, 8, false⟩] }))
      (x.adc 1).parts = ⟨k, 0, 8, false⟩ :: [] ∧ x.converts 1 = true ∧ x.capturing 1 = false ∧ gridNs 8 ≤ 100 ∧ 100 ≤ gridNs (8 + 7) ∧
      (x.adc 1).strikes.testBit k = (k == 3)) ∧
    gridNs (8 + 7) < 200 ∧ (at100 (fields [(F.ADC_STAT_NOSPARE, 1, 1)] adcDie)).shadowing 1 = false ∧
    (at100 (fields [(F.ADC_STAT_SUBST, 1, 1)] adcDie)).g F.ADC_STAT_SUBST 1 = 1 ∧
    (at100 (fields [(F.ADC_STAT_SUBST, 1, 1)] adcDie)).shadowing 1 = false ∧
    (at100 (fields [(F.ADC_STAT_SUBST, 1, 1)] adcDie)).converts 1 = true ∧
    (let x := at100 adcDie
     x.shadowing 1 = true ∧ 4096 ≤ (x.adc 1).shadowed ∧ (x.adc 1).shadow = 7 ∧ (x.adc 0).shadowed < 4096 ∧
     ((adcWith 1 (fun q => { q with shadow := 2 })).adc 1).shadow < 7 ∧ (x.adc 1).checked = false ∧ x.g F.ADC_STAT_NOSPARE 1 ≠ 1 ∧
     x.g F.ADC_STAT_SUBST 1 ≠ 1 ∧ (x.adc 1).slowAt < 100000000 ∧ x.g F.PWR_DOM_STATE 8 = 2) := by decide

/-- A measurement of slot 1 of converter 1 whose conversions are made, for ZERO or FULL; one that has just begun; no use of the slot. -/
def calDie (full : Bool) (issued : Nat) : LogicDie :=
  adcWith 1 (fun q => { q with cal := some (1, full), runs := [⟨0, .cal, 1, 4096, issued, 50, [], false, false⟩] })

theorem meets_AdcCalibration :
    (let x := at100 adcDie
     x.g F.ADC_CTRL_CALEN = 1 ∧ (x.adc 0).cal = none ∧ x.converts 0 = true ∧ (x.adc 0).runs = [] ∧ (x.adc 0).parts = [] ∧ (x.adc 0).urgent = []) ∧
    (∀ full, (let x := at100 (calDie full 4096)
      (x.adc 1).cal = some (1, full) ∧ x.calUsable 1 1 = true ∧ (x.adc 1).measured = true ∧ x.converts 1 = true ∧ x.capturing 1 = false ∧
      Sparse.get (fun _ => none) (x.adc 1).zero 1 = none) ∧ ((at100 (calDie full 7)).adc 1).measured = false) ∧
    (at100 exe).g F.ADC_CTRL_CALEN ≠ 1 ∧ (at100 (fields [(F.ADC_CAL_ZT, 17, 0), (F.ADC_CAL_FT, 17, 0)] adcDie)).calUsable 1 1 = false := by
  refine ⟨by decide, fun full => ?_, by decide, by decide⟩
  cases full <;> decide

theorem meets_ConverterCommandsComplete :
    (let x := at100 (fields [(F.ADC_STAT_SUBST, 1, 1)] (adcWith 1 (fun q => { q with parts := [⟨2, 0, 8, false⟩] })))
     (x.adc 1).parts = ⟨2, 0, 8, false⟩ :: [] ∧ x.converts 1 = true ∧ x.capturing 1 = false ∧ gridNs 8 ≤ 100 ∧ 100 ≤ gridNs (8 + 7) ∧
     x.shadowing 1 = false) ∧
    (let x := at100 (calDie false 4096)
     (x.adc 1).cal = some (1, false) ∧ x.calUsable 1 1 = true ∧ (x.adc 1).measured = true ∧ x.converts 1 = true ∧ x.capturing 1 = false) ∧
    (let x := (both (adcWith 0 (fun q => { q with pass := true, entry := 3, next := 200, runs := [⟨0, .seq, 2, 4, 1, 199, [], false, false⟩] }))).la.at (200 * 25 / 2)
     x.converts 0 = true ∧ (x.adc 0).urgent = [] ∧ (x.adc 0).cal = none ∧ 1 < 4 ∧ 200 = max (x.adc 0).next ((x.adc 0).freeAt (x.adc 0).rot)) := by
  decide

/-! ### Faults, boot, telegrams, bridge -/

/-- Source 5 of each class, with no record open and with one open of class 1. -/
theorem meets_FaultOpensRecord : dieSource .la 40 = true ∧ Unforced (at100 exe) ∧ (at100 exe).fc.wire.testBit 40 = false ∧ (at100 exe).fc.held.testBit 40 = false ∧ (at100 exe).g F.PWR_STAT_PDSEQ ≠ 1 ∧
    (at100 exe).muted 40 = false ∧ (at100 exe).g F.FC_CTRL_OPEN ≠ 1 ∧ (at100 exe).g F.FC_CTRL_SAFE ≠ 1 ∧ defaultClass 40 ≥ 2 ∧
    (∃ src, dieSource .la src = true ∧ defaultClass src = 0) ∧ (∃ src, dieSource .la src = true ∧ defaultClass src = 1) := by
  refine ⟨by decide, ?_, by decide, by decide, by decide, by decide, by decide, by decide, by decide, ⟨9, by decide⟩, ⟨0, by decide⟩⟩
  unfold Unforced; decide

theorem meets_FaultMerges : ∃ y : LogicDie, y = at100 (fields [(F.FC_CTRL_OPEN, 0, 1), (F.FC_RECS_CLASS, 0, 1)] exe) ∧ y.g F.FC_CTRL_OPEN = 1 ∧
    Unforced y ∧ y.fc.wire.testBit 40 = false ∧ y.fc.held.testBit 40 = false ∧ y.g F.FC_RECS_CLASS < y.evClass ⟨40, 0, y.dynClass 40, false, false⟩ ∧
    y.evClass ⟨9, 0, y.dynClass 9, false, false⟩ ≤ y.g F.FC_RECS_CLASS := ⟨_, rfl, by unfold Unforced; decide⟩

theorem meets_FaultCloses :
    (let y := (both (fields [(F.FC_CTRL_OPEN, 0, 1), (F.FC_RECS_CLASS, 0, 2)] exe)).la.at 200000000000
     y.g F.FC_CTRL_OPEN = 1 ∧ y.busySource .la = false ∧
     max y.fc.lastEvent y.fc.lastActive + y.g F.FC_QUIET_QUIET * 1000000 ≤ y.now ∧ 2 ≤ y.g F.FC_RECS_CLASS ∧
     y.g F.FC_CTRL_LOCKED ≠ 1 ∧ y.g F.FC_CTRL_NORESUME ≠ 1 ∧ y.fc.mine = none) ∧
    (∃ x : LogicDie, x.xl.inbox = [.wake] ++ .resume 3 5000 :: [] ∧ ∀ m j, XNote.resume m j ∉ [XNote.wake]) ∧
    (∀ n i, XNote.resume n i ∉ run.la.xl.inbox) := by
  refine ⟨by decide, ⟨{ exe with xl := ⟨0, [], none, none, [.wake, .resume 3 5000]⟩ }, rfl, fun m j h => ?_⟩, fun n i h => ?_⟩
  · simp at h
  · have e : run.la.xl.inbox = [] := by decide
    rw [e] at h; simp at h

theorem meets_ForceBits : exe.boot.host.info % 4 ≠ 2 ∧
    ({ exe with boot := { exe.boot with host := { exe.boot.host with info := 2 } } } : LogicDie).boot.host.info % 4 = 2 ∧
    exe.g F.DBG_STAT_SCOPE = 0 ∧ (fields [(F.DBG_STAT_SCOPE, 0, 8)] exe).g F.DBG_STAT_SCOPE = 8 ∧ Nat.testBit 8 3 = true ∧
    HostDie.reset.g F.SEC_LC_LC ≠ 2 ∧ (hostFields [(F.HDBG_STAT_SCOPE, 0, 8)] HostDie.reset).g F.HDBG_STAT_SCOPE = 8 := by decide

theorem meets_HostFaults : (∀ k, k < 4 → (HostDie.reset.at 100).g F.HFC_FORCE_BITS k = 0 ∧ (HostDie.reset.at 100).g F.HFC_FORCEW_BITS k = 0) ∧ hostSource 33 = true ∧ (HostDie.reset.at 100).fc.held.testBit 33 = false ∧ (HostDie.reset.at 100).g F.HFC_CTRL_OPEN ≠ 1 ∧
    (∃ src, hostSource src = true ∧ hostClass src = 0) ∧ (∃ src, hostSource src = true ∧ hostClass src = 3) := by
  refine ⟨by decide, by decide, by decide, by decide, ⟨33, by decide⟩, ⟨48, by decide⟩⟩

/-- A die at a point of its boot. -/
def bootDie (p : BootPhase) : LogicDie := { exe with boot := { BootSt.reset with phase := p, lastMsg := 0 } }

def aHello : Hello := ⟨0, 5, 1, 0, [1, 2, 3, 4]⟩

/-- The host die's HELLO on its way to LA; LA's to the host die. -/
theorem meets_HelloOpensSession :
    (((toDie (.hello aHello) exe).endAt .la false 100).newHello .la false).map (·.2) = some aHello ∧
    ((toHost (.hello aHello)).endAt .la true 100).newHello .la true = some (⟨0, .hello aHello, false, false, 0⟩, aHello) ∧
    (run.endAt .la false 100).newHello .la false = none ∧ (run.endAt .la true 100).newHello .la true = none := by decide

/-- The device with a download message on its way to LA, whose boot stands at `p`. -/
def loading (m : StileMsg) (p : BootPhase) : State :=
  let s := toDie m exe
  { s with la := { s.la with boot := { s.la.boot with phase := p, image := [1, 2], params := [7] } } }

theorem meets_DownloadMessages :
    ((loading (.imageBegin 8) .hello).modDie .la (·.at 100)).incoming .la false = some (.imageBegin 8) ∧
    ((loading (.imageBegin 8) .hello).la.at 100).boot.phase = .hello ∧
    ((loading (.imageChunk 2 [3] false) .image).modDie .la (·.at 100)).incoming .la false = some (.imageChunk 2 [3] false) ∧
    ((loading (.imageChunk 2 [3] false) .image).la.at 100).boot.image.length = 2 ∧
    ((loading (.imageEnd 2 1) .image).modDie .la (·.at 100)).incoming .la false = some (.imageEnd 2 1) ∧
    ((loading (.paramWrite 1 [3] true) .params).modDie .la (·.at 100)).incoming .la false = some (.paramWrite 1 [3] true) ∧
    ((loading (.paramWrite 1 [3] true) .params).la.at 100).boot.params.length = 1 ∧ (run.modDie .la (·.at 100)).incoming .la false = none := by decide

theorem meets_FieldBoot : (at100 (bootDie .scrub)).boot.phase = .scrub ∧ (at100 (bootDie .verify)).boot.phase = .verify ∧
    (both { bootDie .verify with boot := { (bootDie .verify).boot with fails := [(2, 0)] } }).la.boot.fails ≠ [] ∧
    (at100 (bootDie .tally)).boot.phase = .tally ∧ (bootDie .tally).boot.peerFiles = none ∧ (bootDie .tally).boot.peerVerdict = none ∧
    (let x := { bootDie .tally with boot := { (bootDie .tally).boot with peerFiles := some ⟨0, 0, [], (bootDie .tally).twins⟩ } }
     (at100 x).boot.peerFiles = some ⟨(at100 x).boot.imgDigest, (at100 x).boot.parDigest, [], (at100 x).twins⟩) ∧
    (let x := at100 { bootDie .compare with boot := { (bootDie .compare).boot with peerTally := some 0 } }
     x.boot.phase = .compare ∧ x.boot.peerTally = some x.boot.tally ∧ x.boot.xlCut = false ∧ x.g F.FC_CTRL_LOCKED ≠ 1) ∧
    (∀ b : Bool, ((at100 { bootDie .verdict with boot := { (bootDie .verdict).boot with peerVerdict := some b } }).boot.peerVerdict = some b)) ∧
    (at100 (bootDie .verdict)).boot.phase = .verdict ∧ (bootDie .verdict).boot.peerVerdict = none ∧ (bootDie .verdict).boot.xlCut = false ∧
    (at100 (bootDie .verdict)).g F.FC_CTRL_LOCKED ≠ 1 ∧ (at100 (bootDie .verdict)).boot.fails = [] ∧ (at100 (bootDie .done)).boot.phase = .done ∧ (bootDie .image).boot.lastMsg + 100000000 < 100000001 ∧
    (bootDie .hello).boot.helloAt + 50000000 ≤ 50000000 ∧ 100 < (bootDie .hello).boot.helloAt + 50000000 := by decide

/-- The host die with an image in its cache and both sessions open. -/
def cacheHost : HostDie :=
  { hostFields [(F.HSTL_CFG_AUTO, 0, 1), (F.HSTL_STAT_CACHE_VALID, 0, 1), (F.HSTL_STAT_SESSA, 0, 1), (F.HSTL_STAT_SESSB, 0, 1),
      (F.HSTL_DL_STAT_READY, 0, 1)] HostDie.reset with down := { HostDie.reset.down with due := true } }

theorem meets_HostBootAndDownload : (cacheHost.at 100).pw.nrstAt = none ∧ (cacheHost.at 100).down.busy = false ∧ (cacheHost.at 100).g F.HSTL_CFG_AUTO = 1 ∧
    (cacheHost.at 100).g F.HSTL_STAT_CACHE_VALID = 1 ∧ (cacheHost.at 100).down.due = true ∧ (cacheHost.at 100).g F.HSTL_STAT_SESSA = 1 ∧
    (cacheHost.at 100).g F.HSTL_STAT_SESSB = 1 ∧ cacheHost.folds = 0 ∧ cacheHost.lastReason3 = 0 ∧
    (cacheHost.at 100).g F.HSTL_DL_STAT_READY = 1 ∧ HostDie.reset.g F.HSTL_DL_STAT_READY ≠ 1 ∧ HostDie.reset.g F.HSTL_STAT_SESSA ≠ 1 ∧
    (hostFields [(F.HSTL_STAT_DL_BUSY, 0, 1)] HostDie.reset).g F.HSTL_STAT_DL_BUSY = 1 ∧
    ((toHost (.imageVerdict 0 0 1 2)).modHost (·.at 100)).incoming .la true = some (.imageVerdict 0 0 1 2) ∧
    ({ HostDie.reset with down := { HostDie.reset.down with sending := true, got := 2 } } : HostDie).down.got = 2 ^ (other .la).num ∧
    ((toHost (.paramAck 0 1 2)).modHost (·.at 100)).incoming .la true = some (.paramAck 0 1 2) := by decide

/-- A die with connection 3 open for receiving from device 9, connection 4; a bellwether with one stop of device 1 at 0. -/
def vctDie : LogicDie :=
  let x := fields [(F.VCT_RXC_EN, 3, 1), (F.VCT_RXC_PEERDEV, 3, 9), (F.VCT_RXC_PEERCONN, 3, 4), (F.VCT_CFG_DEV, 0, 2), (F.VCT_RXZ_STOPZ, 3, 1),
    (F.VCT_STAT_BWL, 0, 1), (F.VCT_CELL_CPER, 0, 1000), (F.VCT_CELL_DEADLINE, 0, 300), (F.VCT_PEER_MEMBER, 5, 1), (F.VCT_CTRL_FSCLR, 0, 1)] exe
  { x with vct := { x.vct with stops := [⟨1, 3, 1, 0xFF, 0, []⟩] } }

/-- A frame with 8 bytes of data, of a kind, with a SEQ, and LA's CRC. -/
def aFrame (kind seq : Nat) : List Nat :=
  let h := List.replicate 18 0 ++ [1, kind, 9, 2, 0, 1, 4, 8] ++ bytesBE 4 seq ++ List.replicate 20 0 ++ [1, 2, 3, 4, 5, 6, 7, 8]
  h ++ bytesBE 4 (crcFeed 32 (vctPoly .la) 0 ((h.drop 18).take 12 ++ (h.drop 34).take 8 ++ (h.drop 50).take 8)) ++ [0, 0, 0, 0]

theorem meets_TelegramFrames :
    (toDie (.vctRx 3 90 (aFrame 0 1)) vctDie).incoming .la false = some (.vctRx 3 90 (aFrame 0 1)) ∧
    (at100 vctDie).vctChecks 3 (aFrame 0 1) = true ∧ (at100 vctDie).vctChecks 3 (aFrame 1 1) = false ∧
    (at100 (fields [(F.VCT_RXC_KIND, 3, 1)] vctDie)).vctChecks 3 (aFrame 1 1) = true ∧
    (at100 vctDie).vctCrcOk .la 3 (aFrame 0 1) = true ∧ (at100 vctDie).vctCrcOk .lb 3 (aFrame 0 1) = false ∧
    (at100 vctDie).seqFresh 3 (frameAt (aFrame 0 1) 20 1) (frameAt (aFrame 0 1) 26 4) = true ∧
    (at100 vctDie).seqFresh 3 (frameAt (aFrame 0 0) 20 1) (frameAt (aFrame 0 0) 26 4) = false ∧
    (at100 vctDie).vct.early = [] ∧ (frameAt (aFrame 1 1) 22 2).testBit 0 = true ∧ ((at100 vctDie).g F.VCT_RXZ_STOPZ 3).testBit 0 = true ∧
    popAccepted [.accepted 3 9 1] = some ((3, 9, 1), []) ∧ popAccepted run.la.xl.inbox = none ∧ (at100 vctDie).vct.got = [] := by decide

theorem meets_FlockCommands :
    (let x := (both vctDie).la.at 900000000
     x.g F.VCT_STAT_BWL = 1 ∧ x.vct.stops = [⟨1, 3, 1, 0xFF, 0, []⟩] ∧
     0 + x.g F.VCT_CFG_ACKTO * 1000 + x.g F.VCT_CFG_RXCUT * 1000 ≤ 900000000 ∧
     (∃ k ∈ x.ackers ⟨1, 3, 1, 0xFF, 0, []⟩, k ≠ x.g F.VCT_CFG_DEV ∧ k ∉ ([] : List Nat)) ∧ 0 < x.cper) ∧
    (∀ k ∈ ((both (fields [(F.VCT_PEER_MEMBER, 5, 0)] vctDie)).la.at 900000000).ackers ⟨1, 3, 1, 0xFF, 0, []⟩, k = 2 ∨ k ∈ ([] : List Nat)) ∧
    (∀ n, ((both vctDie).la.at 100).g F.VCT_CELL_DEADLINE * 1000 + n * ((both vctDie).la.at 100).cper = 300000 + n * 1000000) ∧
    100 < ((both vctDie).la.at 100).g F.VCT_CELL_DEADLINE * 1000 ∧ (at100 exe).g F.VCT_STAT_BWL ≠ 1 ∧ (at100 vctDie).g F.VCT_CTRL_FSCLR = 1 := by
  refine ⟨⟨by decide, by decide, by decide, ⟨5, by decide⟩, by decide⟩, by decide, fun n => ?_, by decide⟩
  have h1 : ((both vctDie).la.at 100).g F.VCT_CELL_DEADLINE * 1000 = 300000 := by decide
  have h2 : ((both vctDie).la.at 100).cper = 1000000 := by decide
  rw [h1, h2]

/-- A bridge with its three ports enabled. -/
def bridge : HostDie := hostFields [(F.BB_CTRL_EN, 0, 1), (F.BB_PORT_EN, 0, 1), (F.BB_PORT_EN, 1, 1), (F.BB_PORT_EN, 2, 1), (F.BB_QBV_CYCLE, 0, 1000),
  (F.BB_GCL_GATES, 0, 128), (F.BB_GCL_INTERVAL, 0, 2000), (F.BB_AS_HOLD, 0, 1), (F.BB_ASSTAT_HOLDOVER, 0, 1)] HostDie.reset

theorem meets_Bridge : (bridge.at 100).g F.BB_CTRL_EN = 1 ∧ (bridge.at 100).g F.BB_PORT_EN 0 = 1 ∧ HostDie.reset.g F.BB_CTRL_EN ≠ 1 ∧
    (bridge.at 100).stream 5 0 6 = none ∧ (bridge.at 100).back.fdb = [] ∧ gateListOk ((bridge.at 100).gateList 0) = true ∧
    gateListOk ((bridge.at 100).gateList 1) = false ∧ (bridge.at 100).g F.BB_QBV_CYCLE 0 ≠ 0 ∧
    2000 % (bridge.at 2000).g F.BB_QBV_CYCLE 0 = (bridge.at 2000).g F.BB_QBV_BASE 0 % (bridge.at 2000).g F.BB_QBV_CYCLE 0 ∧
    100 % (bridge.at 100).g F.BB_QBV_CYCLE 0 ≠ (bridge.at 100).g F.BB_QBV_BASE 0 % (bridge.at 100).g F.BB_QBV_CYCLE 0 := by decide

theorem meets_CellTime : (bridge.at 100).g F.BB_ASSTAT_HOLDOVER = 1 ∧ 100 < (bridge.at 100).back.holdAt + (bridge.at 100).g F.BB_AS_HOLD * 1000000000 ∧
    (bridge.at 1000000000).back.holdAt + (bridge.at 1000000000).g F.BB_AS_HOLD * 1000000000 ≤ 1000000000 := by decide

/-- A VCT_TX of LA with LB's half waiting, equal or not. -/
def halves (p : List Nat) : State :=
  let s := toHost (.vctTx 3 7 1 [1, 2] false)
  { s with host := { s.host with back := { s.host.back with txB := [⟨3, 9, 1, p, 0, 0⟩] } } }

theorem meets_TelegramPairs : (halves [1, 2]).incoming .la true = some (.vctTx 3 7 1 [1, 2] false) ∧
    (toHost (.vctTx 3 7 1 [1, 2] false)).host.back.txB = [] ∧ (halves [1, 3]).host.back.txB = [⟨3, 9, 1, [1, 3], 0, 0⟩] ∧
    (run.host.at 100).back.txA = [] ∧ ({ BackSt.reset with txA := [⟨3, 9, 1, [], 0, 0⟩] } : BackSt).txB = [] ∧
    (let h := hostFields [(F.BB_VCT_ETYPE, 0, 0), (F.BB_CFG_DEV, 0, 2), (F.BB_RXC_EN, 3, 1), (F.BB_RXC_PEERDEV, 3, 9), (F.BB_RXC_PEERCONN, 3, 4)] bridge
     let f := 7 :: (aFrame 0 1).drop 1
     frameAt f 16 2 = h.g F.BB_VCT_ETYPE ∧ h.mapConn f = some 3 ∧ h.mapConn (f.take 20) = none ∧ h.g F.BB_CTRL_CB ≠ 1 ∧ h.back.fdb = [] ∧
     frameAt f 0 6 ≠ frameAt f 6 6 ∧ h.police 0 (frameAt f 0 6) (frameAt f 14 2 % 4096) (frameAt f 14 2 / 2 ^ 13) (f.length + 4) 100 = (h, true)) := by decide

/-! ### Power, resets, self-test, security, debug -/

/-- A die whose domain 6 is ON, domain 5 in bring-up at step 2, 7 at step 4, 8 in its repeated step, 9 in take-down at step 3, domain 1 saving, domains 0
and 2 in FALLOW with the fold task paused. -/
def pwrDie : LogicDie :=
  let x := fields [(F.PWR_DOM_STATE, 6, 2), (F.PWR_DOM_STATE, 5, 3), (F.PWR_DOM_STEP, 5, 2), (F.PWR_DOM_STATE, 7, 3), (F.PWR_DOM_STEP, 7, 4),
    (F.PWR_DOM_STATE, 8, 3), (F.PWR_DOM_STEP, 8, 2), (F.PWR_DOM_STATE, 9, 3), (F.PWR_DOM_STEP, 9, 3), (F.PWR_DOM_STATE, 1, 3), (F.PWR_DOM_STEP, 1, 5),
    (F.PWR_DOM_STATE, 0, 1), (F.PWR_DOM_STATE, 2, 1), (F.PWR_STAT_PAUSED, 0, 1), (F.PWR_WAKE_CROOK, 0, 1), (F.FOLD_PERIOD_PERIOD, 0, 1)] exe
  { x with pw := { x.pw with down := 2 ^ 9 + 2, repeated := 2 ^ 8 } }

theorem meets_DomainTransitions :
    (let x := at100 pwrDie
     x.g F.PWR_DOM_STATE 6 = 2 ∧ x.g F.PWR_DOM_STATE 5 = 3 ∧ x.pw.down.testBit 5 = false ∧ x.g F.PWR_DOM_STEP 5 < 4 ∧ 0 < x.g F.PWR_DOM_STEP 5 ∧
     x.pw.repeated.testBit 5 = false ∧ x.g F.PWR_DOM_STATE 7 = 3 ∧ x.g F.PWR_DOM_STEP 7 = 4 ∧ x.pw.down.testBit 7 = false ∧ x.pw.waking = false ∧
     x.pw.woke.testBit 7 = false ∧ Sparse.get (fun _ => none) x.pw.held 7 = none ∧ x.pw.repeated.testBit 8 = true ∧ x.pw.down.testBit 8 = false ∧
     x.pw.down.testBit 9 = true ∧ x.g F.PWR_DOM_STATE 9 = 3 ∧ x.g F.PWR_DOM_STEP 9 ≠ 5 ∧ x.g F.PWR_STAT_PDSEQ ≠ 1 ∧ x.g F.PWR_DOM_STATE 1 = 3 ∧
     x.g F.PWR_DOM_STEP 1 = 5 ∧ x.pw.brown = false ∧ x.bist.cur = none) := by decide

theorem meets_PowerRequests : HostDie.reset.pw.nrstAt = none ∧ HostDie.reset.g F.PWR_HDOM_STATE 5 = 2 ∧
    (hostFields [(F.PWR_FREP_PAUSEDA, 0, 1)] HostDie.reset).g F.PWR_FREP_PAUSEDA = 1 ∧ HostDie.reset.g F.PWR_FREP_PAUSEDB ≠ 1 ∧
    ((toDie (.powerReq 1 5 1 9) exe).modDie .la (·.at 100)).incoming .la false = some (.powerReq 1 5 1 9) ∧ exe.g F.PWR_STAT_PAUSED ≠ 1 ∧
    (at100 pwrDie).g F.PWR_STAT_PAUSED = 1 ∧ (at100 pwrDie).pw.waking = false ∧ (at100 pwrDie).g F.PWR_WAKE_CROOK = 1 ∧
    (at100 pwrDie).g F.PWR_DOM_STATE 0 = 1 ∧ (at100 pwrDie).g F.PWR_DOM_STATE 2 = 1 ∧
    XNote.wake ∉ run.la.xl.inbox ∧ ({ exe with xl := ⟨0, [], none, none, [.hold, .wake]⟩ } : LogicDie).xl.inbox = [.hold] ++ .wake :: [] ∧ XNote.wake ∉ [XNote.hold] ∧
    (hostFields [(F.PWR_HWAKE_PCIE, 0, 0)] HostDie.reset).g F.PWR_HWAKE_PCIE ≠ 1 := by decide

/-- A pending change to level 2, both dies ready. -/
def levelDie : LogicDie :=
  let x := fields [(F.FOLD_CTRL_LOCK, 0, 1), (F.PWR_PL_REQ, 0, 2), (F.PWR_PL_PEND, 0, 1), (F.FOLD_PERIOD_PERIOD, 0, 1000)] exe
  { x with pw := { x.pw with plMine := true, plTheirs := true }, xl := ⟨0, [], none, none, [.level 2]⟩ }

theorem meets_CoreLevels : (at100 exe).g F.FOLD_CTRL_LOCK ≠ 1 ∧ (at100 levelDie).g F.FOLD_CTRL_LOCK = 1 ∧ (at100 levelDie).admits 2 = true ∧
    (at100 (fields [(F.FOLD_PERIOD_PERIOD, 0, 1)] levelDie)).admits 2 = false ∧ 2 ≠ (at100 levelDie).g F.PWR_PL_CUR ∧
    (at100 levelDie).xl.inbox = [] ++ .level 2 :: [] ∧ (at100 (inFold .sample)).fold.phase ≠ .idle ∧ (at100 levelDie).g F.PWR_PL_PEND = 1 ∧ (at100 levelDie).g F.PWR_PL_REQ = 2 ∧
    (at100 levelDie).pw.plMine = true ∧ (at100 levelDie).fold.phase = .idle ∧ levelDie.pw.plAt + 1000000 ≤ 1000000 ∧
    100 < levelDie.pw.plAt + 1000000 := by decide

theorem meets_SupplyAndFieldReset : (both exe).la.bist.cur = none ∧ (both exe).lb.bist.cur = none ∧ State.reset.la.boot.phase ≠ .off ∧
    exe.g F.PWR_STAT_PDSEQ ≠ 1 ∧ exe.pw.frstAt = none ∧ ({ exe with pw := { exe.pw with frstAt := some 5 } } : LogicDie).pw.frstAt = some 5 ∧
    (fields [(F.PWR_STAT_PDSEQ, 0, 1)] exe).g F.PWR_STAT_PDSEQ = 1 ∧ (bootDie .off).boot.phase = .off ∧ (bootDie .off).pw.frstAt = none ∧
    exe.pw.upAt = none := by decide

theorem meets_HostReset : State.reset.host.pw.nrstAt = some 0 ∧ HostDie.reset.pw.nrstAt = none ∧ HostDie.reset.g F.HDBG_STAT_STATE = 0 := by decide

/-- A die in a session with scope FIELD, its I/O and output domains ON, in lifecycle DEVELOP. -/
def bistDie : LogicDie :=
  let x := fields [(F.PWR_DOM_STATE, 3, 2), (F.PWR_DOM_STATE, 9, 2), (F.PWR_DOM_STATE, 6, 0), (F.DBG_STAT_SCOPE, 0, 16), (F.DBG_STAT_SESSION, 0, 7)] exe
  x.st64 0x20001010 0x5555555555555555

/-- The device with a message on its way to LA, and a test of LA running. -/
def testing (m : StileMsg) (c : Option BistCmd) : State :=
  let s := toDie m { bistDie with memC := pokeBytes [] 0x20001010 (List.replicate 8 0x55) }
  { s with la := { s.la with bist := { s.la.bist with cur := c, queue := [] } } }

theorem quiet_device : deviceQuiet ((testing (.bistCmd 2 0x100 0) none).la.at 100) := by
  unfold deviceQuiet; decide

theorem meets_SelfTestCommands :
    ((testing (.bistCmd 2 0x100 0) none).modDie .la (·.at 100)).incoming .la false = some (.bistCmd 2 0x100 0) ∧ testCommand .la 2 100 (.bistPin .la 100) ∧
    unitTested .la 2 0x100 ∧ ¬ unitTested .la 3 1 ∧ ((testing (.bistCmd 2 0x100 0) none).la.at 100).bist.cur = none ∧
    ((testing (.bistCmd 2 0x100 0) none).la.at 100).bist.queue = [] ∧ unitOn ((testing (.bistCmd 2 0x100 0) none).modDie .la (·.at 100)) .la 2 0x100 ∧
    ¬ unitOn ((testing (.bistCmd 2 0x100 0) none).modDie .la (·.at 100)) .la 2 0x200 ∧ ((testing (.bistCmd 2 0x100 0) none).la.at 100).g F.PWR_STAT_PDSEQ ≠ 1 ∧
    ¬ deviceQuiet (at100 soDie) ∧ ((testing (.bistCmd 2 0x100 0) (some ⟨2, 0x101, 0⟩)).la.at 100).bist.cur = some ⟨2, 0x101, 0⟩ ∧
    unitTested .la 0x10 0x80 ∧ fuseReady ((testing (.bistCmd 2 0x100 0) none).la.at 100) ∧ ¬ fuseReady (at100 soDie) := by
  refine ⟨by decide, ?_, ?_, ?_, by decide, by decide, ?_, ?_, by decide, ?_, by decide, ?_, ⟨by decide, quiet_device, by decide⟩, ?_⟩
  · unfold testCommand; decide
  · unfold unitTested; decide
  · unfold unitTested; decide
  · unfold unitOn; decide
  · unfold unitOn; decide
  · unfold deviceQuiet; decide
  · unfold unitTested; decide
  · exact fun h => absurd h.1 (by decide)

theorem meets_SelfTestEnds : ((testing (.bistCmd 2 0x100 0) (some ⟨2, 0x101, 0⟩)).la.at 100).bist.queue = [] ∧
    (at100 exe).g F.FC_CTRL_SAFE ≠ 1 ∧ (at100 exe).g F.BIST_FUSE_VALID (12 * 4 + 0) ≠ 1 ∧ 0 < spareLanes 4 ∧ (at100 exe).bist.cur = none ∧ (at100 exe).bist.cut = false ∧ (at100 exe).pw.frstOn = false := by decide

theorem meets_SelfTestEnds_units : ∀ p ∈ [(2, 0x101), (0x10, 4), (0x10, 0x80), (3, 0), (1, 4)], unitTested .la p.1 p.2 := by
  unfold unitTested; decide

theorem meets_SelfTestEnds_on : ∀ p ∈ [(2, 0x101), (0x10, 4)], unitOn ((testing (.bistCmd 2 0x100 0) none).modDie .la (·.at 100)) .la p.1 p.2 := by
  unfold unitOn; decide

theorem meets_SoftRepair : (4 : Nat) ∈ writtenSegments .la ∧ 0 < spareLanes 4 ∧ (at100 exe).g F.BIST_CTRL_LOCK ≠ 1 ∧ (5 : Nat) ∉ writtenSegments .la ∧
    (let x := at100 (fields [(F.BIST_FUSE_VALID, 48, 1), (F.BIST_FUSE_LANE, 48, 6)] exe)
     x.g F.BIST_FUSE_VALID (12 * 4 + 0) = 1 ∧ x.g F.BIST_FUSE_LANE (12 * 4 + 0) = 6 ∧ x.g F.BIST_REP_VALID (12 * 4 + 0) ≠ 1) := by decide

/-- The host die in lifecycle DEVELOP with H_SEC on, slot 0 keyed, a session with scope LIFE. -/
def secHost : HostDie :=
  let h := hostFields [(F.SEC_LC_LC, 0, 1), (F.HDBG_STAT_STATE, 0, 1), (F.HDBG_STAT_SCOPE, 0, 33), (F.HDBG_SCOPEREQ_SCOPE, 0, 3), (F.HDBG_SCOPEREQ_TTL, 0, 60),
    (F.HDBG_STAT_SESSION, 0, 7)] HostDie.reset
  { h with sec := { h.sec with keyF := [(0, 5)], asked := true, chalScope := 3, chalTtl := 60 } }

theorem meets_FuseCommands : State.reset.host.pw.nrstAt ≠ none ∧ (secHost.at 100).pw.nrstAt = none ∧ (secHost.at 100).g F.SEC_OTPSTAT_BUSY ≠ 1 ∧
    (hostFields [(F.SEC_OTPSTAT_BUSY, 0, 1)] secHost).g F.SEC_OTPSTAT_BUSY = 1 ∧ fuseForm (.raiseArb 5 .hostFirmware 100) = some (5, 0, 0, 5, .hostFirmware, 100) ∧
    lifeOpen (secHost.at 100) ∧ (secHost.at 100).sec.key 1 = 0 ∧ (secHost.at 100).sec.key 0 ≠ 0 := by
  refine ⟨by decide, by decide, by decide, by decide, rfl, ?_, by decide⟩
  unfold lifeOpen; decide

theorem meets_FuseCommandEnds : secHost.sec.job = none ∧
    (let h : HostDie := { secHost with sec := { secHost.sec with job := some ⟨4, 0, 2, 0, [], false⟩, endAfter := true } }
     (h.at 100).sec.job = some ⟨4, 0, 2, 0, [], false⟩ ∧ (h.at 100).sec.endAfter = true) := by decide

theorem meets_ChallengeAndResponse : (secHost.at 100).pw.nrstAt = none ∧ hostSide .hostBar ∧ ¬ hostSide .foldTask ∧ (secHost.at 100).g F.PWR_HDOM_STATE 5 = 2 ∧
    (secHost.at 100).g F.HDBG_SCOPEREQ_TTL ≠ 0 ∧ (secHost.at 100).g F.HDBG_STAT_LOCKOUT ≠ 1 ∧ (secHost.at 100).sec.refuse ≤ 100 ∧
    (secHost.at 100).sec.asked = true ∧ HostDie.reset.sec.asked = false ∧ (secHost.at 100).sec.chalScope < 64 ∧ (secHost.at 100).sec.chalTtl < 65536 ∧
    (secHost.at 100).g F.HDBG_STAT_BUSY ≠ 1 ∧ (hostFields [(F.HDBG_STAT_CHRDY, 0, 1)] secHost).g F.HDBG_STAT_CHRDY = 1 ∧
    100 < (secHost.at 100).sec.chalAt + 10000000000 ∧ secHost.sec.resp = none ∧
    ({ secHost.sec with resp := some [] } : SecSt).resp = some [] := by
  unfold hostSide; decide

/-- The vendor's public key and its signature check are not known to the model: where some response passes with some key, a device that holds the hash of
that key, not 0, meets the passing clause. -/
theorem meets_passing_response (r chal : List Nat) (h : Config.verifySig (r.take 97) chal ((r.drop 97).take 96) = true) (hr : r ≠ [])
    (k : HostDie) (hk : k.sec.key 0 = Config.sha384 (r.take 97)) (h0 : k.sec.key 0 ≠ 0) (hv : k.sec.krevF = []) :
    r ≠ [] ∧ Config.verifySig (r.take 97) chal ((r.drop 97).take 96) = true ∧ ∃ n, n < 4 ∧ slotLive k.sec n ∧ k.sec.key n = Config.sha384 (r.take 97) :=
  ⟨hr, h, 0, by decide, ⟨h0, by rw [hv]; decide⟩, hk⟩

theorem meets_Sessions : (secHost.at 100).pw.nrstAt = none ∧ (secHost.at 100).g F.SEC_LC_LC = 1 ∧ ((secHost.at 100).g F.HDBG_SCOPEREQ_SCOPE).testBit 3 = false ∧
    ((secHost.at 100).g F.HDBG_SCOPEREQ_SCOPE).testBit 5 = false ∧ (secHost.at 100).g F.HDBG_SCOPEREQ_TTL ≠ 0 ∧ (secHost.at 100).g F.PWR_HDOM_STATE 5 = 2 ∧
    dieInScope 3 .la ∧ (secHost.at 100).g F.HDBG_STAT_STATE ≠ 0 ∧ (secHost.at 100).g F.SEC_OTPSTAT_BUSY ≠ 1 ∧ (secHost.at 100).sec.sessEnd ≤ 100 ∧
    HostDie.reset.g F.HDBG_STAT_STATE = 0 ∧ HostDie.reset.g F.SEC_LC_LC ≠ 1 := by
  unfold dieInScope; decide

theorem meets_JtagInstructions : secHost.g F.HDBG_STAT_STATE ≠ 0 ∧ (secHost.g F.HDBG_STAT_SCOPE).testBit 0 = true ∧ secHost.g F.PWR_HDOM_STATE 1 = 2 ∧
    HostDie.reset.g F.HDBG_STAT_STATE = 0 := by decide

/-- A die in session 7 with scope LA, its lifecycle DEVELOP, in hold or not, the companion core halted or not. -/
def dbgDie (hold halted info : Nat) : LogicDie :=
  let x := fields [(F.DBG_STAT_SESSION, 0, 7), (F.DBG_STAT_SCOPE, 0, 2), (F.DBG_STAT_HOLD, 0, hold), (F.DBG_STAT_HALTED, 0, halted), (F.PWR_DOM_STATE, 0, 2),
    (F.PWR_DOM_STATE, 2, 2), (F.DBG_BKPT_ADDR, 1, 0x2000), (F.DBG_BKPT_CORES, 1, 4), (F.DBG_BKPT_ADDR, 2, 0x100), (F.DBG_BKPT_CORES, 2, 1)] exe
  { x with boot := { x.boot with host := { x.boot.host with info := info } } }

/-- A request of session 7 on its way to that die; its data is a mask or a core, a second byte, an index, a value at byte 8. -/
def dbg (op : Nat) (data : List Nat) (hold halted info : Nat) : State := toDie (.debugReq 7 op data) (dbgDie hold halted info)

theorem meets_asked : ∀ op ∈ [0x10, 0x11, 0x20, 0x21, 0x22, 0x30, 0x31, 0x40, 0x41], asked (dbg op [] 0 0 1) .la 100 op 7 [] := by
  unfold asked inSession; decide

theorem meets_DebugSessions : debugForm (.debugHalt .la 100) = some (.la, 0x20, 100) ∧ (run.modDie .la (·.at 100)).incoming .la false = none ∧
    ((dbg 0x20 [1] 0 0 1).modDie .la (·.at 100)).incoming .la false = some (.debugReq 7 0x20 [1]) ∧
    ((dbg 0x20 [1] 0 0 1).la.at 100).g F.DBG_STAT_SESSION = 7 ∧ exe.g F.DBG_STAT_SESSION = 0 ∧
    (((dbg 0x20 [1] 0 0 1).la.at 100).g F.DBG_STAT_SCOPE).testBit (1 + Ch.num .la) = true ∧
    (((dbg 0x20 [1] 0 0 1).lb.at 100).g F.DBG_STAT_SCOPE).testBit (1 + Ch.num .lb) = false ∧ (dbg 2 [] 1 3 1).la.g F.DBG_STAT_HOLD = 1 := by decide

theorem meets_DebugReads :
    (let x := (dbg 0x10 [] 1 3 1).la.at 100
     mayLoad true (x.region 0x10002000) = true ∧ isRegs (x.region 0x10002000) = false ∧ x.g F.DBG_STAT_HOLD = 1 ∧ x.region 0x100 = .code ∧
     x.g F.PWR_DOM_STATE 2 = 2 ∧ mayLoad true (x.region 0x7FFFFFFF) = false ∧ (∀ k, k < 8 → isRegs (x.region (0x40008010 + k)) = true)) := by decide

theorem meets_DebugWrites :
    (let x := (dbg 0x11 [] 1 3 1).la.at 100
     x.boot.host.info % 4 = 1 ∧ x.g F.DBG_STAT_HOLD = 1 ∧ x.region 0x100 = .code ∧ x.region 0x10002000 = .compData ∧ x.region 0x40008010 = .dieRegs ∧
     x.compMayWrite 0x40008010 = true ∧ x.busDenies .la .debug 0x40008010 (BitVec.ofNat 64 5) = false ∧ x.g F.PWR_DOM_STATE 2 = 2) ∧
    (dbg 0x11 [] 0 0 1).la.g F.DBG_STAT_HOLD ≠ 1 := by decide

theorem meets_HaltAndResume : coresPowered (at100 (dbgDie 0 0 1)) 4 ∧ ¬ coresPowered (at100 (fields [(F.PWR_DOM_STATE, 0, 1)] exe)) 1 ∧
    namesFoldCore (at100 (dbgDie 0 0 1)) 1 ∧ ¬ namesFoldCore (at100 (dbgDie 0 0 1)) 4 ∧ (at100 (dbgDie 0 0 1)).boot.host.info % 4 = 1 ∧
    (at100 (dbgDie 0 0 2)).boot.host.info % 4 = 2 ∧ (at100 (dbgDie 0 0 1)).g F.DBG_STAT_HOLD ≠ 1 ∧ (at100 (dbgDie 1 3 1)).g F.DBG_STAT_HOLD = 1 ∧
    (at100 (dbgDie 0 0 2)).muted 40 = false ∧ (at100 (dbgDie 0 0 2)).g F.FC_CTRL_SAFE ≠ 1 ∧ Nat.land 3 ((at100 (dbgDie 1 3 1)).g F.DBG_STAT_HALTED) = 3 ∧
    (at100 (dbgDie 0 4 1)).hdr.triad = false ∧ ((at100 (dbgDie 0 4 1)).g F.DBG_STAT_HALTED).testBit 2 = true := by
  unfold coresPowered namesFoldCore; decide

theorem meets_CoreRegistersAndBreakpoints : coresPowered (at100 (dbgDie 1 7 1)) (2 ^ 2) ∧ ((at100 (dbgDie 1 7 1)).g F.DBG_STAT_HALTED).testBit 2 = true ∧
    ((at100 (dbgDie 0 0 1)).g F.DBG_STAT_HALTED).testBit 2 = false ∧ (at100 (dbgDie 1 7 1)).boot.host.info % 4 = 1 ∧
    ofBytesLE (([2, 0, 5, 0, 0, 0, 0, 0, 9, 0, 0, 0, 0, 0, 0, 0].drop 2).take 2) = (5 : Fin 32).val ∧ coresPowered (at100 (dbgDie 0 0 1)) 1 := by
  unfold coresPowered; decide

theorem meets_BreakpointsAndHoldNotes :
    (let x := at100 (dbgDie 0 0 1)
     (x.g F.DBG_BKPT_CORES 1).testBit 2 = true ∧ (x.g F.DBG_STAT_HALTED).testBit 2 = false ∧ x.hdr.triad = false ∧ x.comp.on = true ∧
     x.comp.pc = x.g F.DBG_BKPT_ADDR 1 ∧ (x.g F.DBG_BKPT_CORES 2).testBit 0 = true ∧ x.core.running = true ∧ x.core.pc = x.g F.DBG_BKPT_ADDR 2 ∧
     x.boot.host.info % 4 = 1 ∧ x.g F.DBG_STAT_HOLD ≠ 1 ∧ (x.g F.DBG_BKPT_CORES 0).testBit 0 = false) ∧
    ({ exe with xl := ⟨0, [], none, none, [.wake, .hold]⟩ } : LogicDie).xl.inbox = [.wake] ++ .hold :: [] ∧ XNote.hold ∉ [XNote.wake] ∧
    XNote.hold ∉ run.la.xl.inbox := by decide

theorem meets_FusesStayBlown : ∀ n, n < 4 → fuses State.reset.host.sec.krevF n ≤ 8 := by decide

theorem meets_MemoriesStayCanonical : Canonical State.reset ∧ Canonical run := by
  unfold Canonical
  exact ⟨⟨by decide, fun d => by cases d <;> decide⟩, ⟨by decide, fun d => by cases d <;> decide⟩⟩

/-! ### What the completion statements and the clauses beside the above ask -/

theorem meets_InterruptAndUnassignedComplete : ((both irqDie).la.at 5).compRuns = true ∧ ((both irqDie).la.at 5).coreHalted 2 = false ∧
    (∀ k, k < 8 → ((both irqDie).la.at 5).irqLines.testBit k = false) ∧ ((both irqDie).la.at 5).irqLines.testBit 8 = true ∧
    ((both irqDie).la.at 5).comp.irqEnable.toNat.testBit 8 = true ∧ Word.bits ((both irqDie).la.at 5).comp.estatus 0 0 = 1 ∧
    (here (fc .la) run).windowMode = false ∧ (here (fc .la) run).core.jovf = false ∧ (here (fc .la) run).core.attempt = 0 := by decide

theorem meets_TimerLockCompletes : (at100 exe).g F.GT_CTRL_LOCK ≠ 1 ∧ (at100 exe).g F.GT_CFG_ALIGN 2 ≠ 1 := by decide

theorem meets_TimerTick : 100 % (5 * ((at100 gtDie).g F.GT_CFG_PRE 2 + 1)) = 0 ∧ Sparse.get (fun _ => none) (at100 gtDie).gtTicked 2 ≠ some 100 ∧
    101 % (5 * ((at100 gtDie).g F.GT_CFG_PRE 2 + 1)) ≠ 0 ∧ (at100 gtDie).g F.GT_CFG_CASC 3 ≠ 1 := by decide

/-- Pulses of output 1 that end where OPW and OPON have passed. -/
theorem meets_PulseEndsComplete :
    (let x := (both (pulseOf true false false)).la.at (soDie.g F.SO_CFG_OPW 1 * 1000)
     (x.out 1).off = true ∧ (x.out 1).spoiled = false ∧ soDie.g F.SO_CFG_OPW 1 * 1000 = (x.out 1).start + x.g F.SO_CFG_OPW 1 * 1000) ∧
    (let x := (both (pulseOf false true false)).la.at (soDie.g F.SO_CFG_OPON 1 * 1000)
     (x.out 1).on = true ∧ (x.out 1).spoiled = false ∧ soDie.g F.SO_CFG_OPON 1 * 1000 = (x.out 1).start + x.g F.SO_CFG_OPON 1 * 1000) ∧
    ((pulseOf true false true).out 1).spoiled = true ∧ ((pulseOf false true true).out 1).spoiled = true := by decide

theorem meets_CrookAndCaptureComplete : 3 ∈ ((both soDie).la.at 100).sigBusy ∧ gridNs (((both soDie).la.at 100).adc (3 / 16)).next ≤ 100 ∧
    (at100 soDie).crookUp + 2000 ≤ 2100 ∧ (at100 soDie).crookOpen 0 100 = true ∧ ((at100 soDie).out 1).closeAt + 5000000 ≤ 6000000 ∧
    100 < ((at100 soDie).out 1).closeAt + 5000000 := by decide

theorem meets_LampFindingsComplete : (both lampDie).la.g F.LMP_STG_B (9 % 24) ≠ 0 ∧ (both lampDie).la.loopDark 9 100 = false ∧
    (both lampDie).lb.sampleDue 10 57500 = true ∧ (both lampDie).lb.windowDue 0 9000000 9100000 = true ∧ 2090000 % 2000000 = 90000 ∧
    (both lampDie).la.members 0 ≠ [] ∧ Sparse.get (fun _ => none) (both lampDie).la.lampSide.loopAt 0 ≠ some 2090000 ∧
    (let z := (both lampDie).lb.at 2000000
     z.nbDark (pairLow 0) 0 = true ∧ z.nbDark (pairLow 0 + 1) 0 = true ∧ z.lampSide.dispAt ≤ 0) ∧
    (at100 (fields [(F.FOLD_STATUS_SAFE, 0, 1)] lampDie)).g F.FOLD_STATUS_SAFE = 1 ∧ (at100 lampDie).driven 56 = false := by decide

/-- Both dies READY with each other's present proposals; a frame missed twice. -/
theorem meets_FaultCommandsComplete :
    (let s : State := { both (readyDie (3, 5000) (4, 6000)) with lb := readyDie (4, 6000) (3, 5000) }
     s.la.fc.mine = some (3, 5000) ∧ s.lb.fc.mine = some (4, 6000) ∧ s.la.fc.theirs = some (4, 6000) ∧ s.lb.fc.theirs = some (3, 5000) ∧
     6000 = max 5000 6000 ∧ s.la.g F.FC_CTRL_READY = 1 ∧ s.lb.g F.FC_CTRL_READY = 1) ∧
    ((both (xlDie true)).la.at 100).xhead 0 = some ⟨3, .exchange (List.replicate 64 0), 0, true⟩ ∧
    (let y := at100 (xlDie true)
     y.g F.DBG_STAT_HOLD ≠ 1 ∧ y.g F.PWR_STAT_PDSEQ ≠ 1 ∧ y.muted 49 = false ∧ y.driven 49 = false) ∧
    (let y := at100 (fields [(F.FC_CTRL_OPEN, 0, 1), (F.FC_RECS_CLASS, 0, 1)] exe)
     dieSource .la 40 = true ∧ y.fc.held.testBit 40 = false ∧ y.fc.wire.testBit 40 = false ∧ y.g F.PWR_STAT_PDSEQ ≠ 1 ∧ y.muted 40 = false ∧
     y.g F.FC_CTRL_OPEN = 1) ∧ (at100 exe).boot.host.info % 4 ≠ 2 ∧ (HostDie.reset.at 100).g F.SEC_LC_LC ≠ 2 := by decide

theorem meets_LinkCommandsComplete : (linked2.endAt .la false 100).sendsCtl .la false 100 = true ∧
    ((linked2.endAt .la false 100).linkEnd .la false).down = false ∧ (linked2.endAt .la false 100).sendsCtl .la true 100 = true ∧
    (linked2.endAt .la false 100).hears .la false = true ∧ ((linked2.endAt .la false 100).linkEnd .la false).queue = [] ∧
    ((linked2.endAt .la false 100).linkEnd .la true).cw = some 0 ∧
    ((linked2.endAt .la true 100).linkEnd .la false).cw = none ∧ (linked2.endAt .la true 100).hears .la true = true ∧
    DieGets (toDie (.timeSync 20 true) exe) .la 100 (.timeSync 20 true) ∧
    HostGets (toHost (.logRecord [⟨1, 2, 3, 4, 5, 6⟩] 0)) .la 100 (.logRecord [⟨1, 2, 3, 4, 5, 6⟩] 0) ∧
    HostGets (toHost (.foldDone ⟨false, [1, 2, 3, 4]⟩)) .la 100 (.foldDone ⟨false, [1, 2, 3, 4]⟩) ∧
    (toHost (.foldDone ⟨false, [1, 2, 3, 4]⟩)).host.snap.wait .lb = none := by unfold DieGets HostGets; decide

/-- A message whose resend is due, and one that is not; a link silent for twice 2 µs. -/
theorem meets_LinkTimes : (linked2.la.at 3000).stl.unacked = [] ++ ⟨0, .timeSync 5 true, false, false, 0⟩ :: [⟨1, .imageBegin 8, false, false, 0⟩] ∧
    (linked2.la.at 3000).stl.cwAt + 2000 ≤ 3000 ∧ (linked2.la.at 5000).stl.cwAt + 4000 ≤ 5000 ∧ (linked2.la.at 100).stl.missed = false ∧
    100 < (linked2.la.at 100).stl.cwAt + 2000 ∧ linked2.host.xhCut = false ∧ linked2.host.muted = false := by decide

theorem meets_DownloadCommandsComplete :
    (((toDie (.hello aHello) exe).endAt .la false 100).newHello .la false).isSome = true ∧
    (((toHost (.hello aHello)).endAt .la true 100).newHello .la true).isSome = true ∧
    DieGets (loading (.imageBegin 8) .hello) .la 100 (.imageBegin 8) ∧ DieGets (loading (.imageChunk 2 [3] false) .image) .la 100 (.imageChunk 2 [3] false) ∧
    DieGets (loading (.imageEnd 2 1) .image) .la 100 (.imageEnd 2 1) ∧ DieGets (loading (.paramWrite 1 [3] true) .params) .la 100 (.paramWrite 1 [3] true) ∧
    HostGets (toHost (.imageVerdict 0 0 1 2)) .la 100 (.imageVerdict 0 0 1 2) ∧ HostGets (toHost (.paramAck 0 1 2)) .la 100 (.paramAck 0 1 2) := by
  unfold DieGets HostGets; decide

theorem meets_RequestCommandsComplete :
    DieGets (toDie (.hostReq 1 7 0x10002000 0) exe) .la 100 (.hostReq 1 7 0x10002000 0) ∧
    DieGets (toDie (.hostReq 2 7 0x40008010 5) exe) .la 100 (.hostReq 2 7 0x40008010 5) ∧
    DieGets (toDie (.hostReq 3 7 50000 0) (inFold .idle)) .la 100 (.hostReq 3 7 50000 0) ∧ (at100 (inFold .idle)).fold.startAt = none ∧
    DieGets (toDie (.hostReq 4 7 0 0) exe) .la 100 (.hostReq 4 7 0 0) ∧ DieGets (toDie (.powerReq 1 5 2 9) exe) .la 100 (.powerReq 1 5 2 9) ∧
    (at100 exe).g F.PWR_STAT_PAUSED ≠ 1 ∧ HostGets (toHost (.hostRep 2 0 7 8 9)) .la 100 (.hostRep 2 0 7 8 9) ∧
    HostGets (toHost (.powerReq 2 5 2 9)) .la 100 (.powerReq 2 5 2 9) ∧ HostGets (toHost (.powerReq 3 5 2 9)) .la 100 (.powerReq 3 5 2 9) ∧
    HostGets (toHost (.powerReq 4 5 2 9)) .la 100 (.powerReq 4 5 2 9) ∧ HostGets (toHost (.debugRsp 7 2 [0])) .la 100 (.debugRsp 7 2 [0]) ∧
    HostGets (toHost (.bistRes 1 4 0 0 9 [])) .la 100 (.bistRes 1 4 0 0 9 []) := by unfold DieGets HostGets; decide

/-- A request awaited from LA alone; a transmit-ring entry with its head as R322 asks. -/
theorem meets_RequestsAwaited : (({ HostDie.reset with req := { HostDie.reset.req with unanswered := 1 } } : HostDie).req.unanswered = 2 ^ Ch.num .la) ∧
    goodHead (txHost 0x0E 16) 4096 16 ∧ (∀ n, ¬ goodHead ({ txHost 0x0E 16 with mem := pokeBytes (txHost 0x0E 16).mem 4097 [1] }) 4096 n) := by
  refine ⟨by decide, by unfold goodHead; decide, fun n h => absurd h.1 (by decide)⟩

/-- LB's equal half waits on a bridge whose port P1 is enabled and idle, or LB has not sent. -/
def pairHost (equal : Bool) : State :=
  let s := halves [1, 2]
  { s with host := { hostFields [(F.BB_CTRL_EN, 0, 1), (F.BB_PORT_EN, 0, 1), (F.BB_TXC_EN, 3, 1)] s.host with
      back := { s.host.back with txB := if equal then s.host.back.txB else [] } } }

/-- A die that may lead the flock and has heard nobody. -/
def rankDie : LogicDie := fields [(F.VCT_CFG_RANK, 0, 1), (F.VCT_CFG_DEV, 0, 2), (F.VCT_CELL_CPER, 0, 1000), (F.VCT_CFG_BMISS, 0, 2)] exe

theorem meets_BackboneCommandsComplete : HostGets (pairHost true) .la 100 (.vctTx 3 7 1 [1, 2] false) ∧
    (let h := (pairHost true).host.at 100
     h.g F.BB_TXC_EN 3 = 1 ∧ h.back.txB = [⟨3, 9, 1, [1, 2], 0, 0⟩] ∧ h.txCount .la 3 = 0 ∧ h.g F.BB_CTRL_EN = 1 ∧ PortsIdle h ∧
     h.back.fdb = [] ∧ h.g F.BB_PORT_EN 0 = 1) ∧ HostGets (pairHost false) .la 100 (.vctTx 3 7 1 [1, 2] false) ∧
    ((pairHost false).host.at 100).txCount .lb 3 ≤ ((pairHost false).host.at 100).txCount .la 3 ∧
    (HostDie.reset.at 100).g F.BB_AS_ROLE ≠ 1 ∧
    (let x := (both rankDie).la.at 9000000
     0 < x.cper ∧ 9000000 = 9 * x.cper ∧ x.g F.VCT_CFG_RANK ≠ 0 ∧ x.g F.VCT_STAT_BWL ≠ 1 ∧
     x.leadHeard (x.g F.VCT_CFG_RANK) (((9 : Nat) : Int) * x.cper - ((x.g F.VCT_CFG_BMISS : Int) + x.g F.VCT_CFG_RANK - 1) * x.cper) = false) := by
  unfold HostGets PortsIdle; decide

/-- A die that holds its warm-return data, with the check values `c` and `p` of code and pins: VF24 fell, rose at 0, and the sequence has ended. -/
def dippedDie (c p : Nat) : LogicDie :=
  let x := fields [(F.PWR_SAVE_VALID, 0, 29), (F.PWR_SAVE_RCHK, 0, 1)] exe
  { x with pw := { x.pw with dipped := true, upAt := some 0, seqEnd := 0, chkCode := c, chkPins := p } }

/-- The device of two such dies with its domains up again. -/
def returned (c p : Nat) : State :=
  let s := both (dippedDie c p)
  (((s.setDie .la (s.la.at 2000000)).setDie .lb (s.lb.at 2000000)).allOn .la 0 2000000).allOn .lb 0 2000000

theorem cause_15 (y : LogicDie) (h : y.hdr.triad = false) (hv : ∀ k ∈ [0, 2, 3, 4], y.bit F.PWR_SAVE_VALID k = true) (hb : y.pw.brown = false)
    (hr : y.is F.PWR_SAVE_RCHK = true) (hc : y.codeCheck = y.pw.chkCode) (hp : crc64 y.pinRecord = y.pw.chkPins) : y.returnCause false = 15 := by
  have h4 : [0, 2, 3, 4].all (fun k => y.bit F.PWR_SAVE_VALID k) = true := List.all_eq_true.mpr hv
  simp only [LogicDie.returnCause, h, Bool.false_eq_true, ↓reduceIte, List.append_nil, h4, hb, hr, hc, hp, not_true_eq_false, ne_eq, or_self]

/-- Both dies have come back with their saves; the check value of 8 MiB of code is not evaluated: where the dies hold the values of their code and
pins, `cause_15` gives the warm return. -/
theorem meets_warmReturn : ∀ y ∈ [(returned 0 0).la, (returned 0 0).lb], y.hdr.triad = false ∧ (∀ k ∈ [0, 2, 3, 4], y.bit F.PWR_SAVE_VALID k = true) ∧
    y.pw.brown = false ∧ y.is F.PWR_SAVE_RCHK = true ∧ y.pw.chkCode = 0 ∧ y.pw.chkPins = 0 := by decide

/-- A die with FRST held. -/
def frstDie : LogicDie := { exe with pw := { exe.pw with frstAt := some 0, frstOn := true } }

theorem meets_PowerCommandsComplete :
    (let a := (both { levelDie with pw := { levelDie.pw with plBoth := 0 } }).la.at 5000
     a.g F.PWR_PL_PEND = 1 ∧ a.pw.plMine = true ∧ a.pw.plTheirs = true ∧ a.fold.phase = .idle ∧ a.pw.plBoth + 1000 ≤ a.nextStart 5000) ∧
    ((both levelDie).la.at 2000000).g F.PWR_PL_PEND = 1 ∧ ((both levelDie).la.at 2000000).pw.plAt + 1000000 ≤ 2000000 ∧
    (both exe).la.bist.cur = none ∧ (both exe).la.bist.queue = [] ∧ (bootDie .off).boot.phase = .off ∧ (bootDie .off).pw.frstAt = none ∧
    (let y := (both (dippedDie 0 0)).la.at 2000000
     y.g F.PWR_STAT_PDSEQ ≠ 1 ∧ y.pw.dipped = true ∧ y.pw.upAt = some 0 ∧ max 0 y.pw.seqEnd + 1000000 ≤ 2000000) ∧
    ((both frstDie).la.at 100).pw.frstAt = some 0 ∧ ((both frstDie).la.at 100).pw.frstOn = true ∧ (at100 exe).pw.frstAt = none ∧
    HostDie.reset.pw.nrstAt = none ∧ (at100 soDie).g F.PWR_DOM_STATE 6 = 2 ∧ (at100 soDie).bist.cur = none ∧ (at100 soDie).bist.queue = [] := by decide

theorem meets_FuseCommandsComplete : (secHost.at 100).pw.nrstAt = none ∧ (secHost.at 100).g F.SEC_OTPSTAT_BUSY ≠ 1 ∧
    fuseForm (.programIk .hostFirmware 100) = some (3, 0, 0, 0, .hostFirmware, 100) ∧ (secHost.at 100).sec.arbF ≤ 64 := ⟨by decide, by decide, rfl, by decide⟩

theorem meets_DebugCommandsComplete : DieGets (dbg 1 [7, 0, 0, 0, 2, 1] 0 0 1) .la 100 (.debugReq 7 1 [7, 0, 0, 0, 2, 1]) ∧
    DieGets (dbg 2 [] 0 0 1) .la 100 (.debugReq 7 2 []) ∧ (at100 (dbgDie 0 0 1)).g F.DBG_STAT_SESSION = 7 ∧
    (let x := at100 (dbgDie 0 0 1)
     x.g F.PWR_DOM_STATE 2 = 2 ∧ (∀ k, k < 8 → isRegs (x.region (0x10002000 + k)) = false ∧ mayLoad true (x.region (0x10002000 + k)) = true) ∧
     x.region 0x40008010 = .dieRegs ∧ x.compMayWrite 0x40008010 = true ∧ x.regsOn .la 0x40008010 1 = true ∧
     x.busDenies .la .debug 0x40008010 5#64 = false ∧ x.hdr.triad = false ∧ x.g F.PWR_DOM_STATE 0 = 2) ∧
    ((at100 (dbgDie 0 4 1)).g F.DBG_STAT_HALTED).testBit 2 = true ∧
    (let b := [2, 0, 5, 0, 0, 0, 0, 0, 9, 0, 0, 0, 0, 0, 0, 0]
     ofBytesLE (b.take 1) = 2 ∧ ofBytesLE ((b.drop 1).take 1) = 0 ∧ ofBytesLE ((b.drop 2).take 2) = (5 : Fin 32).val) ∧
    (let b := [4, 1, 0, 0, 0, 0, 0, 0, 0, 0x20, 0, 0, 0, 0, 0, 0]
     ofBytesLE (b.take 1) % 8 = 4 ∧ ofBytesLE ((b.drop 1).take 1) = 1 ∧ ofBytesLE ((b.drop 8).take 8) = 0x2000) ∧
    (let b := [0, 0x20, 0, 0x10, 0, 0, 0, 0, 8, 0, 0, 0, 0, 0, 0, 0]
     ofBytesLE (b.take 8) = 0x10002000 ∧ ofBytesLE ((b.drop 8).take 8) = 8) := by unfold DieGets; decide

theorem meets_JtagCommandsComplete : secHost.g F.HDBG_STAT_STATE ≠ 0 ∧ (secHost.g F.HDBG_STAT_SCOPE).testBit 0 = true ∧ secHost.g F.PWR_HDOM_STATE 1 = 2 ∧
    (5 : Fin 4194432).val < 4194304 ∧ (4194305 : Fin 4194432).val = 4194304 + 32 * (0 : Fin 4).val + (1 : Fin 32).val := by decide

theorem meets_SelfTestCommandsComplete : ∀ p ∈ [(1, 4), (2, 0x100), (4, 0), (0x10, 0x80)],
    DieGets (testing (.bistCmd p.1 p.2 0) none) .la 100 (.bistCmd p.1 p.2 0) ∧ unitTested .la p.1 p.2 ∧
    (let v := (testing (.bistCmd p.1 p.2 0) none).modDie .la (·.at 100)
     v.bistPenned .la ⟨p.1, p.2, 0⟩ = false ∧ v.la.bist.cur = none ∧ v.la.bist.queue = [] ∧ v.la.g F.PWR_STAT_PDSEQ ≠ 1) := by
  unfold DieGets unitTested; decide

/-! ### What WellFormed refuses -/

theorem refuses_writeAccess : (Instr.writeAccess (some .la) .companion 0x40008010 3 ⟨5, 0⟩ 100).wf = false ∧
    (Instr.writeAccess (some .la) .companion (2 ^ 64) 8 ⟨5, 0⟩ 100).wf = false ∧ (Instr.writeAccess (some .la) .companion 0x40008010 1 ⟨256, 0⟩ 100).wf = false ∧
    (Instr.writeAccess (some .la) .companion 0x40008010 8 ⟨5, 0⟩ 100).wf = true := by decide
theorem refuses_rcFieldRead : (Instr.rcFieldRead .la .companion ⟨2 ^ 64, false⟩ 100).wf = false := by decide
theorem refuses_snapshotRead : (Instr.snapshotRead 1048575 2 100).wf = false := by decide
theorem refuses_bar0Read : (Instr.bar0Read 8 0 100).wf = false ∧ (Instr.bar0Read 16777215 2 100).wf = false := by decide
theorem refuses_downloadWindowWrite : (Instr.downloadWindowWrite 8 [] 100).wf = false ∧
    (Instr.downloadWindowWrite 16777215 [1, 2] 100).wf = false := by decide
theorem refuses_captureComplete : (Instr.captureComplete .la 3 [0] 100).wf = false := by decide
theorem refuses_adcResult : (Instr.adcResult .la 0 0 false 65535 1 false false 100).wf = false := by decide
theorem refuses_calibrationDone : (Instr.calibrationDone .la 0 268431361 false 100).wf = false := by decide
theorem refuses_faultEvent : (Instr.faultEvent (some .la) [(5, 0), (5, 1)] [] 100).wf = false ∧ (Instr.faultEvent (some .la) [] [5, 5] 100).wf = false := by
  decide
theorem refuses_fcForce : (Instr.fcForce none false 4 0 .hostFirmware 100).wf = false := by decide
theorem refuses_fieldBoot : (Instr.fieldBoot .la [3, 3] [] 100).wf = false ∧ (Instr.fieldBoot .la [] [3, 3] 100).wf = false := by decide
theorem refuses_windowWrite : (Instr.windowWrite 8 [1, 2, 3] 0 100).wf = false ∧
    (Instr.windowWrite 16777215 [1, 2, 3, 4, 5, 6, 7, 8] 0 100).wf = false := by decide
theorem refuses_windowWrite_long (data : List Byte) (h : 4096 < data.length) : (Instr.windowWrite 8 data 0 100).wf = false := by
  show (_ && decide (data.length ≤ 4096) && _) = false
  rw [decide_eq_false (by omega : ¬ data.length ≤ 4096), Bool.and_false, Bool.false_and]
theorem refuses_windowRead : (Instr.windowRead 16777215 2 100).wf = false := by decide
theorem refuses_vctFrame (frame : List Byte) (h : 1518 < frame.length) : (Instr.vctFrame 0 frame none 100).wf = false :=
  decide_eq_false (by omega)
theorem refuses_nrstHRelease : (Instr.nrstHRelease [1, 1] 100).wf = false := by decide
theorem refuses_dmaRunEnd : (Instr.dmaRunEnd .la 0 .clean (2 ^ 64) 100).wf = false := by decide
theorem refuses_testEnd : (Instr.testEnd .la 0 0 0 (List.replicate 41 0) 100).wf = false := by decide

/-! ### Single steps, results worked out from the rules -/

/-- The state that a command answers. -/
def after (i : Instr) (s : State) : State :=
  match exec i s with
  | .next t => t
  | _ => s

/-- w`r` of the fold task on LA, and of the companion core on LB, after an instruction of a task with two registers set. -/
def foldReg (i : Instr) (a b : Word) (r : Fin 32) : Word :=
  (after i (runCore (fun k => { k with w := [(1, a), (2, b)] }))).la.w false r

/-- R120: -1 + 1 = 0; 0 - 1 = 2^64 - 1; MULH of -1 and 1 is -1. -/
theorem test_integer : foldReg (.iAdd (fc .la) 3 1 2) 0xFFFFFFFFFFFFFFFF 1 3 = 0 ∧ foldReg (.iSub (fc .la) 3 1 2) 0 1 3 = 0xFFFFFFFFFFFFFFFF ∧
    foldReg (.iMulh (fc .la) 3 1 2) 0xFFFFFFFFFFFFFFFF 1 3 = 0xFFFFFFFFFFFFFFFF := by decide

/-- R73: a write to w0 is discarded. -/
theorem test_w0 : foldReg (.iAdd (fc .la) 0 1 2) 7 1 0 = 0 := by decide

/-- R121: division by zero gives all ones, the remainder is the dividend; -2^63 / -1 overflows to itself with remainder 0. -/
theorem test_division : foldReg (.iDiv (fc .la) 3 1 2) 7 0 3 = 0xFFFFFFFFFFFFFFFF ∧ foldReg (.iRem (fc .la) 3 1 2) 7 0 3 = 7 ∧
    foldReg (.iDiv (fc .la) 3 1 2) 0x8000000000000000 0xFFFFFFFFFFFFFFFF 3 = 0x8000000000000000 ∧
    foldReg (.iRem (fc .la) 3 1 2) 0x8000000000000000 0xFFFFFFFFFFFFFFFF 3 = 0 := by decide

/-- R122: SLTI compares with the zero-extended immediate, ADDI adds the sign-extended one; EXTU takes bits lsb up. -/
theorem test_immediate : foldReg (.iAddi (fc .la) 3 1 0xFFFF) 5 0 3 = 4 ∧ foldReg (.iExtu (fc .la) 3 1 4 7) 0xABC 0 3 = 0xAB := by decide

/-- R139: safe-1 and safe-0 is safe-0, safe-1 and safe-1 is safe-1. -/
theorem test_sand : foldReg (.iSand (fc .la) 3 1 2) 0x5555555555555556 0x555555555555555A 3 = 0x5555555555555556 := by decide

/-- R123, R43: a store of the fold task is in memory and in the journal with the old content; R80: a trap ends the attempt. -/
theorem test_store : (after (.iStd (fc .la) 2 1 0) run).la.mem8 0x10000000 = 5 ∧
    (after (.iStd (fc .la) 2 1 0) run).la.core.journal = [⟨0x10000000, 0⟩] ∧ (after (.iStd (fc .la) 2 1 1) run).la.core.running = false := by decide

/-- R219, R164: a low crook input opens every own switch. -/
theorem test_crook : (after (.crookInLow .la 100) (both soDie)).la.g F.SO_CMD_CLOSED = 0 ∧
    (after (.crookInLow .la 100) (both soDie)).la.g F.SO_HELD_BITS = 0xFFFFFFFF := by decide

/-- R311: a write of an address that holds no register is an access error, source 9. -/
theorem test_access_error : ((after (.writeAccess (some .la) .companion 0x40FFFFF8 8 ⟨5, 0⟩ 100) run).la.g F.FC_SEEN_BITS 0).testBit 9 = true := by decide

/-- R402, R401: a lifecycle command blows 8 fuses of its field; the lifecycle itself changes at the next release of nRST_H. -/
theorem test_lifecycle :
    (let h : HostDie := { secHost with sec := { secHost.sec with job := some ⟨4, 0, 2, 0, [], false⟩ } }
     let u := after (.otpCommandDone none 100) { run with host := h }
     Sparse.get (fun _ => 0) u.host.sec.lcF 2 = 8 ∧ u.host.g F.SEC_LC_LC = 1 ∧ u.host.g F.SEC_LC_NEXT = 2) := by decide

/-- R411: IDCODE. -/
theorem test_idcode : (after .idcode run).host.sec.jtagDr = 0x1964054F := by decide

/-- R424: a timer out of period mode that stands at 2^32 - 1 overflows to 0; one below its TOP counts on. -/
theorem test_timer : (after (.timerTick .la 3 100) (both gtDie)).la.g F.GT_CNT_VALUE 3 = 0 ∧
    (after (.timerTick .la 2 100) (both gtDie)).la.g F.GT_CNT_VALUE 2 = 9 := by decide

/-- Log entry 1: with nothing queued the block idles; a queued command runs and leaves the queue. -/
theorem test_step : step run = .next run ∧
    (∃ u : State, step { run with pending := [.idcode] } = .next u ∧ u.pending = [] ∧ u.host.sec.jtagDr = 0x1964054F) :=
  ⟨rfl, after .idcode { run with pending := [] }, rfl, by decide⟩

/-- R112 to R115 and the encoding tables: words written out from major opcode, registers, function and immediate. ADD w7, w7, w6 is 0, 7, 7, 6, 1;
SAND w3, w1, w2 is 0x1C with function 1 in [10:5]; RSTI w4, w3 of slot 40 is 0x23. -/
theorem test_words : decodeInstr (fc .la) 0x00E73001 = some (.iAdd (fc .la) 7 7 6) ∧ decodeInstr (fc .la) 0x10A50008 = some (.iAddi (fc .la) 5 5 8) ∧
    decodeInstr (fc .la) 0x4CC50000 = some (.iLdd (fc .la) 6 5 0) ∧ decodeInstr (fc .la) 0x5CE50040 = some (.iStd (fc .la) 7 5 64) ∧
    decodeInstr (fc .la) 0x18E00030 = some (.iOri (fc .la) 7 0 48) ∧ decodeInstr (fc .la) 0xA8000000 = some (.iFold (fc .la)) ∧
    decodeInstr (fc .la) 0x8C830028 = some (.iRsti (fc .la) 4 3 40 0) ∧ decodeInstr (fc .la) 0 = none ∧ decodeInstr (fc .la) 0xFFFFFFFF = none := by decide

/-- A word of an unassigned major opcode. -/
theorem meets_EncodedWords : majorOf 0x08000005 = 0x02 ∧ decodeInstr (fc .la) 0x08000005 = none := by decide

/-- The table gives no row bits: no word spells a command. -/
theorem test_no_words : Sys2Proof.decodeTableWord 32 0xFFFFFFFF = none ∧ State.reset.withFetchWord 32 5 = State.reset := ⟨rfl, rfl⟩

end Sys2Proof.Tests
end

section
/-! PROOFS. What stands of the registers when a core of a logic die has issued an instruction; an instruction that completes with an
access error; and MOVT of a reserved bit (O10). -/

namespace Sys2Proof.Machine

open Sys2Proof.Claims

/-! ### Issuing an instruction -/

/-- A fetch that ECC found clean or corrected does not fail. -/
theorem fetch_ne_lasting {c : Ctx} (h : CleanFetch c) : c.fetch.kind ≠ .lasting := by
  rcases h with h | h <;> simp [h]

/-- What ECC found at a clean fetch is at most counted: the fold task's core stays as it is. -/
theorem LogicDie.eccSeen_core {c : Ctx} (h : CleanFetch c) (x : LogicDie) (m a n : Nat) (companion : Bool) :
    (x.eccSeen c.die c.fetch.kind m a n companion).core = x.core := by
  rcases h with h | h <;> simp [LogicDie.eccSeen, h]

/-- The same of the companion core. -/
theorem LogicDie.eccSeen_comp {c : Ctx} (h : CleanFetch c) (x : LogicDie) (m a n : Nat) (companion : Bool) :
    (x.eccSeen c.die c.fetch.kind m a n companion).comp = x.comp := by
  rcases h with h | h <;> simp [LogicDie.eccSeen, h]

/-- Fetching a line spends cycles and changes nothing else of the fold task's core. -/
theorem LogicDie.fetchLine_core (x : LogicDie) (d : Ch) (a : Nat) :
    (x.fetchLine d a).core = { x.core with cycles := (x.fetchLine d a).core.cycles } := by
  unfold LogicDie.fetchLine
  split <;> rfl

/-- Issuing an instruction changes nothing of the fold task's core but its cycles (R117). -/
theorem LogicDie.issued_core {c : Ctx} (h : CleanFetch c) (x : LogicDie) (srcs dst : List (Fin 32)) :
    (x.issued c srcs dst).core = { x.core with cycles := (x.issued c srcs dst).core.cycles } := by
  have hf : (x.fetched c).core = { x.core with cycles := (x.fetched c).core.cycles } := by
    simpa only [LogicDie.fetched, eccSeen_core h] using x.fetchLine_core c.die x.core.pc
  simp only [LogicDie.issued, LogicDie.count_core, LogicDie.await]
  rw [hf]

/-- The companion core as it issues an instruction is the woken one (R104, R413). -/
theorem LogicDie.compIssued_comp {c : Ctx} (h : CleanFetch c) (x : LogicDie) :
    (x.compIssued c).comp = x.woken.comp := by
  simp only [LogicDie.compIssued, LogicDie.count_comp, eccSeen_comp h]

@[simp] theorem LogicDie.woken_comp_w (x : LogicDie) : x.woken.comp.w = x.comp.w := rfl
@[simp] theorem LogicDie.woken_comp_pc (x : LogicDie) : x.woken.comp.pc = x.comp.pc := rfl

/-! ### An instruction that completes with an access error (R81) -/

/-- The fold task executes an instruction that is an access error. -/
theorem LogicDie.runFold_denied {x z : LogicDie} {c : Ctx} {role : Role} {srcs dst : List (Fin 32)} {n : LogicDie → Nat}
    {bad : LogicDie → Bool} {body : LogicDie → Op} {a : Nat} (hr : x.foldRuns = true) (hb : x.core.cycles < x.budget)
    (hp : x.region x.core.pc = .code) (hf : c.fetch.kind ≠ .lasting) (hi : bad x = false) (hc : role ≠ .compOnly)
    (hz : body (x.issued c srcs dst) = .denied z a) :
    x.runFold c role srcs dst n bad body =
      (z.accessError c.die .foldTask a).retire c.die (x.issued c srcs dst).core.pc ((x.issued c srcs dst).core.pc + 4)
        (n (x.issued c srcs dst)) := by
  simp [LogicDie.runFold, hr, Nat.not_le.mpr hb, foldFetch_none hp hf, hi, hc, hz]

/-- The companion core executes an instruction that is an access error. -/
theorem LogicDie.runComp_denied {x z : LogicDie} {c : Ctx} {role : Role} {bad : LogicDie → Bool} {st : Bool}
    {body : LogicDie → Op} {a : Nat} (hr : x.compRuns = true) (hp : x.region x.comp.pc = .compCode)
    (hf : c.fetch.kind ≠ .lasting) (hi : bad (x.compIssued c) = false) (hc : role ≠ .foldOnly)
    (hz : body (x.compIssued c) = .denied z a) :
    x.runComp c role bad st body = { z.accessError c.die .companion a with comp :=
      { (z.accessError c.die .companion a).comp with pc := ((x.compIssued c).comp.pc + 4) % 2 ^ 64 } } := by
  simp [LogicDie.runComp, hr, compFetch_none hp hf, hi, hc, hz]

end Sys2Proof.Machine

namespace Sys2Proof.Claims

open Sys2Proof.Machine

/-! ### The executing role at an instruction -/

section
variable {c : Ctx} {s : State} (i : Instr)

theorem companion_of_foldReady (h : FoldReady c s) : c.companion = false := by
  obtain ⟨-, hcomp, -⟩ := h
  exact hcomp

theorem companion_of_compReady (h : CompReady c s) : c.companion = true := by
  obtain ⟨-, hcomp, -⟩ := h
  exact hcomp

/-- In the fold task the die at issue is the one in which the instruction has waited for its operands. -/
theorem atIssue_of_foldReady (h : FoldReady c s) :
    atIssue c s i = (here c s).issued c (operands i).1 (operands i).2 := by
  simp [atIssue, companion_of_foldReady h]

/-- On the companion core it is the one in which the core has woken. -/
theorem atIssue_of_compReady (h : CompReady c s) : atIssue c s i = (here c s).compIssued c := by
  simp [atIssue, companion_of_compReady h]

/-- Issuing an instruction changes no register of the fold task. -/
theorem atIssue_w_of_foldReady (h : FoldReady c s) (r : Fin 32) : (atIssue c s i).w false r = (here c s).w false r := by
  rw [atIssue_of_foldReady i h]
  obtain ⟨-, -, hclean, -⟩ := h
  simp only [LogicDie.w, Bool.false_eq_true, if_false]
  rw [LogicDie.issued_core hclean]

/-- Issuing an instruction leaves the fold task's program counter. -/
theorem atIssue_pc_of_foldReady (h : FoldReady c s) : (atIssue c s i).core.pc = (here c s).core.pc := by
  rw [atIssue_of_foldReady i h]
  obtain ⟨-, -, hclean, -⟩ := h
  rw [LogicDie.issued_core hclean]

/-- Issuing an instruction changes no register of the companion core. -/
theorem atIssue_w_of_compReady (h : CompReady c s) (r : Fin 32) : (atIssue c s i).w true r = (here c s).w true r := by
  rw [atIssue_of_compReady i h]
  obtain ⟨-, -, hclean, -⟩ := h
  simp only [LogicDie.w, if_true]
  rw [LogicDie.compIssued_comp hclean, LogicDie.woken_comp_w]

/-- Issuing an instruction leaves the companion core's program counter. -/
theorem atIssue_pc_of_compReady (h : CompReady c s) : (atIssue c s i).comp.pc = (here c s).comp.pc := by
  rw [atIssue_of_compReady i h]
  obtain ⟨-, -, hclean, -⟩ := h
  rw [LogicDie.compIssued_comp hclean, LogicDie.woken_comp_pc]

/-- The cycles of a form, as the model and as the statements write them. -/
theorem cyc_eq_onDie (la lb : Nat) : cyc c.die la lb = onDie c la lb := by
  unfold cyc onDie
  cases c.die <;> rfl

variable {i}
variable {role : Role} {srcs dst : List (Fin 32)} {n : LogicDie → Nat} {bad : LogicDie → Bool} {st : Bool}
  {body : LogicDie → Op} {a : Nat}

/-- The fold task's instruction runs on the die of its core. -/
theorem runInstr_of_foldReady (h : FoldReady c s) :
    runInstr c role srcs dst n bad st body s =
      .next (s.setDie c.die ((here c s).runFold c role srcs dst n bad body)) := by
  obtain ⟨hhost, hcomp, -⟩ := h
  simp [runInstr_die hhost, State.modDie, here, hcomp]

/-- The companion core's instruction runs on the die of its core. -/
theorem runInstr_of_compReady (h : CompReady c s) :
    runInstr c role srcs dst n bad st body s = .next (s.setDie c.die ((here c s).runComp c role bad st body)) := by
  obtain ⟨hhost, hcomp, -⟩ := h
  simp [runInstr_die hhost, State.modDie, here, hcomp]

/-- An instruction of the fold task that is an access error is discarded but for that error, and the task moves on (R81). -/
theorem foldDoes_of_denied (h : FoldReady c s)
    (hexec : exec i s = runInstr c role srcs dst n bad st body s) (hops : operands i = (srcs, dst))
    (hi : bad (here c s) = false) (hc : role ≠ .compOnly)
    (hz : body (atIssue c s i) = .denied (atIssue c s i) a) :
    FoldDoes c s i (n (atIssue c s i)) (fun x => x.accessError c.die .foldTask a) := by
  have hpc := atIssue_pc_of_foldReady i h
  unfold FoldDoes
  rw [hexec, runInstr_of_foldReady h]
  rw [atIssue_of_foldReady i h, hops] at hz hpc ⊢
  obtain ⟨-, -, hclean, hruns, hbudget, hregion⟩ := h
  rw [LogicDie.runFold_denied hruns hbudget hregion (fetch_ne_lasting hclean) hi hc hz, hpc]

/-- The same of an instruction of the companion core. -/
theorem compDoes_of_denied (h : CompReady c s) (hexec : exec i s = runInstr c role srcs dst n bad st body s)
    (hi : bad (atIssue c s i) = false) (hc : role ≠ .foldOnly)
    (hz : body (atIssue c s i) = .denied (atIssue c s i) a) :
    CompDoes c s i (fun x => x.accessError c.die .companion a) := by
  have hpc := atIssue_pc_of_compReady i h
  unfold CompDoes
  rw [hexec, runInstr_of_compReady h]
  rw [atIssue_of_compReady i h] at hi hz hpc ⊢
  obtain ⟨-, -, hclean, hruns, hregion⟩ := h
  rw [LogicDie.runComp_denied hruns hregion (fetch_ne_lasting hclean) hi hc hz, hpc]

end

/-! ### The reserved bits of a system register (R80, R81) -/

/-- A number below `2 ^ (hi + 1)` that reaches `2 ^ lo` has a bit of the field `hi` down to `lo` set. -/
theorem land_maskBits_ne_zero {v hi lo : Nat} (hlo : 2 ^ lo ≤ v) (hhi : v < 2 ^ (hi + 1)) :
    v &&& maskBits hi lo ≠ 0 := by
  obtain ⟨k, hk, hset⟩ := Nat.exists_ge_and_testBit_of_ge_two_pow hlo
  have hkhi : k < hi + 1 := by
    by_contra hge
    have hv := Nat.testBit_lt_two_pow (lt_of_lt_of_le hhi (Nat.pow_le_pow_right Nat.two_pos (not_lt.mp hge)))
    simp [hv] at hset
  have hmask : (maskBits hi lo).testBit k = true := by
    simp only [maskBits, Nat.testBit_mul_two_pow, Nat.testBit_two_pow_sub_one, Bool.and_eq_true, decide_eq_true_eq]
    omega
  intro hzero
  have hbit : (v &&& maskBits hi lo).testBit k = true := by rw [Nat.testBit_and, hset, hmask]; rfl
  rw [hzero, Nat.zero_testBit] at hbit
  exact Bool.false_ne_true hbit

/-- The registers that the companion core writes, with their reserved bits, are those that MOVT lets it write. -/
theorem sysWritable_of_mem_compWrites {k : Nat} {r : Word} {f : CompCore → Word → CompCore} (h : (k, r, f) ∈ compWrites) :
    sysWritable true k = some r.toNat := by
  simp only [compWrites, List.mem_cons, Prod.mk.injEq, List.not_mem_nil, or_false] at h
  rcases h with ⟨rfl, rfl, -⟩ | ⟨rfl, rfl, -⟩ | ⟨rfl, rfl, -⟩ | ⟨rfl, rfl, -⟩ | ⟨rfl, rfl, -⟩ | ⟨rfl, rfl, -⟩ | ⟨rfl, rfl, -⟩ <;> rfl

/-! ### MOVT of a reserved bit (R81) -/

section
variable {c : Ctx} {s : State} {wa : Fin 32} {index : Fin 4096} {reserved : Nat}

/-- The fold task's MOVT that sets a reserved bit is an access error at the register's index. -/
theorem movt_reserved_of_foldReady (h : FoldReady c s) (hsys : sysWritable false index.val = some reserved)
    (hbit : ((here c s).w false wa).toNat &&& reserved ≠ 0) :
    FoldDoes c s (.iMovt c wa index) (onDie c 2 3) (fun x => x.accessError c.die .foldTask index.val) := by
  have hw := atIssue_w_of_foldReady (.iMovt c wa index) h wa
  have hcomp := companion_of_foldReady h
  rw [← cyc_eq_onDie]
  refine foldDoes_of_denied h (show exec _ s = execIMovt c wa index s from rfl) rfl rfl (by decide) ?_
  simp [hcomp, hsys, hw, hbit]

/-- The companion core's MOVT that sets a reserved bit is an access error at the register's index. -/
theorem movt_reserved_of_compReady (h : CompReady c s) (hsys : sysWritable true index.val = some reserved)
    (hbit : ((here c s).w true wa).toNat &&& reserved ≠ 0) :
    CompDoes c s (.iMovt c wa index) (fun x => x.accessError c.die .companion index.val) := by
  have hw := atIssue_w_of_compReady (.iMovt c wa index) h wa
  have hcomp := companion_of_compReady h
  refine compDoes_of_denied h (show exec _ s = execIMovt c wa index s from rfl) rfl (by decide) ?_
  simp [hcomp, hsys, hw, hbit]

end

/-- Settles O10: MOVT answers `denied` where the written word meets the reserved bits of the register (R80, and log 21 for the
low bits of IRQ_VBASE and TRAP_VBASE), and an instruction that does so raises source 9 and moves on. The fold task's EVACK
reserves bits 63 to 39. -/
theorem reservedBitWrite : Obligations.ReservedBitWrite := by
  intro c wa index s
  constructor
  · intro h hindex hbig
    have hsys : sysWritable false index.val = some (maskBits 63 39) := by rw [hindex]; rfl
    have hbit := land_maskBits_ne_zero hbig ((here c s).w false wa).isLt
    exact ⟨_, movt_reserved_of_foldReady h hsys hbit⟩
  · intro h r f hmem hset
    have hbit : ((here c s).w true wa).toNat &&& r.toNat ≠ 0 := fun hzero =>
      hset (BitVec.eq_of_toNat_eq ((BitVec.toNat_and _ _).trans hzero))
    exact ⟨_, movt_reserved_of_compReady h (sysWritable_of_mem_compWrites hmem) hbit⟩

end Sys2Proof.Claims
end

section
/-! PROOFS. What an instruction that writes one register leaves of the device and of the trap registers; and the integer instructions,
none of which traps on its data (O2). -/

namespace Sys2Proof.Machine

open Sys2Proof.Claims

/-! ### The trap registers (R80, R105) -/

/-- What a trap of either role would leave on the die: the cause that the fold task recorded, whether its attempt still runs, and the
companion core's ECAUSE. -/
def LogicDie.trapRecord (x : LogicDie) : Word × Bool × Word := (x.core.trapCause, x.core.running, x.comp.ecause)

/-- Issuing an instruction of the fold task leaves the companion core as it is. -/
theorem LogicDie.issued_comp {c : Ctx} (h : CleanFetch c) (x : LogicDie) (srcs dst : List (Fin 32)) :
    (x.issued c srcs dst).comp = x.comp := by
  have hline : (x.fetchLine c.die x.core.pc).comp = x.comp := by
    unfold LogicDie.fetchLine
    split <;> rfl
  simp only [LogicDie.issued, LogicDie.count_comp, LogicDie.await, LogicDie.fetched, eccSeen_comp h, hline]

/-- Issuing an instruction of the companion core leaves the fold task as it is. -/
theorem LogicDie.compIssued_core {c : Ctx} (h : CleanFetch c) (x : LogicDie) : (x.compIssued c).core = x.core := by
  simp only [LogicDie.compIssued, LogicDie.count_core, eccSeen_core h, LogicDie.woken]

/-- An instruction of the fold task at its issue has not touched the trap registers. -/
theorem LogicDie.issued_trapRecord {c : Ctx} (h : CleanFetch c) (x : LogicDie) (srcs dst : List (Fin 32)) :
    (x.issued c srcs dst).trapRecord = x.trapRecord := by
  unfold LogicDie.trapRecord
  rw [LogicDie.issued_core h, LogicDie.issued_comp h]

/-- Nor has one of the companion core. -/
theorem LogicDie.compIssued_trapRecord {c : Ctx} (h : CleanFetch c) (x : LogicDie) :
    (x.compIssued c).trapRecord = x.trapRecord := by
  unfold LogicDie.trapRecord
  rw [LogicDie.compIssued_core h, LogicDie.compIssued_comp h]
  rfl

/-! ### Writing a general register (R73) -/

/-- The register written takes the value, but w0 reads 0; every other register keeps its own. -/
theorem LogicDie.w_setW (x : LogicDie) (companion : Bool) (wd r : Fin 32) (v : Word) :
    (x.setW companion wd v).w companion r = if r = wd ∧ r ≠ 0 then v else x.w companion r := by
  by_cases hwd : wd = 0
  · simp [LogicDie.setW, hwd]
  · by_cases hr : r = wd
    · cases companion <;> simp [LogicDie.setW, LogicDie.w, hr, hwd]
    · have hval : r.val ≠ wd.val := fun h => hr (Fin.ext h)
      cases companion <;> simp [LogicDie.setW, LogicDie.w, hr, hwd, Sparse.get_put_other _ _ _ hval]

/-- A register write of the fold task changes the core's registers alone. -/
theorem LogicDie.setW_false (x : LogicDie) (wd : Fin 32) (v : Word) :
    x.setW false wd v = { x with core := { x.core with w := (x.setW false wd v).core.w } } := by
  unfold LogicDie.setW
  split <;> rfl

/-- A register write of the companion core changes that core's registers alone. -/
theorem LogicDie.setW_true (x : LogicDie) (wd : Fin 32) (v : Word) :
    x.setW true wd v = { x with comp := { x.comp with w := (x.setW true wd v).comp.w } } := by
  unfold LogicDie.setW
  split <;> rfl

@[simp] theorem LogicDie.setW_core_pc (x : LogicDie) (companion : Bool) (wd : Fin 32) (v : Word) :
    (x.setW companion wd v).core.pc = x.core.pc := by
  cases companion <;> unfold LogicDie.setW <;> split <;> rfl

@[simp] theorem LogicDie.setW_comp_pc (x : LogicDie) (companion : Bool) (wd : Fin 32) (v : Word) :
    (x.setW companion wd v).comp.pc = x.comp.pc := by
  cases companion <;> unfold LogicDie.setW <;> split <;> rfl

/-! ### The pipeline after an instruction (R117, R118) -/

/-- `g` changes neither core, and whether a register is written before or after it makes no difference. -/
structure PipeOnly (g : LogicDie → LogicDie) : Prop where
  core : ∀ x, (g x).core = x.core
  comp : ∀ x, (g x).comp = x.comp
  setW : ∀ x companion r v, g (x.setW companion r v) = (g x).setW companion r v

theorem pipeOnly_id : PipeOnly id := ⟨fun _ => rfl, fun _ => rfl, fun _ _ _ _ => rfl⟩

/-- A result that is usable later only marks the register in the pipeline. -/
theorem pipeOnly_usableIn (wd : Fin 32) (n : Nat) : PipeOnly (fun x => x.usableIn wd n) where
  core x := by unfold LogicDie.usableIn; split <;> rfl
  comp x := by unfold LogicDie.usableIn; split <;> rfl
  setW x companion r v := by
    unfold LogicDie.usableIn LogicDie.setW
    cases companion <;> split <;> split <;> rfl

/-- The pipeline of the fold task alone. -/
theorem PipeOnly.onFold {g : LogicDie → LogicDie} (h : PipeOnly g) (companion : Bool) :
    PipeOnly (fun x => if companion then x else g x) := by
  cases companion
  · exact h
  · exact pipeOnly_id

end Sys2Proof.Machine

namespace Sys2Proof.Claims

open Sys2Proof.Machine

/-! ### Moving on to the next instruction -/

section
variable {c : Ctx} (x : LogicDie) (n : Nat)

theorem moved_of_fold (h : c.companion = false) : moved c x n = x.retire c.die x.core.pc (x.core.pc + 4) n := by
  simp [moved, h]

theorem moved_of_comp (h : c.companion = true) :
    moved c x n = { x with comp := { x.comp with pc := (x.comp.pc + 4) % 2 ^ 64 } } := by
  simp [moved, h]

/-- Moving on changes no register of the role. -/
theorem moved_w (r : Fin 32) : (moved c x n).w c.companion r = x.w c.companion r := by
  cases hc : c.companion
  · rw [moved_of_fold x n hc]; rfl
  · rw [moved_of_comp x n hc]; rfl

/-- Moving on leaves the trap registers. -/
theorem moved_trapRecord : (moved c x n).trapRecord = x.trapRecord := by
  cases hc : c.companion
  · rw [moved_of_fold x n hc]; rfl
  · rw [moved_of_comp x n hc]; rfl

/-- A register written before the role moves on is the only difference that it makes. -/
theorem moved_setW (wd : Fin 32) (v : Word) :
    moved c (x.setW c.companion wd v) n =
      if c.companion then { moved c x n with
        comp := { (moved c x n).comp with w := (moved c (x.setW c.companion wd v) n).comp.w } }
      else { moved c x n with
        core := { (moved c x n).core with w := (moved c (x.setW c.companion wd v) n).core.w } } := by
  cases hc : c.companion
  · simp only [moved_of_fold _ n hc]
    rw [LogicDie.setW_false]
    rfl
  · simp only [moved_of_comp _ n hc]
    rw [LogicDie.setW_true]
    rfl

end

/-! ### An instruction that writes one register -/

/-- Instruction `i` computes `f` of its die, writes it to wd in `n` cycles with `g` of the pipeline, and has no trap of its own. -/
def Computes (c : Ctx) (i : Instr) (wd : Fin 32) (f : LogicDie → Word) (n : Nat) (g : LogicDie → LogicDie) : Prop :=
  ∃ srcs bad, operands i = (srcs, [wd]) ∧ (∀ x, bad x = false) ∧
    ∀ s, exec i s = runInstr c .both srcs [wd] (fun _ => n) bad false (fun x => .done (g (x.setW c.companion wd (f x)))) s

section
variable {c : Ctx} {s : State} {i : Instr} {wd : Fin 32} {f : LogicDie → Word} {v : Word} {n : Nat}
  {g : LogicDie → LogicDie}

/-- Issuing an instruction changes no register of the role that executes it. -/
theorem atIssue_w (h : FoldReady c s ∨ CompReady c s) (r : Fin 32) :
    (atIssue c s i).w c.companion r = (here c s).w c.companion r := by
  rcases h with h | h
  · rw [companion_of_foldReady h]; exact atIssue_w_of_foldReady i h r
  · rw [companion_of_compReady h]; exact atIssue_w_of_compReady i h r

/-- Issuing an instruction leaves the trap registers. -/
theorem atIssue_trapRecord (h : FoldReady c s ∨ CompReady c s) : (atIssue c s i).trapRecord = (here c s).trapRecord := by
  rcases h with h | h
  · rw [atIssue_of_foldReady i h]
    obtain ⟨-, -, hclean, -⟩ := h
    exact LogicDie.issued_trapRecord hclean _ _ _
  · rw [atIssue_of_compReady i h]
    obtain ⟨-, -, hclean, -⟩ := h
    exact LogicDie.compIssued_trapRecord hclean _

/-- The executing role completes the instruction on its die and moves on. -/
theorem exec_of_computes (h : FoldReady c s ∨ CompReady c s) (hi : Computes c i wd f n g) (hg : PipeOnly g) :
    exec i s = .next (s.setDie c.die (moved c ((g (atIssue c s i)).setW c.companion wd (f (atIssue c s i))) n)) := by
  obtain ⟨srcs, bad, hops, hbad, hexec⟩ := hi
  rw [hexec s, ← hg.setW]
  rcases h with h | h
  · rw [runInstr_of_foldReady h, atIssue_of_foldReady i h, hops, moved_of_fold _ _ (companion_of_foldReady h), hg.core,
      LogicDie.setW_core_pc]
    obtain ⟨-, -, hclean, hruns, hbudget, hregion⟩ := h
    exact congrArg (fun x => Host.Outcome.next (s.setDie c.die x))
      (LogicDie.runFold_done hruns hbudget hregion (fetch_ne_lasting hclean) (hbad _) nofun rfl)
  · have hpc : (g ((atIssue c s i).setW c.companion wd (f (atIssue c s i)))).comp.pc = (atIssue c s i).comp.pc := by
      rw [hg.comp, LogicDie.setW_comp_pc]
    rw [runInstr_of_compReady h, moved_of_comp _ _ (companion_of_compReady h), hpc, atIssue_of_compReady i h]
    obtain ⟨-, -, hclean, hruns, hregion⟩ := h
    exact congrArg (fun x => Host.Outcome.next (s.setDie c.die x))
      (LogicDie.runComp_done hruns hregion (fetch_ne_lasting hclean) (hbad _) nofun rfl)

/-- An instruction that computes a register writes it and moves on; nothing else of the device changes (R73, R117). -/
theorem writesThen_of_computes (h : FoldReady c s ∨ CompReady c s) (hi : Computes c i wd f n g) (hg : PipeOnly g) :
    WritesThen c s i wd (f (atIssue c s i)) n g := by
  refine ⟨_, exec_of_computes h hi hg, fun r => ?_, ?_⟩
  · have hw : (g (atIssue c s i)).w c.companion r = (here c s).w c.companion r := by
      rw [← atIssue_w (i := i) h r]
      simp only [LogicDie.w, hg.core, hg.comp]
    rw [State.die_setDie, moved_w, LogicDie.w_setW, hw]
  · rw [State.die_setDie]
    exact congrArg (s.setDie c.die) (moved_setW _ n wd _)

/-- An instruction that writes a register takes no trap: the trap registers stand. -/
theorem trapRecord_of_writesThen (h : FoldReady c s ∨ CompReady c s) (hg : PipeOnly g) (hw : WritesThen c s i wd v n g) :
    ∃ t, exec i s = .next t ∧ (t.die c.die).trapRecord = (here c s).trapRecord := by
  obtain ⟨t, hexec, -, ht⟩ := hw
  have hmoved : (t.die c.die).trapRecord = (moved c (g (atIssue c s i)) n).trapRecord := by
    rw [ht]
    cases c.companion <;> simp [LogicDie.trapRecord]
  have hpipe : (g (atIssue c s i)).trapRecord = (atIssue c s i).trapRecord := by
    simp only [LogicDie.trapRecord, hg.core, hg.comp]
  exact ⟨t, hexec, by rw [hmoved, moved_trapRecord, hpipe, atIssue_trapRecord h]⟩

/-! ### The integer instructions (R120 to R122) -/

section
variable {la lb : Nat} {srcs : List (Fin 32)}

/-- An instruction that the model runs by `runAlu` computes its register. -/
theorem computes_of_runAlu (hexec : ∀ s, exec i s = runAlu c la lb srcs wd f s) (hops : operands i = (srcs, [wd])) :
    Computes c i wd f (onDie c la lb) id := by
  rw [← cyc_eq_onDie]
  exact ⟨srcs, legal, hops, fun _ => rfl, hexec⟩

/-- A multiplication computes its register, which the fold task's pipeline has later. -/
theorem computes_of_runMul {wa wb : Fin 32} {op : Word → Word → Word} (hexec : ∀ s, exec i s = runMul c wd wa wb op s)
    (hops : operands i = ([wa, wb], [wd])) :
    Computes c i wd (fun x => op (x.w c.companion wa) (x.w c.companion wb)) 1
      (fun x => if c.companion then x else x.usableIn wd (cyc c.die 3 4)) :=
  ⟨[wa, wb], legal, hops, fun _ => rfl, hexec⟩

end

/-- Instruction `i` computes one register and has no trap of its own, whatever its cycles and its part of the pipeline. -/
def ComputesRegister (c : Ctx) (i : Instr) : Prop := ∃ wd f n g, PipeOnly g ∧ Computes c i wd f n g

/-- An instruction that computes one register takes no trap in either role. -/
theorem trapRecord_of_computesRegister (h : FoldReady c s ∨ CompReady c s) (hi : ComputesRegister c i) :
    ∃ t, exec i s = .next t ∧ (t.die c.die).trapRecord = (here c s).trapRecord := by
  obtain ⟨wd, f, n, g, hg, hcomputes⟩ := hi
  exact trapRecord_of_writesThen h hg (writesThen_of_computes h hcomputes hg)

theorem computesRegister_of_runAlu {la lb : Nat} {srcs : List (Fin 32)}
    (hexec : ∀ s, exec i s = runAlu c la lb srcs wd f s) (hops : operands i = (srcs, [wd])) : ComputesRegister c i :=
  ⟨wd, f, onDie c la lb, id, pipeOnly_id, computes_of_runAlu hexec hops⟩

theorem computesRegister_of_runMul {wa wb : Fin 32} {op : Word → Word → Word}
    (hexec : ∀ s, exec i s = runMul c wd wa wb op s) (hops : operands i = ([wa, wb], [wd])) : ComputesRegister c i :=
  ⟨wd, _, 1, _, (pipeOnly_usableIn wd _).onFold c.companion, computes_of_runMul hexec hops⟩

/-- EXTU of a field that lies in the word computes its register (R122). -/
theorem computesRegister_iExtu {wa : Fin 32} {lsb w1 : Fin 64} (hfits : lsb.val + (w1.val + 1) ≤ 64) :
    ComputesRegister c (.iExtu c wd wa lsb w1) := by
  refine ⟨wd, _, 1, id, pipeOnly_id, [wa], _, rfl, fun _ => ?_, fun _ => rfl⟩
  exact decide_eq_false (by omega)

theorem computesRegister_of_intForm {p : Ctx × Fin 32 × Nat × Nat × ((Fin 32 → Word) → Word)} (h : intForm i = some p) :
    ComputesRegister p.1 i := by
  unfold intForm at h
  split at h <;> cases h <;> exact computesRegister_of_runAlu (fun _ => rfl) rfl

theorem computesRegister_of_divForm {p : Ctx × Fin 32 × ((Fin 32 → Word) → Word)} (h : divForm i = some p) :
    ComputesRegister p.1 i := by
  unfold divForm at h
  split at h <;> cases h <;> exact computesRegister_of_runAlu (fun _ => rfl) rfl

theorem computesRegister_of_mulForm {p : Ctx × Fin 32 × ((Fin 32 → Word) → Word)} (h : mulForm i = some p) :
    ComputesRegister p.1 i := by
  unfold mulForm at h
  split at h <;> cases h
  · exact computesRegister_of_runMul (fun s => show exec _ s = execIMul _ _ _ _ s from rfl) rfl
  · exact computesRegister_of_runMul (fun s => show exec _ s = execIMulh _ _ _ _ s from rfl) rfl
  · exact computesRegister_of_runMul (fun s => show exec _ s = execIMulhu _ _ _ _ s from rfl) rfl

theorem computesRegister_of_immForm {p : Ctx × Fin 32 × ((Fin 32 → Word) → Word)} (h : immForm i = some p) :
    ComputesRegister p.1 i := by
  unfold immForm at h
  split at h
  case h_10 =>
    obtain ⟨hfits, hp⟩ := Option.ite_none_right_eq_some.mp h
    cases hp
    exact computesRegister_iExtu hfits
  all_goals
    cases h <;> exact computesRegister_of_runAlu (fun _ => rfl) rfl

/-- Every integer instruction of the tables computes one register. -/
theorem computesRegister_of_intCtx (h : intCtx i = some c) : ComputesRegister c i := by
  unfold intCtx at h
  split at h
  · next hform =>
    cases h
    exact computesRegister_of_intForm hform
  · split at h
    · next hform =>
      cases h
      exact computesRegister_of_divForm hform
    · next hform =>
      cases h
      exact computesRegister_of_mulForm hform
    · obtain ⟨p, hform, rfl⟩ := Option.map_eq_some_iff.mp h
      exact computesRegister_of_immForm hform

/-! ### Division by zero, and its overflow (R121) -/

theorem divSigned_zero (a : Word) : divSigned a 0 = 0xFFFFFFFFFFFFFFFF := rfl
theorem divUnsigned_zero (a : Word) : divUnsigned a 0 = 0xFFFFFFFFFFFFFFFF := rfl
theorem remSigned_zero (a : Word) : remSigned a 0 = a := rfl
theorem remUnsigned_zero (a : Word) : remUnsigned a 0 = a := rfl
theorem divSigned_overflow : divSigned 0x8000000000000000 0xFFFFFFFFFFFFFFFF = 0x8000000000000000 := by decide
theorem remSigned_overflow : remSigned 0x8000000000000000 0xFFFFFFFFFFFFFFFF = 0 := by decide

/-- A division in either role writes to wd what `op` makes of its two source registers. -/
theorem writesReg_of_division {op : Word → Word → Word} {wa wb : Fin 32} (h : FoldReady c s ∨ CompReady c s)
    (hexec : ∀ s, exec i s = runAlu c 34 38 [wa, wb] wd (fun x => op (x.w c.companion wa) (x.w c.companion wb)) s)
    (hops : operands i = ([wa, wb], [wd])) :
    WritesReg c s i wd (op ((here c s).w c.companion wa) ((here c s).w c.companion wb)) (if c.die = .la then 34 else 38) := by
  have hwrites := writesThen_of_computes h (computes_of_runAlu hexec hops) pipeOnly_id
  rwa [atIssue_w h, atIssue_w h] at hwrites

end

/-- Settles O2: every instruction of the integer tables computes one register from its operands and completes, so neither role traps and
the trap registers stand; a zero divisor and the overflow of -2^63 by -1 give the values of R121. -/
theorem integerNeverTraps : Obligations.IntegerNeverTraps := by
  constructor
  · intro i c s hctx h
    obtain ⟨t, hexec, htraps⟩ := trapRecord_of_computesRegister h (computesRegister_of_intCtx hctx)
    simp only [LogicDie.trapRecord, Prod.mk.injEq] at htraps
    exact ⟨t, hexec, htraps⟩
  · intro c wd wa wb s h
    have hdiv := writesReg_of_division (i := .iDiv c wd wa wb) (op := divSigned) h (fun _ => rfl) rfl
    have hdivu := writesReg_of_division (i := .iDivu c wd wa wb) (op := divUnsigned) h (fun _ => rfl) rfl
    have hrem := writesReg_of_division (i := .iRem c wd wa wb) (op := remSigned) h (fun _ => rfl) rfl
    have hremu := writesReg_of_division (i := .iRemu c wd wa wb) (op := remUnsigned) h (fun _ => rfl) rfl
    constructor
    · intro hzero
      rw [hzero, divSigned_zero] at hdiv
      rw [hzero, divUnsigned_zero] at hdivu
      rw [hzero, remSigned_zero] at hrem
      rw [hzero, remUnsigned_zero] at hremu
      exact ⟨hdiv, hdivu, hrem, hremu⟩
    · intro hmin hminus
      rw [hmin, hminus, divSigned_overflow] at hdiv
      rw [hmin, hminus, remSigned_overflow] at hrem
      exact ⟨hdiv, hrem⟩

end Sys2Proof.Claims
end
